-- ==== Sys2Proof/Word.lean ====
section
/-! DEFINITION. The word types of the machine (R8, R21, R36): bytes, 32- and 64-bit words, the 4 KiB image of a vector register
or queue element, the 1024-bit mask, and the two sequencers' names (R14). -/
namespace Sys2Proof

/-- One byte of memory (R8). -/
abbrev Byte := BitVec 8
/-- A text word, a token handle, a vector lane, a mark count (R14, R17, R21). -/
abbrev Word32 := BitVec 32
/-- An a-register, an s-register or a system register (R21, R271). -/
abbrev Word64 := BitVec 64
/-- The 4 KiB image of a vector register or of one queue element: byte n is bits [8n+7:8n], lane i is bits [32i+31:32i] (R8, R21, R24). -/
abbrev Image := BitVec 32768
/-- A mask register: bit i governs lane i (R21). -/
abbrev Mask := BitVec 1024

/-- The two sequencers of a core: A (access) and X (execute) (R14). -/
inductive Side where
  | a
  | x
deriving DecidableEq, Repr

/-- The other sequencer of the pair. -/
def Side.other : Side → Side
  | .a => .x
  | .x => .a

/-- Bit 30 of a word tagged A (0b00) or X (0b01) (R14). -/
def Side.bit : Side → BitVec 1
  | .a => 0#1
  | .x => 1#1

/-- The sequencer named by bit 30 of a word tagged A or X (R14). -/
def Side.ofBit (b : BitVec 1) : Side := if b = 0#1 then .a else .x

end Sys2Proof
end

