-- ==== Sys2Proof/Syntax.lean ====
section
/-! DEFINITION. The steps of the machine as syntax: one constructor for each row of spec/opcode_table.json. Rows 0 to 183 are
instruction words, with their fields as the encoding lays them out (R35 to R47); rows 184 to 302 are the other indivisible
steps, with the agent and place they concern and, for an input, what the outside world supplies. -/
namespace Sys2Proof

/-- The domains a barrier or collective may span (R109, R146). -/
inductive Scope where
  | q
  | t
  | d
  | p
  | x
deriving DecidableEq, Repr

/-- The operations of the atomics (R200, R201). -/
inductive AOp where
  | add
  | min
  | max
  | and
  | or
  | xor
  | xchg
  | cas
deriving DecidableEq, Repr

/-- What a remote-access message from a peer package does at this package's home (R288). -/
inductive RemoteOp where
  /-- Read `n` bytes from physical address `phys`. -/
  | read (phys n : Nat)
  /-- Write bytes at physical address `phys`. -/
  | write (phys : Nat) (bytes : List Byte)
  /-- One atomic step on the `n` bytes at physical address `phys`; `fp` for FP32, `cmp` for a compare-and-swap. -/
  | atomic (phys n : Nat) (op : AOp) (fp : Bool) (value cmp : BitVec 64)
  /-- Bytes at a remote home that its own package has changed, as this package's accesses find them from now on. -/
  | home (phys : Nat) (bytes : List Byte)
deriving DecidableEq, Repr

/-- A continuation record: four 64-bit words (R111). -/
structure Rec where
  w0 : BitVec 64
  w1 : BitVec 64
  w2 : BitVec 64
  w3 : BitVec 64
deriving DecidableEq, Repr

/-- What a LOAD packet asks for (R301, R304), with the places the loader chooses for the text and the constant extent (R52, R333). -/
structure LoadRequest where
  /-- The text words of the code object. -/
  text : List Word32
  /-- Bytes of the text beyond a whole number of words (R50, status 1). -/
  oddBytes : Nat
  partw : BitVec 64
  recLog : Nat
  /-- Context the kernel is loaded into. -/
  ctx : Nat
  /-- Near-tier physical address chosen for the text. -/
  textAt : Nat
  /-- Near-tier physical address chosen for the constant extent's bytes. -/
  constAt : Nat
  /-- Virtual address chosen for the constant extent. -/
  constVa : BitVec 64
  /-- Whether the context's near tier has room for both (R304, status 9). -/
  room : Bool
deriving DecidableEq, Repr

/-- What a LAUNCH packet asks for (R301, R305). -/
structure LaunchRequest where
  record : Rec
  count : Nat
  stride : BitVec 32
  ctx : Nat
deriving DecidableEq, Repr

/-- What a graph node does when it runs (R308, R310). -/
inductive NodeKind where
  | task
  | loop (trips : Nat) (body : List Nat)
  | cond (token : BitVec 32) (offset : Nat) (onZero onOther : Nat)
deriving DecidableEq, Repr

/-- One node of a graph descriptor (R308). -/
structure NodeDesc where
  record : Rec
  count : Nat
  stride : BitVec 32
  kind : NodeKind
deriving DecidableEq, Repr

/-- One edge of a graph descriptor: from node u to node v with a capacity (R308). -/
structure EdgeDesc where
  src : Nat
  dst : Nat
  cap : Nat
deriving DecidableEq, Repr

/-- A graph descriptor (R308). -/
structure GraphDesc where
  ctx : Nat
  resident : Bool
  nodes : List NodeDesc
  edges : List EdgeDesc
deriving DecidableEq, Repr

/-- What system software assigns to a partition on this package (R313, R314). -/
structure Ownership where
  /-- Package quad indices in the partition's tenancy. -/
  quads : List Nat
  /-- Physical ranges owned: base and length. -/
  ranges : List (Nat × Nat)
  /-- Anonymous regions: near stack, first granule (stack address div 4096), count (R168). -/
  anon : List (Nat × Nat × Nat)
  /-- Ports and whether each is host-facing. -/
  ports : List (Nat × Bool)
  /-- Entries in the pod switches' route tables: switch and entry. -/
  routes : List (Nat × Nat)
  /-- Wake registers of this package. -/
  wakeRegs : List Nat
deriving DecidableEq, Repr

/-- A command queue as the host creates it (R301): its ring of packets and its completion ring in host memory, log2 of what each holds. -/
structure QueueRequest where
  base : Nat
  log : Nat
  ctx : Nat
  /-- Dies its records are spread over (R305). -/
  dies : List Nat
  /-- Completion ring. -/
  doneAt : Nat
deriving DecidableEq, Repr

/-- What system software gives when it creates a partition (R113, R313, R316). -/
structure PartitionRequest where
  id : Nat
  /-- Packages of the partition, in index order. -/
  packages : List Nat
  /-- This package's index within the partition. -/
  pkgIdx : Nat
  /-- Log2 of the capacities of its ready rings: four for each die, in die order. -/
  ringLog : List Nat
  own : Ownership
  queues : List QueueRequest
deriving DecidableEq, Repr

/-- What system software gives when it creates a context and its address space (R157, R160, R161, R193). -/
structure ContextRequest where
  id : Nat
  part : Nat
  /-- Physical address of the host half's root table. -/
  hostRoot : Nat
  /-- Physical address of the device-managed half's root table. -/
  devRoot : Nat
  /-- The pinned extent table: its physical address in the near tier, and its entries. -/
  petAt : Nat
  petSize : Nat
  /-- The frame-list area: its physical address in the near tier, and its capacity in 8-byte words. -/
  listAt : Nat
  listCap : Nat
deriving DecidableEq, Repr

/-- What an arrival message tells (R148, R288): the scope, the instance, and whether the member's own conditions hold there. -/
structure ArrivalIn where
  sc : Scope
  n : BitVec 32
  met : Bool
deriving DecidableEq, Repr

/-- Registers that system software or the host writes and that have no row of their own (R114, R168, R225, R265, R274, R316, R328, R330). -/
inductive ParamReg where
  | pwgt (part : Nat)
  | pqcyc (part : Nat)
  | pqbit (part : Nat)
  | pqwin (part : Nat)
  | age (part : Nat)
  | migt (part : Nat)
  | colt (part : Nat)
  | ydl (part : Nat)
  | lbud (part : Nat)
  | anqt (part : Nat)
  | tripTemp
  | nstr
  | counter (point : Nat)
  | wakeBind (reg : Nat)
deriving DecidableEq, Repr

/-- A Treltal image with its header (R331): security version, signing key, signature. -/
structure ImageFile where
  version : BitVec 32
  image : List Byte
  key : List Byte
  signature : List Byte
deriving DecidableEq, Repr

/-- The power states of a core die (R326). -/
inductive PowerState where
  | active
  | idle
  | parked
  | off
deriving DecidableEq, Repr

/-- The check points of R330, each with its die, stack or port. -/
inductive CheckPoint where
  | pool (die : Nat)
  | hbm (stack : Nat)
  | mesh (die : Nat)
  | dieToDie (die : Nat)
  | ethernet (port : Nat)
deriving DecidableEq, Repr

/-- What a check point finds (R330), or a peer package reports (R298). -/
inductive ErrorReport where
  | corrected (point : CheckPoint)
  /-- A beat of a die-to-die link that failed `n` times in a row. -/
  | retried (die n : Nat)
  | uncorrectable (point : CheckPoint)
  /-- A packet that arrived in another delivery mode than ROD and RUD (R300). -/
  | otherMode (port : Nat)
  | peer (pkg : Nat)
deriving DecidableEq, Repr

/-- A placement that a die advertises: partition, shape, parities of its origin (R291). -/
structure Advert where
  part : Nat
  width : Nat
  height : Nat
  px : Nat
  py : Nat
deriving DecidableEq, Repr

/-- Whose advertisement (R291): a die of this package, or a die of a peer. -/
inductive AdvertIn where
  | own (die : Nat)
  | peer (pkg die : Nat) (adverts : List Advert)
deriving DecidableEq, Repr

/-- A contribution that a member on a peer package sends (R231, R288): the member and the scope and number of its instance, its rank, its kind,
descriptor and source. -/
structure PeerContrib where
  member : Nat
  scope : Scope
  n : BitVec 32
  rank : Nat
  kind : Nat
  desc : BitVec 512
  source : List Byte
deriving DecidableEq, Repr

/-- Whose contribution (R231). -/
inductive ContribIn where
  | own (core : Nat)
  | peer (c : PeerContrib)
deriving DecidableEq, Repr

/-- A command of a saved matrix queue, as a migration message carries it (R242, R293). -/
structure PeerCmd where
  /-- 0 MMUL, 1 MMULS, 2 MLD, 3 MST to a stream, 4 MST to a queue, 5 PREC, 6 MCLR, 7 HIST.CLR, 8 HIST.RD. -/
  kind : Nat
  z : Nat
  /-- Streams, or format and queue, or the widths of PREC. -/
  a : Nat
  b : Nat
  dim : BitVec 64
  hist : Bool
  /-- Elements that an MST to a queue has pushed. -/
  pushed : Nat
  zexp : BitVec 16
deriving DecidableEq, Repr

/-- The image of one member of a team that migrates (R293): its header and its written pool lines, what the header's device-private bytes
mean, and the place of its first start (R147). -/
structure PeerTask where
  header : Nat
  /-- Line number and content. -/
  lines : List (Nat × Nat)
  cmds : List PeerCmd
  /-- The array command at the head has started. -/
  started : Bool
  /-- Its collectives: scope, kind, token, offset, completion register, and whether the engine has read it. -/
  colls : List (Scope × Nat × Word32 × BitVec 64 × Nat × Bool)
  /-- Setters: flag, and what it waits for: places in `cmds`, and 8 more than places in `colls`. -/
  setters : List (BitVec 8 × List Nat)
  /-- Registers that hold an error word. -/
  errors : List Nat
  /-- Names that an NST still owes: register, images, mark count. -/
  names : List (BitVec 4 × Nat × BitVec 32)
  /-- Images that an NST has taken: register, images, mark count. -/
  halves : List (BitVec 4 × List Image × BitVec 32)
  /-- Package index and core of its first start. -/
  first : Nat × Nat
  /-- The first words of the bodies of its six loop counters, A's and then X's. -/
  starts : List (BitVec 32)
  /-- Its barrier has completed while it was saved (R149). -/
  released : Bool
  /-- Its number at the receiver, which has known it as a task of the group that another package ran. -/
  known : Option Nat
deriving DecidableEq, Repr

/-- A page of an entry that a migrated task keeps (R294): its frame and its leaf entry as the receiver reaches them, and the leaf's DIRTY bit as
it counts for the page (R170). -/
structure PeerFrame where
  size : Nat
  phys : Nat
  dte : Bool
  swz : Nat
  leaf : Option Nat
  wake : Bool
  dirty : Bool
deriving DecidableEq, Repr

/-- A table entry that a migrated task keeps (R294), its frames as this package reaches them. -/
structure PeerEntry where
  index : Nat
  gen : BitVec 12
  /-- The code of its state and of its origin (R161). -/
  state : Nat
  origin : Nat
  kid : Nat
  r : Bool
  w : Bool
  priv : Bool
  cmp : Bool
  cls : Nat
  tier : Nat
  len : Nat
  va : BitVec 64
  frames : List PeerFrame
  /-- Place of an anonymous entry's granules, as the receiver reaches it; of a scratchpad its offset in the pool (R161). -/
  base : Nat
  /-- Member of the record's team that created it, or whose scratchpad it names. -/
  owner : Option Nat
  /-- A free is recorded (R164). -/
  freeLater : Bool
deriving DecidableEq, Repr

/-- Another task of a migrated record's launch group (R147, R148, R231, R296): where it started first, what it has joined at each scope, the
scope of the barrier at which it waits with its own conditions not met, whether it is saved or has ended, the package that runs it when it
is not the sender, and its number at the receiver where that knows it. -/
structure PeerMember where
  first : Nat × Nat
  joined : List (BitVec 32)
  colls : List (BitVec 32)
  arrived : Option Scope
  away : Bool
  ended : Bool
  pkg : Option Nat
  known : Option Nat
deriving DecidableEq, Repr

/-- A contribution that stands in a collective instance of a migrated record's members (R231, R295): whose, by its place among the record's
tasks and then the rest of the group; the place of its command among that task's collectives; and what it holds. -/
structure PeerGiven where
  who : Nat
  place : Nat
  rank : Nat
  kind : Nat
  desc : BitVec 512
  source : List Byte
deriving DecidableEq, Repr

/-- An open collective instance of a migrated record's members (R231, R295). -/
structure PeerInst where
  scope : Scope
  n : BitVec 32
  given : List PeerGiven
deriving DecidableEq, Repr

/-- An offer of a record to a die of another package (R292, R293): its number, the kernel's deaths that the sender has seen, DOMS of each member of
an image and whether it has ended, and the entries that it keeps (R294). -/
structure PeerOffer where
  part : Nat
  ctx : Nat
  die : Nat
  number : Nat
  deaths : Nat
  record : Rec
  members : List (BitVec 52 × Bool)
  entries : List PeerEntry
deriving DecidableEq, Repr

/-- What answers or ends an offer (R293): of record `i` of this package to another of its dies, that die's answer; a peer's acceptance of offer
`i`; a peer's offer; or that a peer takes its offer back. -/
inductive AcceptIn where
  | own (i : Nat)
  | offered (pkg : Nat) (o : PeerOffer)
  | withdrawn (pkg number : Nat)
deriving DecidableEq, Repr

/-- A collective timer that runs out here, or the abort that a peer tells (R296): of instance `n`, where the group's part starts on the package of
index `place`. -/
inductive AbortIn where
  | own (n : Nat)
  | peer (place n : Nat) (coll : Bool)
deriving DecidableEq, Repr

/-- A record that is handed over between packages (R293): the number of the offer that was accepted, the die it was offered to, its waiting level,
its launch group as the receiver numbers it, the images of its members, and what R294 keeps. -/
structure PeerRecord where
  number : Nat
  part : Nat
  ctx : Nat
  die : Nat
  level : Nat
  group : Option Nat
  record : Rec
  tasks : List PeerTask
  entries : List PeerEntry
  rest : List PeerMember
  insts : List PeerInst
deriving DecidableEq, Repr

/-- A migration message (R293): of a record of this package, by its number, or of a peer's record from a package; or what a peer tells of a
member of a group, that it is saved, suspended or migrating there, or is so no longer (R296), or that it has ended (R148); or of a launch group
(R147): that it begins there, of a kernel, with so many records and tasks; that a record's tasks start, at package indexes and cores; that a
record migrates, or does so no longer (R293, R296). -/
inductive MigrationIn where
  | own (i : Nat)
  | peer (pkg : Nat) (r : PeerRecord)
  | away (member : Nat) (away : Bool)
  | ended (member : Nat)
  | launched (part key records tasks : Nat)
  | started (group pkg : Nat) (places : List (Nat × Nat))
  | migrating (group : Nat) (unstarted on : Bool)
deriving DecidableEq, Repr

/-- One step of the machine: an instruction word with its fields, or one of the other indivisible steps. -/

inductive Instr where
  /-- ADD (R68): Adds two scalar operands modulo 2^64 and writes or pushes the result. -/
  | add (s : Side) (d : BitVec 6) (a : BitVec 6) (b : BitVec 6)
  /-- SUB (R68): Subtracts b from a modulo 2^64. -/
  | sub (s : Side) (d : BitVec 6) (a : BitVec 6) (b : BitVec 6)
  /-- AND (R68): Bitwise AND of two scalar operands. -/
  | and (s : Side) (d : BitVec 6) (a : BitVec 6) (b : BitVec 6)
  /-- OR (R68): Bitwise OR of two scalar operands. -/
  | or (s : Side) (d : BitVec 6) (a : BitVec 6) (b : BitVec 6)
  /-- XOR (R68): Bitwise XOR of two scalar operands. -/
  | xor (s : Side) (d : BitVec 6) (a : BitVec 6) (b : BitVec 6)
  /-- SLL (R68): Shifts a left by the low six bits of b. -/
  | sll (s : Side) (d : BitVec 6) (a : BitVec 6) (b : BitVec 6)
  /-- SRL (R68): Logical right shift of a by the low six bits of b. -/
  | srl (s : Side) (d : BitVec 6) (a : BitVec 6) (b : BitVec 6)
  /-- SRA (R68): Arithmetic right shift of a by the low six bits of b. -/
  | sra (s : Side) (d : BitVec 6) (a : BitVec 6) (b : BitVec 6)
  /-- MUL (R68): Low 64 bits of the product of a and b. -/
  | mul (s : Side) (d : BitVec 6) (a : BitVec 6) (b : BitVec 6)
  /-- MULH (R68): High 64 bits of the signed product. -/
  | mulh (s : Side) (d : BitVec 6) (a : BitVec 6) (b : BitVec 6)
  /-- MULHU (R68): High 64 bits of the unsigned product. -/
  | mulhu (s : Side) (d : BitVec 6) (a : BitVec 6) (b : BitVec 6)
  /-- CLZ (R68): Counts leading zeros of a. -/
  | clz (s : Side) (d : BitVec 6) (a : BitVec 6)
  /-- SLT (R68): Writes 1 when a is less than b, signed. -/
  | slt (s : Side) (d : BitVec 6) (a : BitVec 6) (b : BitVec 6)
  /-- SLTU (R68): Writes 1 when a is less than b, unsigned. -/
  | sltu (s : Side) (d : BitVec 6) (a : BitVec 6) (b : BitVec 6)
  /-- SEQ (R68): Writes 1 when a equals b. -/
  | seq (s : Side) (d : BitVec 6) (a : BitVec 6) (b : BitVec 6)
  /-- SNE (R68): Writes 1 when a differs from b. -/
  | sne (s : Side) (d : BitVec 6) (a : BitVec 6) (b : BitVec 6)
  /-- MIN (R68): Signed minimum of a and b. -/
  | min (s : Side) (d : BitVec 6) (a : BitVec 6) (b : BitVec 6)
  /-- MAX (R68): Signed maximum of a and b. -/
  | max (s : Side) (d : BitVec 6) (a : BitVec 6) (b : BitVec 6)
  /-- MINU (R68): Unsigned minimum of a and b. -/
  | minu (s : Side) (d : BitVec 6) (a : BitVec 6) (b : BitVec 6)
  /-- MAXU (R68): Unsigned maximum of a and b. -/
  | maxu (s : Side) (d : BitVec 6) (a : BitVec 6) (b : BitVec 6)
  /-- SEL (R68): Writes a when the old value of d is nonzero, else b. -/
  | sel (s : Side) (d : BitVec 6) (a : BitVec 6) (b : BitVec 6)
  /-- ADDI (R69): Adds a sign-extended 12-bit immediate to a. -/
  | addi (s : Side) (d : BitVec 6) (a : BitVec 6) (i : BitVec 12)
  /-- ANDI (R69): ANDs a with a sign-extended immediate. -/
  | andi (s : Side) (d : BitVec 6) (a : BitVec 6) (i : BitVec 12)
  /-- ORI (R69): ORs a with a sign-extended immediate. -/
  | ori (s : Side) (d : BitVec 6) (a : BitVec 6) (i : BitVec 12)
  /-- XORI (R69): XORs a with a sign-extended immediate. -/
  | xori (s : Side) (d : BitVec 6) (a : BitVec 6) (i : BitVec 12)
  /-- SLTI (R69): Signed compare of a against an immediate. -/
  | slti (s : Side) (d : BitVec 6) (a : BitVec 6) (i : BitVec 12)
  /-- SLTIU (R69): Unsigned compare of a against a sign-extended immediate. -/
  | sltiu (s : Side) (d : BitVec 6) (a : BitVec 6) (i : BitVec 12)
  /-- SLLI (R70): Shifts a left by an immediate count. -/
  | slli (s : Side) (d : BitVec 6) (a : BitVec 6) (n : BitVec 6)
  /-- SRLI (R70): Logical right shift by an immediate count. -/
  | srli (s : Side) (d : BitVec 6) (a : BitVec 6) (n : BitVec 6)
  /-- SRAI (R70): Arithmetic right shift by an immediate count. -/
  | srai (s : Side) (d : BitVec 6) (a : BitVec 6) (n : BitVec 6)
  /-- BFX (R71): Extracts an unsigned bit field of a. -/
  | bfx (s : Side) (d : BitVec 6) (a : BitVec 6) (l : BitVec 6) (n : BitVec 6)
  /-- BFXS (R71): Extracts a signed bit field of a. -/
  | bfxs (s : Side) (d : BitVec 6) (a : BitVec 6) (l : BitVec 6) (n : BitVec 6)
  /-- MOVI (R72): Writes a sign-extended 18-bit immediate. -/
  | movi (s : Side) (d : BitVec 6) (i : BitVec 18)
  /-- MOVHI (R72): Replaces one 16-bit chunk of d with an immediate. -/
  | movhi (s : Side) (d : BitVec 6) (h : BitVec 2) (v : BitVec 16)
  /-- QMOV (R83): Moves one converted 4 KiB element between queues or registers. -/
  | qmov (s : Side) (d : BitVec 6) (a : BitVec 6)
  /-- QFLUSH (R84): Pads the producer's group with zero elements or retires a partly read head. -/
  | qflush (s : Side) (a : BitVec 6)
  /-- BPA (R74): A-side private conditional branch within the mark interval. -/
  | bpa (d : BitVec 6) (c : BitVec 6) (i : BitVec 12)
  /-- BPX (R74): X-side private conditional branch within the mark interval. -/
  | bpx (d : BitVec 6) (c : BitVec 6) (i : BitVec 12)
  /-- JMPI (R75): Jumps to a computed target, trapping outside the interval or on data. -/
  | jmpi (s : Side) (a : BitVec 6) (i : BitVec 12)
  /-- LDS (R86): Loads an 8-byte word through a token into an a-register or queue. -/
  | lds (k : BitVec 4) (d : BitVec 6) (o : BitVec 6) (i : BitVec 8)
  /-- STS (R86): Stores an 8-byte word through a token into the pending set. -/
  | sts (k : BitVec 4) (d : BitVec 6) (o : BitVec 6) (i : BitVec 8)
  /-- LDV (R197): Loads 16 rows through a token into a queue, stalling on slow classes. -/
  | ldv (k : BitVec 4) (d : BitVec 6) (o : BitVec 6) (i : BitVec 8)
  /-- STV (R197): Pops one element and stores it as 16 rows. -/
  | stv (k : BitVec 4) (d : BitVec 6) (o : BitVec 6) (i : BitVec 8)
  /-- LDQ (R197): Loads 16 rows into a queue without stalling A on slow classes. -/
  | ldq (k : BitVec 4) (d : BitVec 6) (o : BitVec 6) (i : BitVec 8)
  /-- STQ (R197): Pops and stores 16 rows without stalling on slow classes. -/
  | stq (k : BitVec 4) (d : BitVec 6) (o : BitVec 6) (i : BitVec 8)
  /-- LDG (R199): Gathers 1024 words by popped lane offsets and pushes them. -/
  | ldg (k : BitVec 4) (d : BitVec 6) (o : BitVec 6)
  /-- STG (R199): Scatters 1024 popped words to popped lane offsets. -/
  | stg (k : BitVec 4) (d : BitVec 6) (o : BitVec 6)
  /-- AADD (R200): Atomic add at home, returning the old value. -/
  | aadd (k : BitVec 4) (d : BitVec 6) (o : BitVec 6) (z : BitVec 1) (i : BitVec 7)
  /-- AMIN (R200): Atomic signed minimum at home. -/
  | amin (k : BitVec 4) (d : BitVec 6) (o : BitVec 6) (z : BitVec 1) (i : BitVec 7)
  /-- AMAX (R200): Atomic signed maximum at home. -/
  | amax (k : BitVec 4) (d : BitVec 6) (o : BitVec 6) (z : BitVec 1) (i : BitVec 7)
  /-- AAND (R200): Atomic AND at home. -/
  | aand (k : BitVec 4) (d : BitVec 6) (o : BitVec 6) (z : BitVec 1) (i : BitVec 7)
  /-- AOR (R200): Atomic OR at home. -/
  | aor (k : BitVec 4) (d : BitVec 6) (o : BitVec 6) (z : BitVec 1) (i : BitVec 7)
  /-- AXOR (R200): Atomic XOR at home. -/
  | axor (k : BitVec 4) (d : BitVec 6) (o : BitVec 6) (z : BitVec 1) (i : BitVec 7)
  /-- AXCHG (R200): Atomic exchange at home. -/
  | axchg (k : BitVec 4) (d : BitVec 6) (o : BitVec 6) (z : BitVec 1) (i : BitVec 7)
  /-- ACAS (R200): Atomic compare-and-swap against a(d+1). -/
  | acas (k : BitVec 4) (d : BitVec 6) (o : BitVec 6) (z : BitVec 1) (i : BitVec 7)
  /-- VAADD (R201): Per-lane atomic add, INT32 or FP32, in ascending lane order. -/
  | vaadd (k : BitVec 4) (d : BitVec 6) (o : BitVec 6) (f : BitVec 1)
  /-- VAOR (R201): Per-lane atomic OR of 32-bit elements. -/
  | vaor (k : BitVec 4) (d : BitVec 6) (o : BitVec 6)
  /-- VAMIN (R201): Per-lane atomic minimum, INT32 or FP32. -/
  | vamin (k : BitVec 4) (d : BitVec 6) (o : BitVec 6) (f : BitVec 1)
  /-- VAMAX (R201): Per-lane atomic maximum, INT32 or FP32. -/
  | vamax (k : BitVec 4) (d : BitVec 6) (o : BitVec 6) (f : BitVec 1)
  /-- TRANS (R193): Walks and pins a virtual extent and returns a token and granted length. -/
  | trans (k : BitVec 4) (d : BitVec 6) (o : BitVec 6) (p : BitVec 1) (w : BitVec 1)
  /-- TQRY (R194): Reads one property of the PET entry a token names. -/
  | tqry (k : BitVec 4) (d : BitVec 6) (s : BitVec 8)
  /-- KMOV (R195): Moves a handle between a k-register and an a-register. -/
  | kmov (k : BitVec 4) (d : BitVec 6) (r : BitVec 1)
  /-- RELQ (R196): Drains own entries through a token and frees its PET entry. -/
  | relq (k : BitVec 4)
  /-- NST_Q (R204): Pops n elements and stores them namelessly, returning a token. -/
  | nstQ (k : BitVec 4) (d : BitVec 6) (n : BitVec 8)
  /-- SBIND (R236): Reads a stream descriptor and binds it with a handle to a stream register. -/
  | sbind (u : BitVec 4) (v : BitVec 4) (a : BitVec 6)
  /-- SDROP (R236): Ends a stream binding and leaves any share group. -/
  | sdrop (u : BitVec 4)
  /-- COPY (R237): Releases the pending set and pushes a copy chain head, marking the completion register. -/
  | copy (a : BitVec 6) (b : BitVec 6)
  /-- COLL_RED (R238): Pushes a reduce collective. -/
  | collRed (u : BitVec 4) (a : BitVec 6) (b : BitVec 6)
  /-- COLL_AR (R238): Pushes an all-reduce collective. -/
  | collAr (u : BitVec 4) (a : BitVec 6) (b : BitVec 6)
  /-- COLL_GAT (R238): Pushes a gather collective. -/
  | collGat (u : BitVec 4) (a : BitVec 6) (b : BitVec 6)
  /-- COLL_BC (R238): Pushes a broadcast collective. -/
  | collBc (u : BitVec 4) (a : BitVec 6) (b : BitVec 6)
  /-- EWAIT (R239): A-side wait that claims a flag setter and stalls until it takes effect. -/
  | ewait (f : BitVec 8)
  /-- ESIG (R239): A-side setter placed behind the copy and collective queues. -/
  | esig (f : BitVec 8)
  /-- SPAWN (R144): Reads a continuation record, checks it and pushes it to a ready ring. -/
  | spawn (k : BitVec 4) (o : BitVec 6) (i : BitVec 8)
  /-- JOIN (R121): Drains stores, decrements a join counter at home and pushes its record at zero. -/
  | join (k : BitVec 4) (o : BitVec 6) (i : BitVec 8)
  /-- CYCRD (R277): Writes the package cycle count. -/
  | cycrd (s : Side) (d : BitVec 6)
  /-- TRAP (R278): Raises a program trap cause 0x80-0xFF, killing the kernel. -/
  | trap (s : Side) (c : BitVec 8)
  /-- RDS (R275): Reads a system register by number. -/
  | rds (s : Side) (d : BitVec 6) (r : BitVec 12)
  /-- WRS (R275): Writes a system register by number after side, number and value checks. -/
  | wrs (s : Side) (a : BitVec 6) (r : BitVec 12)
  /-- VADD (R128): FP32 add per active lane. -/
  | vadd (d : BitVec 6) (a : BitVec 6) (b : BitVec 6) (m : BitVec 3)
  /-- VSUB (R128): FP32 subtract per active lane. -/
  | vsub (d : BitVec 6) (a : BitVec 6) (b : BitVec 6) (m : BitVec 3)
  /-- VMUL (R128): FP32 multiply per active lane. -/
  | vmul (d : BitVec 6) (a : BitVec 6) (b : BitVec 6) (m : BitVec 3)
  /-- VMIN (R128): FP32 minimum per active lane. -/
  | vmin (d : BitVec 6) (a : BitVec 6) (b : BitVec 6) (m : BitVec 3)
  /-- VMAX (R128): FP32 maximum per active lane. -/
  | vmax (d : BitVec 6) (a : BitVec 6) (b : BitVec 6) (m : BitVec 3)
  /-- VABS (R128): Clears the sign bit per active lane. -/
  | vabs (d : BitVec 6) (a : BitVec 6) (m : BitVec 3)
  /-- VNEG (R128): Inverts the sign bit per active lane. -/
  | vneg (d : BitVec 6) (a : BitVec 6) (m : BitVec 3)
  /-- VMOV (R128): Copies lanes bit for bit. -/
  | vmov (d : BitVec 6) (a : BitVec 6) (m : BitVec 3)
  /-- VFMA (R129): Fused multiply-add into vd with one rounding. -/
  | vfma (d : BitVec 6) (a : BitVec 6) (b : BitVec 6) (m : BitVec 3)
  /-- VRCP (R130): Reciprocal per active lane. -/
  | vrcp (d : BitVec 6) (a : BitVec 6) (m : BitVec 3)
  /-- VRSQ (R130): Reciprocal square root per active lane. -/
  | vrsq (d : BitVec 6) (a : BitVec 6) (m : BitVec 3)
  /-- VEXP2 (R130): Base-2 exponential per active lane. -/
  | vexp2 (d : BitVec 6) (a : BitVec 6) (m : BitVec 3)
  /-- VLOG2 (R130): Base-2 logarithm per active lane. -/
  | vlog2 (d : BitVec 6) (a : BitVec 6) (m : BitVec 3)
  /-- VIADD (R131): 32-bit integer add per lane. -/
  | viadd (d : BitVec 6) (a : BitVec 6) (b : BitVec 6) (m : BitVec 3)
  /-- VISUB (R131): 32-bit integer subtract per lane. -/
  | visub (d : BitVec 6) (a : BitVec 6) (b : BitVec 6) (m : BitVec 3)
  /-- VIMUL (R131): 32-bit integer multiply per lane. -/
  | vimul (d : BitVec 6) (a : BitVec 6) (b : BitVec 6) (m : BitVec 3)
  /-- VIMIN (R131): 32-bit signed minimum per lane. -/
  | vimin (d : BitVec 6) (a : BitVec 6) (b : BitVec 6) (m : BitVec 3)
  /-- VIMAX (R131): 32-bit signed maximum per lane. -/
  | vimax (d : BitVec 6) (a : BitVec 6) (b : BitVec 6) (m : BitVec 3)
  /-- VSHL (R131): 32-bit left shift per lane. -/
  | vshl (d : BitVec 6) (a : BitVec 6) (b : BitVec 6) (m : BitVec 3)
  /-- VSHR (R131): 32-bit logical right shift per lane. -/
  | vshr (d : BitVec 6) (a : BitVec 6) (b : BitVec 6) (m : BitVec 3)
  /-- VSRA (R131): 32-bit arithmetic right shift per lane. -/
  | vsra (d : BitVec 6) (a : BitVec 6) (b : BitVec 6) (m : BitVec 3)
  /-- VIADD_H (R131): 16-bit integer add per element. -/
  | viaddH (d : BitVec 6) (a : BitVec 6) (b : BitVec 6) (m : BitVec 3)
  /-- VISUB_H (R131): 16-bit integer subtract per element. -/
  | visubH (d : BitVec 6) (a : BitVec 6) (b : BitVec 6) (m : BitVec 3)
  /-- VIMUL_H (R131): 16-bit integer multiply per element. -/
  | vimulH (d : BitVec 6) (a : BitVec 6) (b : BitVec 6) (m : BitVec 3)
  /-- VIMIN_H (R131): 16-bit signed minimum per element. -/
  | viminH (d : BitVec 6) (a : BitVec 6) (b : BitVec 6) (m : BitVec 3)
  /-- VIMAX_H (R131): 16-bit signed maximum per element. -/
  | vimaxH (d : BitVec 6) (a : BitVec 6) (b : BitVec 6) (m : BitVec 3)
  /-- VSHL_H (R131): 16-bit left shift per element. -/
  | vshlH (d : BitVec 6) (a : BitVec 6) (b : BitVec 6) (m : BitVec 3)
  /-- VSHR_H (R131): 16-bit logical right shift per element. -/
  | vshrH (d : BitVec 6) (a : BitVec 6) (b : BitVec 6) (m : BitVec 3)
  /-- VSRA_H (R131): 16-bit arithmetic right shift per element. -/
  | vsraH (d : BitVec 6) (a : BitVec 6) (b : BitVec 6) (m : BitVec 3)
  /-- VIADD_B (R131): 8-bit integer add per element. -/
  | viaddB (d : BitVec 6) (a : BitVec 6) (b : BitVec 6) (m : BitVec 3)
  /-- VISUB_B (R131): 8-bit integer subtract per element. -/
  | visubB (d : BitVec 6) (a : BitVec 6) (b : BitVec 6) (m : BitVec 3)
  /-- VIMUL_B (R131): 8-bit integer multiply per element. -/
  | vimulB (d : BitVec 6) (a : BitVec 6) (b : BitVec 6) (m : BitVec 3)
  /-- VIMIN_B (R131): 8-bit signed minimum per element. -/
  | viminB (d : BitVec 6) (a : BitVec 6) (b : BitVec 6) (m : BitVec 3)
  /-- VIMAX_B (R131): 8-bit signed maximum per element. -/
  | vimaxB (d : BitVec 6) (a : BitVec 6) (b : BitVec 6) (m : BitVec 3)
  /-- VSHL_B (R131): 8-bit left shift per element. -/
  | vshlB (d : BitVec 6) (a : BitVec 6) (b : BitVec 6) (m : BitVec 3)
  /-- VSHR_B (R131): 8-bit logical right shift per element. -/
  | vshrB (d : BitVec 6) (a : BitVec 6) (b : BitVec 6) (m : BitVec 3)
  /-- VSRA_B (R131): 8-bit arithmetic right shift per element. -/
  | vsraB (d : BitVec 6) (a : BitVec 6) (b : BitVec 6) (m : BitVec 3)
  /-- VIADD_S (R132): Saturating 32-bit add. -/
  | viaddS (d : BitVec 6) (a : BitVec 6) (b : BitVec 6) (m : BitVec 3)
  /-- VISUB_S (R132): Saturating 32-bit subtract. -/
  | visubS (d : BitVec 6) (a : BitVec 6) (b : BitVec 6) (m : BitVec 3)
  /-- VIADD_H_S (R132): Saturating 16-bit add. -/
  | viaddHS (d : BitVec 6) (a : BitVec 6) (b : BitVec 6) (m : BitVec 3)
  /-- VISUB_H_S (R132): Saturating 16-bit subtract. -/
  | visubHS (d : BitVec 6) (a : BitVec 6) (b : BitVec 6) (m : BitVec 3)
  /-- VIADD_B_S (R132): Saturating 8-bit add. -/
  | viaddBS (d : BitVec 6) (a : BitVec 6) (b : BitVec 6) (m : BitVec 3)
  /-- VISUB_B_S (R132): Saturating 8-bit subtract. -/
  | visubBS (d : BitVec 6) (a : BitVec 6) (b : BitVec 6) (m : BitVec 3)
  /-- VAND (R133): Bitwise AND per lane. -/
  | vand (d : BitVec 6) (a : BitVec 6) (b : BitVec 6) (m : BitVec 3)
  /-- VOR (R133): Bitwise OR per lane. -/
  | vor (d : BitVec 6) (a : BitVec 6) (b : BitVec 6) (m : BitVec 3)
  /-- VXOR (R133): Bitwise XOR per lane. -/
  | vxor (d : BitVec 6) (a : BitVec 6) (b : BitVec 6) (m : BitVec 3)
  /-- VANDN (R133): Bitwise AND NOT per lane. -/
  | vandn (d : BitVec 6) (a : BitVec 6) (b : BitVec 6) (m : BitVec 3)
  /-- VCVT (R135): Converts 1024 values between formats, BFP included. -/
  | vcvt (d : BitVec 6) (a : BitVec 6) (t : BitVec 4) (f : BitVec 4) (w : BitVec 4)
  /-- VCEQ (R136): FP32 equal compare into a mask. -/
  | vceq (d : BitVec 6) (a : BitVec 6) (b : BitVec 6) (m : BitVec 3)
  /-- VCNE (R136): FP32 not-equal compare into a mask. -/
  | vcne (d : BitVec 6) (a : BitVec 6) (b : BitVec 6) (m : BitVec 3)
  /-- VCLT (R136): FP32 less-than compare into a mask. -/
  | vclt (d : BitVec 6) (a : BitVec 6) (b : BitVec 6) (m : BitVec 3)
  /-- VCLE (R136): FP32 less-or-equal compare into a mask. -/
  | vcle (d : BitVec 6) (a : BitVec 6) (b : BitVec 6) (m : BitVec 3)
  /-- VCUN (R136): FP32 unordered compare into a mask. -/
  | vcun (d : BitVec 6) (a : BitVec 6) (b : BitVec 6) (m : BitVec 3)
  /-- VICEQ (R136): Integer equal compare into a mask. -/
  | viceq (d : BitVec 6) (a : BitVec 6) (b : BitVec 6) (m : BitVec 3)
  /-- VICNE (R136): Integer not-equal compare into a mask. -/
  | vicne (d : BitVec 6) (a : BitVec 6) (b : BitVec 6) (m : BitVec 3)
  /-- VICLT (R136): Signed less-than compare into a mask. -/
  | viclt (d : BitVec 6) (a : BitVec 6) (b : BitVec 6) (m : BitVec 3)
  /-- VICLE (R136): Signed less-or-equal compare into a mask. -/
  | vicle (d : BitVec 6) (a : BitVec 6) (b : BitVec 6) (m : BitVec 3)
  /-- VICLTU (R136): Unsigned less-than compare into a mask. -/
  | vicltu (d : BitVec 6) (a : BitVec 6) (b : BitVec 6) (m : BitVec 3)
  /-- VICLEU (R136): Unsigned less-or-equal compare into a mask. -/
  | vicleu (d : BitVec 6) (a : BitVec 6) (b : BitVec 6) (m : BitVec 3)
  /-- MAND (R137): Mask AND. -/
  | mand (d : BitVec 6) (a : BitVec 6) (b : BitVec 6)
  /-- MOR (R137): Mask OR. -/
  | mor (d : BitVec 6) (a : BitVec 6) (b : BitVec 6)
  /-- MXOR (R137): Mask XOR. -/
  | mxor (d : BitVec 6) (a : BitVec 6) (b : BitVec 6)
  /-- MANDN (R137): Mask AND NOT. -/
  | mandn (d : BitVec 6) (a : BitVec 6) (b : BitVec 6)
  /-- MNOT (R137): Mask NOT. -/
  | mnot (d : BitVec 6) (a : BitVec 6)
  /-- VSEL (R138): Selects lanes of va or vb by a mask. -/
  | vsel (d : BitVec 6) (a : BitVec 6) (b : BitVec 6) (m : BitVec 3)
  /-- VBCAST (R138): Broadcasts the low 32 bits of a scalar to every active lane. -/
  | vbcast (d : BitVec 6) (a : BitVec 6) (m : BitVec 3)
  /-- VLID (R138): Writes the lane index to each active lane. -/
  | vlid (d : BitVec 6) (m : BitVec 3)
  /-- VROTM (R139): Takes 4 KiB at a byte rotation from the pair va, vb. -/
  | vrotm (d : BitVec 6) (a : BitVec 6) (b : BitVec 6) (s : BitVec 6)
  /-- VPERM (R140): Permutes lanes of va by indices in vb. -/
  | vperm (d : BitVec 6) (a : BitVec 6) (b : BitVec 6) (m : BitVec 3)
  /-- VZIPL (R140): Interleaves the low halves of va and vb. -/
  | vzipl (d : BitVec 6) (a : BitVec 6) (b : BitVec 6) (m : BitVec 3)
  /-- VZIPH (R140): Interleaves the high halves of va and vb. -/
  | vziph (d : BitVec 6) (a : BitVec 6) (b : BitVec 6) (m : BitVec 3)
  /-- VRADD (R141): Fixed-tree FP32 sum of active lanes into lane 0. -/
  | vradd (d : BitVec 6) (a : BitVec 6) (m : BitVec 3)
  /-- VRMAX (R141): Maximum of active lanes into lane 0. -/
  | vrmax (d : BitVec 6) (a : BitVec 6) (m : BitVec 3)
  /-- VRMIN (R141): Minimum of active lanes into lane 0. -/
  | vrmin (d : BitVec 6) (a : BitVec 6) (m : BitVec 3)
  /-- DEFER (R142): Appends masked lanes and their values to the deferral queue. -/
  | defer (a : BitVec 6) (n : BitVec 6) (m : BitVec 3)
  /-- DRAIN (R143): Moves 1024 oldest deferral entries into registers when enough are present. -/
  | drain (d : BitVec 6) (n : BitVec 6) (l : BitVec 6)
  /-- DRAIN_F (R143): Moves up to 1024 deferral entries and writes a mask of filled lanes. -/
  | drainF (d : BitVec 6) (n : BitVec 6) (l : BitVec 6) (m : BitVec 3)
  /-- PREC (R243): Queues a change of a tile's operand widths. -/
  | prec (z : BitVec 3) (a : BitVec 4) (b : BitVec 4)
  /-- MCLR (R244): Queues a clear of a tile. -/
  | mclr (z : BitVec 3)
  /-- MMUL (R245): Checks and pushes a dense block-floating-point matrix product. -/
  | mmul (z : BitVec 3) (a : BitVec 4) (b : BitVec 4) (s : BitVec 6)
  /-- MMULS (R245): Checks and pushes a 2:4 sparse matrix product. -/
  | mmuls (z : BitVec 3) (a : BitVec 4) (b : BitVec 4) (s : BitVec 6)
  /-- MLD (R247): Queues a load of a tile from a stream. -/
  | mld (z : BitVec 3) (s : BitVec 4)
  /-- MST (R248): Queues a drain of a tile to a write stream. -/
  | mst (z : BitVec 3) (s : BitVec 4) (f : BitVec 4) (h : BitVec 1)
  /-- MST_Q (R248): Queues a drain of a tile to a queue. -/
  | mstQ (z : BitVec 3) (f : BitVec 4) (q : BitVec 6) (h : BitVec 1)
  /-- LEASE (R240): Acquires or waits for the quad's array lease. -/
  | lease
  /-- UNLEASE (R241): Waits for the task's array commands and gives up the lease. -/
  | unlease
  /-- HIST_CLR (R250): Queues a clear of the Accord histogram. -/
  | histClr
  /-- HIST_RD (R250): Queues a push of the histogram bins to a queue. -/
  | histRd (q : BitVec 6)
  /-- EWAIT_X (R239): X-side wait that claims a flag setter and stalls until it takes effect. -/
  | ewaitX (f : BitVec 8)
  /-- ESIG_X (R239): X-side setter placed behind the matrix queue. -/
  | esigX (f : BitVec 8)
  /-- B (R76): Unconditional branch executed by both sequencers. -/
  | b (o : BitVec 24)
  /-- BRX (R77): X evaluates a condition and pushes the outcome; both follow it. -/
  | brx (d : BitVec 6) (c : BitVec 6) (i : BitVec 12)
  /-- BRA (R77): A evaluates a condition and pushes the outcome; both follow it. -/
  | bra (d : BitVec 6) (c : BitVec 6) (i : BitVec 12)
  /-- CALL (R78): Pushes the return offset, spilling if full, and branches. -/
  | call (o : BitVec 24)
  /-- RET (R78): Pops a return offset, refilling from spill, and resumes. -/
  | ret
  /-- LOOP (R81): Sets up a hardware loop with an immediate count. -/
  | loop (d : BitVec 6) (n : BitVec 6) (e : BitVec 12)
  /-- LOOP_S (R81): Sets up a hardware loop with a count from an s-register owned by X. -/
  | loopS (d : BitVec 6) (s : BitVec 6) (e : BitVec 12)
  /-- LOOP_A (R81): Sets up a hardware loop with a count from an a-register owned by A. -/
  | loopA (d : BitVec 6) (a : BitVec 6) (e : BitVec 12)
  /-- BAR (R146): Arrives at a barrier of a scope, optionally waiting for pending bytes. -/
  | bar (s : BitVec 3) (w : BitVec 1) (a : BitVec 6)
  /-- PHASE (R177): Arrives at a barrier and publishes non-private pending stores. -/
  | phase (s : BitVec 3) (w : BitVec 1) (a : BitVec 6)
  /-- NST (R203): Hands vector register images to a nameless store and returns a token. -/
  | nst (k : BitVec 4) (d : BitVec 6) (n : BitVec 8)
  /-- TEND (R145): Waits for engine work, loads and stores, then ends the task. -/
  | tend
  /-- YCHK (R279): Branches on both sides when a yield request is pending. -/
  | ychk (o : BitVec 24)
  /-- YIELD (R280): Drains, pushes a continuation record and ends the task. -/
  | yield (k : BitVec 4) (o : BitVec 6)
  /-- HALT (R282): Ends the task, stopping unacquired engine work. -/
  | halt
  /-- ILLEGAL_INSTRUCTION (R48): A sequencer reaches a word that is not an assigned instruction with legal fields and raises 0x01. -/
  | illegalInstruction
  /-- EXECUTE_DATA (R16): A sequencer reaches a non-executable word or passes the text end and raises 0x02. -/
  | executeData
  /-- QUEUE_DEADLOCK (R31): After 65,536 blocked cycles with no activity the core raises 0x04. -/
  | queueDeadlock (core : Nat)
  /-- PENDING_ENTRY_DRAIN (R174): One pending store entry of a task is written home. -/
  | pendingEntryDrain (core i : Nat)
  /-- LOAD_READ_STEP (R175): A load reads one row from its task's newest entries or home. -/
  | loadReadStep (core i : Nat)
  /-- LOAD_DATA_ARRIVAL (R87): Load data arrives and is written to its register or reserved queue slot. -/
  | loadDataArrival (core i : Nat)
  /-- ATOMIC_STEP (R176): A scalar atomic drains its row, reads, writes home and returns the old value. -/
  | atomicStep (core i : Nat)
  /-- VECTOR_ATOMIC_LANE_STEP (R201): One lane of a vector atomic takes its step at home. -/
  | vectorAtomicLaneStep (core : Nat)
  /-- FAULT_COMPLETE (R264): System software completes a fault and the record returns to its ring head. -/
  | faultComplete (part i : Nat)
  /-- FAULT_FAIL (R264): System software fails a fault and the kernel is killed with 0x12. -/
  | faultFail (part i : Nat)
  /-- FORCED_SAVE (R265): At the yield deadline the core starts the save sequence. -/
  | forcedSave (core : Nat)
  /-- SAVE_COMPLETE (R262): The image is written and the core is freed, returning the record with IMG = 1. -/
  | saveComplete (core : Nat)
  /-- CONTEXT_RESTORE (R267): A context image is read into a core and the task resumes. -/
  | contextRestore (core : Nat)
  /-- TASK_LAUNCH (R33): A task starts from its continuation record with the launch state. -/
  | taskLaunch (core : Nat)
  /-- DISPATCH_CHOICE (R116): For an idle core or empty shadow slot the dispatcher chooses a record. -/
  | dispatchChoice (core : Nat)
  /-- OTHER_DIE_TAKE (R116): After 2,048 cycles without candidate an idle core takes a record from another die. -/
  | otherDieTake (core : Nat)
  /-- PROMOTION (R114): A record waiting beyond AGE.CYCLES moves to the ring one level higher. -/
  | promotion (i : Nat)
  /-- TEAM_CLAIM (R118): An unplaced team record claims a rectangle after MIGT/2 cycles. -/
  | teamClaim (i : Nat)
  /-- TEAM_CLAIM_START (R118): A claimed team starts once every claimed core is idle. -/
  | teamClaimStart (i : Nat)
  /-- MIGRATION_OFFER (R292): At MIGT a team record's claim is released and it is offered to other dies. -/
  | migrationOffer (i : Nat)
  /-- ADVERTISEMENT (R291): A die advertises its team placements to the partition. -/
  | advertisement (a : AdvertIn)
  /-- MIGRATION_ACCEPT (R293): A receiving die accepts or declines an offer against its state. -/
  | migrationAccept (a : AcceptIn)
  /-- MIGRATION (R293): A migration message delivers a record and images, placed at the ring head. -/
  | migration (m : MigrationIn)
  /-- MIGRATION_ACK (R293): The target's acknowledgement lets the origin remove its copy. -/
  | migrationAck (i : Nat)
  /-- KERNEL_DEATH (R268): The front end stops all tasks of a killed kernel, discards its work and frees its entries. -/
  | kernelDeath (kid : Nat)
  /-- KILL (R290): A kill message makes a package stop and discard a kernel's tasks. -/
  | kill (kid : Nat)
  /-- KILL_ACK_TIMEOUT (R290): A package that does not acknowledge a kill within 10 ms is treated as failed. -/
  | killAckTimeout (kid pkg : Nat)
  /-- REMOTE_ACCESS (R288): A remote access message performs an access at the remote home. -/
  | remoteAccess (part : Nat) (op : RemoteOp)
  /-- COUNT (R185): A count message adds written bytes to a receiving task's PB. -/
  | count (uid n : Nat)
  /-- CONTRIBUTION (R231): A collective contribution arrives at the instance. -/
  | contribution (c : ContribIn)
  /-- ARRIVAL (R148): An arrival message counts a member at a .P or .X barrier instance. -/
  | arrival (group member : Nat) (a : ArrivalIn)
  /-- STOLOLAYR_WAKE (R307): A wake message from a peer package reaches a wake register. -/
  | stololayrWake (part reg : Nat) (value : BitVec 64)
  /-- BARRIER_COMPLETION (R148): A barrier instance completes, releasing members and applying PB. -/
  | barrierCompletion (core : Nat)
  /-- COLLECTIVE_TIMER_ABORT (R296): A .P or .X instance's timer reaches COLT and the instance is aborted. -/
  | collectiveTimerAbort (group : Nat) (sc : Scope) (a : AbortIn)
  /-- COLLECTIVE_COMPLETION (R231): A collective instance combines contributions and writes destinations and completion. -/
  | collectiveCompletion (i : Nat)
  /-- CHAIN_START (R214): The copy engine starts the next queued chain. -/
  | chainStart (core : Nat)
  /-- CHAIN_COPY (R215): The engine reads a COPY entry and its SHAPE entries. -/
  | chainCopy (core : Nat)
  /-- COPY_TRANSACTION (R216): One copy transaction checks tokens, reads sources and writes a destination row. -/
  | copyTransaction (core : Nat)
  /-- CHAIN_LOOP (R217): A LOOP entry repeats its body until COUNT passes. -/
  | chainLoop (core : Nat)
  /-- CHAIN_COND (R217): A COND entry skips entries by the state of a flag. -/
  | chainCond (core : Nat)
  /-- CHAIN_SIGNAL (R223): A SIGNAL entry pushes a setter for its flag. -/
  | chainSignal (core : Nat)
  /-- CHAIN_WAIT (R223): A WAIT entry claims a setter and holds the chain. -/
  | chainWait (core : Nat)
  /-- CHAIN_END (R217): END completes the chain and writes 0 to the completion register. -/
  | chainEnd (core : Nat)
  /-- SETTER_TAKES_EFFECT (R223): A flag setter takes effect, raising DONE and releasing waits. -/
  | setterTakesEffect (uid i : Nat)
  /-- SHARE_GROUP_TIMEOUT (R222): A share group not started 65,536 cycles after its first bind raises 0x24. -/
  | shareGroupTimeout (i : Nat)
  /-- ARRAY_COMMAND_START (R229): An MMUL or MMULS reaches the queue head with the lease and starts, clearing if CLR. -/
  | arrayCommandStart (core : Nat)
  /-- ARRAY_STEP (R228): One array step accumulates its K-blocks and charges the budget. -/
  | arrayStep (core : Nat)
  /-- ARRAY_COMMAND_END (R224): An array command completes and the lease is re-arbitrated. -/
  | arrayCommandEnd (core : Nat)
  /-- PREC_AT_HEAD (R243): A queued PREC writes ZPWz. -/
  | precAtHead (core : Nat)
  /-- MCLR_AT_HEAD (R244): A queued MCLR clears the tile. -/
  | mclrAtHead (core : Nat)
  /-- MLD_AT_HEAD (R247): A queued MLD loads the tile from its stream. -/
  | mldAtHead (core : Nat)
  /-- MST_AT_HEAD (R248): A queued MST drains the tile to a write stream. -/
  | mstAtHead (core : Nat)
  /-- MST_ELEMENT_PUSH (R249): An MST to a queue pushes one drained element when a slot is free. -/
  | mstElementPush (core : Nat)
  /-- HIST_CLR_AT_HEAD (R250): A queued HIST.CLR zeroes the histogram. -/
  | histClrAtHead (core : Nat)
  /-- HIST_RD_AT_HEAD (R250): A queued HIST.RD pushes the bins to its queue. -/
  | histRdAtHead (core : Nat)
  /-- REVOCATION_REQUEST (R164): System software moves an ACTIVE entry to QUIESCING. -/
  | revocationRequest (ctx entry : Nat)
  /-- ENTRY_HELD (R164): A QUIESCING entry's INFL reaches 0 and it becomes HELD. -/
  | entryHeld (ctx entry : Nat)
  /-- REFRESH (R164): A HELD entry takes a new frame list and releases held accesses. -/
  | refresh (ctx entry : Nat) (frames : List Nat)
  /-- ENTRY_KILL (R164): A HELD entry becomes DEAD and event 0x41 is posted. -/
  | entryKill (ctx entry : Nat)
  /-- ENTRY_FREED (R164): A FREEING entry's INFL reaches 0 and it becomes FREE or QUARANTINED. -/
  | entryFreed (ctx entry : Nat)
  /-- PWC_INVALIDATE (R158): System software invalidates the page-walk cache. -/
  | pwcInvalidate (ctx : Nat)
  /-- HMASK_SET (R167): System software sets a stack's channel hash masks, rejected while frames are pinned. -/
  | hmaskSet (stack : Nat) (masks : List (BitVec 64))
  /-- DLB_WRITE (R321): A write of DLB sets the dirty log ring and resets HEAD and TAIL. -/
  | dlbWrite (part : Nat) (value : BitVec 64)
  /-- DLT_WRITE (R322): A TAIL write makes room and held writes append in order. -/
  | dltWrite (part : Nat) (value : BitVec 64)
  /-- DLX_CLEAR (R322): Clearing DLX.FULL re-enables the exit event. -/
  | dlxClear (part : Nat) (value : BitVec 64)
  /-- SCRUB_READ (R172): The patrol scrubber reads a granule and clears its written flag. -/
  | scrubRead (granule : Nat) (corrected : Bool)
  /-- SCRUB_WRITE_BACK (R172): The scrubber writes corrected data back only if the flag is still clear. -/
  | scrubWriteBack (granule : Nat)
  /-- QUEUE_TAIL_WRITE (R301): The host writes a command queue's tail, allowing prefetch. -/
  | queueTailWrite (queue tail : Nat)
  /-- PACKET_READ (R303): The front end reads one 64-byte command block in one step. -/
  | packetRead (queue : Nat)
  /-- LOAD (R304): Loads a code object, scans and checks it, and returns a kernel id. -/
  | load (queue : Nat) (req : LoadRequest)
  /-- LAUNCH (R305): Checks and pushes COUNT records as one launch group. -/
  | launch (queue : Nat) (req : LaunchRequest)
  /-- WAKE (R301): Wakes a registered graph from a command queue. -/
  | wake (queue : Nat) (handle : BitVec 32)
  /-- INDIRECT (R302): Makes the packets of a host buffer take effect in place. -/
  | indirect (queue addr len : Nat)
  /-- FENCE (R303): Takes effect once earlier packets and their launch groups have ended. -/
  | fence (queue : Nat)
  /-- REGISTER (R308): Checks a graph descriptor and returns a graph handle. -/
  | register (queue : Nat) (desc : GraphDesc)
  /-- UNREGISTER (R308): Waits for a graph's runs to end and retires its handle. -/
  | unregister (queue : Nat) (handle : BitVec 32)
  /-- UNKNOWN_COMMAND (R301): A packet with an unassigned opcode halts its queue with status 0x10. -/
  | unknownCommand (queue : Nat)
  /-- QUEUE_RESET (R301): The host resets a halted command queue. -/
  | queueReset (queue : Nat)
  /-- WAKE_REGISTER_WRITE (R306): A write of a bound graph's handle queues a wake; other values are counted. -/
  | wakeRegisterWrite (part reg : Nat) (value : BitVec 64)
  /-- RUN_START (R309): A graph node run starts, consuming items and pushing its launch group. -/
  | runStart (graph node : Nat)
  /-- RUN_END (R309): A node run ends, adding items to outgoing edges and freeing incoming capacity. -/
  | runEnd (graph node : Nat)
  /-- LOOP_NODE_PASS (R310): A loop node runs its body again until its trip count. -/
  | loopNodePass (graph node : Nat)
  /-- CONDITIONAL_NODE_READ (R310): A conditional node reads its word and enables one successor. -/
  | conditionalNodeRead (graph node : Nat)
  /-- RECORD_COPY (R312): A record is copied from the record area to the host's event ring. -/
  | recordCopy (kid : Nat)
  /-- TENANT_SLICE_END (R269): A partition leaves the in-slice set and its tasks receive WHY = 1 requests. -/
  | tenantSliceEnd (part : Nat)
  /-- TENANT_SLICE_OPEN (R115): A partition's slice opens and its records become dispatchable. -/
  | tenantSliceOpen (part : Nat)
  /-- QUOTA_WINDOW (R317): A new quota window starts and use counts return to zero. -/
  | quotaWindow (part : Nat)
  /-- DESCHEDULE (R318): Stops the queues, closes the slice and waits for tasks to end or be saved. -/
  | deschedule (part : Nat)
  /-- RESCHEDULE (R318): Opens the slice, restarts queues and restamps waiting records. -/
  | reschedule (part : Nat)
  /-- PAUSE (R318): Deschedules the device and writes a migration image. -/
  | pause (part : Nat)
  /-- MIGRATION_IMAGE_RESTORE (R318): Restores a virtual device from its migration image as DESCHEDULED. -/
  | migrationImageRestore (i : Nat)
  /-- VIRTUAL_DEVICE_RESET (R319): Empties the virtual device and raises its incarnation. -/
  | virtualDeviceReset (part : Nat)
  /-- OWNERSHIP_CHANGE (R313): System software assigns resources to a paused partition. -/
  | ownershipChange (part : Nat) (own : Ownership)
  /-- PARAMETER_REGISTER_WRITE (R316): A write by system software or the host to a register without a row of its own, rejected out of range. -/
  | parameterRegisterWrite (reg : ParamReg) (value : BitVec 64)
  /-- MODULE_RESET (R324): The module resets and enters VERIFY. -/
  | moduleReset
  /-- VERIFY_COMPLETE (R331): The security block accepts or rejects the Treltal image, entering REDUCED or RECOVERY. -/
  | verifyComplete
  /-- RECOVERY_IMAGE (R324): Host-facing port 0 accepts a new image in RECOVERY. -/
  | recoveryImage (file : ImageFile)
  /-- TRAINING_COMPLETE (R324): All HBM stacks finish training and the device moves to FULL. -/
  | trainingComplete (failed : List Nat)
  /-- POWER_STATE_CHANGE (R326): The host sets a core die's power state, subject to rejection. -/
  | powerStateChange (die : Nat) (st : PowerState)
  /-- CLOCK_COMMAND (R327): The host commands an arithmetic clock frequency. -/
  | clockCommand (mhz : Nat)
  /-- CLOCK_CHANGE (R327): A commanded clock change takes effect at a cycle boundary. -/
  | clockChange
  /-- THERMAL_TRIP (R328): A sensor reaches the trip: the clock drops, or in locked mode kernels die with 0x60. -/
  | thermalTrip (die temp : Nat)
  /-- THERMAL_RECOVERY (R328): Sensors cool 5 °C below the trip and dispatch resumes. -/
  | thermalRecovery (temps : List Nat)
  /-- LOCKED_CLOCK_ENTER (R329): The host enters locked-clock mode once no task runs. -/
  | lockedClockEnter
  /-- LOCKED_CLOCK_LEAVE (R329): The host leaves locked-clock mode. -/
  | lockedClockLeave
  /-- UNCORRECTABLE_ERROR (R330): A check point finds an error; an uncorrectable one stops the package's kernels and fails the package. -/
  | uncorrectableError (e : ErrorReport)
  /-- COMMIT (R331): Raises the fused security counter to the running image's version. -/
  | commit
  /-- ATTESTATION_REPORT (R332): The security block signs a report of image, counter, stage and partition table. -/
  | attestationReport (nonce : BitVec 256)
  /-- HEARTBEAT (R298): A heartbeat arrives on the fabric ports. -/
  | heartbeat (pkg : Nat)
  /-- HEARTBEAT_TIMEOUT (R298): Eight missed heartbeats mark a package failed. -/
  | heartbeatTimeout (pkg : Nat)
  /-- CHECKPOINT (R297): System software checkpoints images and ranges at a PHASE.X completion. -/
  | checkpoint (part : Nat) (ranges : List (Nat × Nat))
  /-- PACKAGE_RECOVERY (R298): A spare takes a failed package's place and the partition resumes from its checkpoint. -/
  | packageRecovery (part pkg : Nat)
  /-- KILL_ACKNOWLEDGEMENT (R290): A package's acknowledgement of a kill message reaches the trapping package, which writes the death record once every package has acknowledged. -/
  | killAcknowledgement (kid pkg : Nat)
  /-- PARTITION_CREATION (R113): System software creates a partition and sets the capacity of each of its ready rings. -/
  | partitionCreation (req : PartitionRequest)
  /-- PARTITION_DESTRUCTION (R116): System software destroys a partition, and every round-robin pointer that names it returns to naming no partition. -/
  | partitionDestruction (part : Nat)
  /-- CONTEXT_CREATION (R160): System software creates a context and its address space, with every PET generation at 0. -/
  | contextCreation (req : ContextRequest)
  /-- CONTEXT_DESTRUCTION (R162): Destruction of a context's address space frees every PET entry, quarantined ones included, resets generations and unloads its kernel ids. -/
  | contextDestruction (ctx : Nat)
  /-- ENTRY_TO_ACTIVE (R326): A core die that was PARKED or OFF completes its entry to ACTIVE (after 50 µs, or after 2 ms and the training of its stack) and dispatch resumes there. -/
  | entryToActive (die : Nat)
  /-- EVENT_RING_DRAIN (R312): The host drains its event ring for a kernel, letting records held in the record area be copied again. -/
  | eventRingDrain (kid : Nat)
deriving DecidableEq, Repr

/-- Whose turn it is (log 1): a sequencer of a core issues, the clock ticks, or another agent takes its step. -/
inductive Turn where
  | issue (core : Nat) (side : Side)
  | tick
  | event (i : Instr)
deriving DecidableEq, Repr

end Sys2Proof
end

