-- ==== Sys2Proof/WellFormed.lean ====
section
/-! DEFINITION. Which instructions are well formed: the operand spaces, queue directions and limits of R23 and R39 to R46 that an
instruction's own fields decide (R48); for the other steps, that the place they name exists (R2). What PARTW decides (R22) is
checked where an instruction executes. -/
namespace Sys2Proof

/-- A register number of a 6-bit field, 0 to 31 (R39). -/
def isReg (f : BitVec 6) : Bool := decide (f.toNat < 32)
/-- q0 to q3 as operand numbers (R23). -/
def isQueueLow (f : BitVec 6) : Bool := decide (32 ≤ f.toNat) && decide (f.toNat < 36)
/-- q4 to q7 as operand numbers (R23). -/
def isQueueHigh (f : BitVec 6) : Bool := decide (36 ≤ f.toNat) && decide (f.toNat < 40)
/-- Any queue operand. -/
def isQueue (f : BitVec 6) : Bool := isQueueLow f || isQueueHigh f
/-- A source in the scalar space of a side: a register, or a queue that side pops (R23, R39). -/
def isScalarSrc (s : Side) (f : BitVec 6) : Bool :=
  isReg f || (match s with | .a => isQueueHigh f | .x => isQueueLow f)
/-- A destination in the scalar space of a side: a register, or a queue that side pushes (R23, R39). -/
def isScalarDst (s : Side) (f : BitVec 6) : Bool :=
  isReg f || (match s with | .a => isQueueLow f | .x => isQueueHigh f)
/-- A source in the vector space, which X alone uses (R39). -/
def isVectorSrc (f : BitVec 6) : Bool := isScalarSrc .x f
/-- A destination in the vector space. -/
def isVectorDst (f : BitVec 6) : Bool := isScalarDst .x f
/-- A mask register in a 6-bit field (R39). -/
def isMask (f : BitVec 6) : Bool := decide (f.toNat < 8)
/-- An assigned condition code (R41). -/
def isCond (c : BitVec 6) : Bool := decide (c.toNat < 6)
/-- A token register that may be written: not k0 (R22). -/
def isTokenDst (k : BitVec 4) : Bool := k != 0#4
/-- A count from 1 to 8 (R43, R46). -/
def isCount8 (n : BitVec 8) : Bool := decide (1 ≤ n.toNat) && decide (n.toNat ≤ 8)
/-- The legal code and width fields of VCVT (R45). -/
def isCvt (t f w : BitVec 4) : Bool :=
  let ok (c : BitVec 4) := decide (1 ≤ c.toNat) && decide (c.toNat ≤ 9)
  ok t && ok f && (if t = 9#4 then f != 9#4 && w != 0#4 else if f = 9#4 then w != 0#4 else w == 0#4)

/-- The operand and limit rules an instruction's own fields decide (R39 to R46). -/
def wellFormed : Instr → Bool
  | .add s d a b => isScalarDst s d && isScalarSrc s a && isScalarSrc s b
  | .sub s d a b => isScalarDst s d && isScalarSrc s a && isScalarSrc s b
  | .and s d a b => isScalarDst s d && isScalarSrc s a && isScalarSrc s b
  | .or s d a b => isScalarDst s d && isScalarSrc s a && isScalarSrc s b
  | .xor s d a b => isScalarDst s d && isScalarSrc s a && isScalarSrc s b
  | .sll s d a b => isScalarDst s d && isScalarSrc s a && isScalarSrc s b
  | .srl s d a b => isScalarDst s d && isScalarSrc s a && isScalarSrc s b
  | .sra s d a b => isScalarDst s d && isScalarSrc s a && isScalarSrc s b
  | .mul s d a b => isScalarDst s d && isScalarSrc s a && isScalarSrc s b
  | .mulh s d a b => isScalarDst s d && isScalarSrc s a && isScalarSrc s b
  | .mulhu s d a b => isScalarDst s d && isScalarSrc s a && isScalarSrc s b
  | .clz s d a => isScalarDst s d && isScalarSrc s a
  | .slt s d a b => isScalarDst s d && isScalarSrc s a && isScalarSrc s b
  | .sltu s d a b => isScalarDst s d && isScalarSrc s a && isScalarSrc s b
  | .seq s d a b => isScalarDst s d && isScalarSrc s a && isScalarSrc s b
  | .sne s d a b => isScalarDst s d && isScalarSrc s a && isScalarSrc s b
  | .min s d a b => isScalarDst s d && isScalarSrc s a && isScalarSrc s b
  | .max s d a b => isScalarDst s d && isScalarSrc s a && isScalarSrc s b
  | .minu s d a b => isScalarDst s d && isScalarSrc s a && isScalarSrc s b
  | .maxu s d a b => isScalarDst s d && isScalarSrc s a && isScalarSrc s b
  | .sel s d a b => isReg d && isScalarSrc s a && isScalarSrc s b
  | .addi s d a _ => isScalarDst s d && isScalarSrc s a
  | .andi s d a _ => isScalarDst s d && isScalarSrc s a
  | .ori s d a _ => isScalarDst s d && isScalarSrc s a
  | .xori s d a _ => isScalarDst s d && isScalarSrc s a
  | .slti s d a _ => isScalarDst s d && isScalarSrc s a
  | .sltiu s d a _ => isScalarDst s d && isScalarSrc s a
  | .slli s d a _ => isScalarDst s d && isScalarSrc s a
  | .srli s d a _ => isScalarDst s d && isScalarSrc s a
  | .srai s d a _ => isScalarDst s d && isScalarSrc s a
  | .bfx s d a l n => isScalarDst s d && isScalarSrc s a && l.toNat + n.toNat + 1 ≤ 64
  | .bfxs s d a l n => isScalarDst s d && isScalarSrc s a && l.toNat + n.toNat + 1 ≤ 64
  | .movi s d _ => isScalarDst s d
  | .movhi _ d _ _ => isReg d
  | .qmov s d a => match s with | .a => isQueueLow d && isQueueHigh a | .x => isVectorDst d && isVectorSrc a
  | .qflush _ a => isQueue a
  | .bpa d c _ => isScalarSrc .a d && isCond c
  | .bpx d c _ => isScalarSrc .x d && isCond c
  | .jmpi s a _ => isScalarSrc s a
  | .lds _ d o _ => (isReg d || isQueueLow d) && isReg o
  | .sts _ d o _ => (isReg d || isQueueHigh d) && isReg o
  | .ldv _ d o _ => isQueueLow d && isReg o
  | .stv _ d o _ => isQueueHigh d && isReg o
  | .ldq _ d o _ => isQueueLow d && isReg o
  | .stq _ d o _ => isQueueHigh d && isReg o
  | .ldg _ d o => isQueueLow d && isQueueHigh o
  | .stg _ d o => isQueueHigh d && isQueueHigh o
  | .aadd _ d o _ _ => isReg d && isReg o
  | .amin _ d o _ _ => isReg d && isReg o
  | .amax _ d o _ _ => isReg d && isReg o
  | .aand _ d o _ _ => isReg d && isReg o
  | .aor _ d o _ _ => isReg d && isReg o
  | .axor _ d o _ _ => isReg d && isReg o
  | .axchg _ d o _ _ => isReg d && isReg o
  | .acas _ d o _ _ => decide (d.toNat < 31) && isReg o
  | .vaadd _ d o _ => isQueueHigh d && isQueueHigh o
  | .vaor _ d o => isQueueHigh d && isQueueHigh o
  | .vamin _ d o _ => isQueueHigh d && isQueueHigh o
  | .vamax _ d o _ => isQueueHigh d && isQueueHigh o
  | .trans k d o _ _ => isTokenDst k && isReg d && isReg o
  | .tqry _ d s => isReg d && decide (s.toNat < 4)
  | .kmov k d r => isReg d && (r == 1#1 || isTokenDst k)
  | .relq _ => true
  | .nstQ k d n => isTokenDst k && isQueueHigh d && isCount8 n
  | .sbind _ _ a => isReg a
  | .sdrop _ => true
  | .copy a b => isReg a && isReg b
  | .collRed u a b => decide (u.toNat < 5) && isReg a && isReg b
  | .collAr u a b => decide (u.toNat < 5) && isReg a && isReg b
  | .collGat u a b => decide (u.toNat < 5) && isReg a && isReg b
  | .collBc u a b => decide (u.toNat < 5) && isReg a && isReg b
  | .ewait _ => true
  | .esig _ => true
  | .spawn _ o _ => isReg o
  | .join _ o _ => isReg o
  | .cycrd s d => isScalarDst s d
  | .trap _ c => decide (0x80 ≤ c.toNat)
  | .rds s d _ => isScalarDst s d
  | .wrs s a _ => isScalarSrc s a
  | .vadd d a b _ => isVectorDst d && isVectorSrc a && isVectorSrc b
  | .vsub d a b _ => isVectorDst d && isVectorSrc a && isVectorSrc b
  | .vmul d a b _ => isVectorDst d && isVectorSrc a && isVectorSrc b
  | .vmin d a b _ => isVectorDst d && isVectorSrc a && isVectorSrc b
  | .vmax d a b _ => isVectorDst d && isVectorSrc a && isVectorSrc b
  | .vabs d a _ => isVectorDst d && isVectorSrc a
  | .vneg d a _ => isVectorDst d && isVectorSrc a
  | .vmov d a _ => isVectorDst d && isVectorSrc a
  | .vfma d a b _ => isReg d && isVectorSrc a && isVectorSrc b
  | .vrcp d a _ => isVectorDst d && isVectorSrc a
  | .vrsq d a _ => isVectorDst d && isVectorSrc a
  | .vexp2 d a _ => isVectorDst d && isVectorSrc a
  | .vlog2 d a _ => isVectorDst d && isVectorSrc a
  | .viadd d a b _ => isVectorDst d && isVectorSrc a && isVectorSrc b
  | .visub d a b _ => isVectorDst d && isVectorSrc a && isVectorSrc b
  | .vimul d a b _ => isVectorDst d && isVectorSrc a && isVectorSrc b
  | .vimin d a b _ => isVectorDst d && isVectorSrc a && isVectorSrc b
  | .vimax d a b _ => isVectorDst d && isVectorSrc a && isVectorSrc b
  | .vshl d a b _ => isVectorDst d && isVectorSrc a && isVectorSrc b
  | .vshr d a b _ => isVectorDst d && isVectorSrc a && isVectorSrc b
  | .vsra d a b _ => isVectorDst d && isVectorSrc a && isVectorSrc b
  | .viaddH d a b _ => isVectorDst d && isVectorSrc a && isVectorSrc b
  | .visubH d a b _ => isVectorDst d && isVectorSrc a && isVectorSrc b
  | .vimulH d a b _ => isVectorDst d && isVectorSrc a && isVectorSrc b
  | .viminH d a b _ => isVectorDst d && isVectorSrc a && isVectorSrc b
  | .vimaxH d a b _ => isVectorDst d && isVectorSrc a && isVectorSrc b
  | .vshlH d a b _ => isVectorDst d && isVectorSrc a && isVectorSrc b
  | .vshrH d a b _ => isVectorDst d && isVectorSrc a && isVectorSrc b
  | .vsraH d a b _ => isVectorDst d && isVectorSrc a && isVectorSrc b
  | .viaddB d a b _ => isVectorDst d && isVectorSrc a && isVectorSrc b
  | .visubB d a b _ => isVectorDst d && isVectorSrc a && isVectorSrc b
  | .vimulB d a b _ => isVectorDst d && isVectorSrc a && isVectorSrc b
  | .viminB d a b _ => isVectorDst d && isVectorSrc a && isVectorSrc b
  | .vimaxB d a b _ => isVectorDst d && isVectorSrc a && isVectorSrc b
  | .vshlB d a b _ => isVectorDst d && isVectorSrc a && isVectorSrc b
  | .vshrB d a b _ => isVectorDst d && isVectorSrc a && isVectorSrc b
  | .vsraB d a b _ => isVectorDst d && isVectorSrc a && isVectorSrc b
  | .viaddS d a b _ => isVectorDst d && isVectorSrc a && isVectorSrc b
  | .visubS d a b _ => isVectorDst d && isVectorSrc a && isVectorSrc b
  | .viaddHS d a b _ => isVectorDst d && isVectorSrc a && isVectorSrc b
  | .visubHS d a b _ => isVectorDst d && isVectorSrc a && isVectorSrc b
  | .viaddBS d a b _ => isVectorDst d && isVectorSrc a && isVectorSrc b
  | .visubBS d a b _ => isVectorDst d && isVectorSrc a && isVectorSrc b
  | .vand d a b _ => isVectorDst d && isVectorSrc a && isVectorSrc b
  | .vor d a b _ => isVectorDst d && isVectorSrc a && isVectorSrc b
  | .vxor d a b _ => isVectorDst d && isVectorSrc a && isVectorSrc b
  | .vandn d a b _ => isVectorDst d && isVectorSrc a && isVectorSrc b
  | .vcvt d a t f w => isVectorDst d && isVectorSrc a && isCvt t f w
  | .vceq d a b _ => isMask d && isVectorSrc a && isVectorSrc b
  | .vcne d a b _ => isMask d && isVectorSrc a && isVectorSrc b
  | .vclt d a b _ => isMask d && isVectorSrc a && isVectorSrc b
  | .vcle d a b _ => isMask d && isVectorSrc a && isVectorSrc b
  | .vcun d a b _ => isMask d && isVectorSrc a && isVectorSrc b
  | .viceq d a b _ => isMask d && isVectorSrc a && isVectorSrc b
  | .vicne d a b _ => isMask d && isVectorSrc a && isVectorSrc b
  | .viclt d a b _ => isMask d && isVectorSrc a && isVectorSrc b
  | .vicle d a b _ => isMask d && isVectorSrc a && isVectorSrc b
  | .vicltu d a b _ => isMask d && isVectorSrc a && isVectorSrc b
  | .vicleu d a b _ => isMask d && isVectorSrc a && isVectorSrc b
  | .mand d a b => isMask d && isMask a && isMask b
  | .mor d a b => isMask d && isMask a && isMask b
  | .mxor d a b => isMask d && isMask a && isMask b
  | .mandn d a b => isMask d && isMask a && isMask b
  | .mnot d a => isMask d && isMask a
  | .vsel d a b _ => isVectorDst d && isVectorSrc a && isVectorSrc b
  | .vbcast d a _ => isVectorDst d && isScalarSrc .x a
  | .vlid d _ => isVectorDst d
  | .vrotm d a b s => isVectorDst d && isVectorSrc a && isVectorSrc b && isScalarSrc .x s
  | .vperm d a b _ => isVectorDst d && isVectorSrc a && isVectorSrc b
  | .vzipl d a b _ => isVectorDst d && isVectorSrc a && isVectorSrc b
  | .vziph d a b _ => isVectorDst d && isVectorSrc a && isVectorSrc b
  | .vradd d a _ => isVectorDst d && isVectorSrc a
  | .vrmax d a _ => isVectorDst d && isVectorSrc a
  | .vrmin d a _ => isVectorDst d && isVectorSrc a
  | .defer a n _ => isReg a && decide (n.toNat < 8) && decide (a.toNat + n.toNat < 32)
  | .drain d n l => isReg d && decide (n.toNat < 8) && isReg l && decide (d.toNat + n.toNat < 32)
  | .drainF d n l _ => isReg d && decide (n.toNat < 8) && isReg l && decide (d.toNat + n.toNat < 32)
  | .prec _ a b => a != 0#4 && b != 0#4
  | .mclr _ => true
  | .mmul _ a b s => a != b && isScalarSrc .x s
  | .mmuls _ a b s => a != b && isScalarSrc .x s
  | .mld _ _ => true
  | .mst _ _ f _ => decide (1 ≤ f.toNat) && decide (f.toNat ≤ 9)
  | .mstQ _ f q _ => decide (1 ≤ f.toNat) && decide (f.toNat ≤ 8) && isQueueHigh q
  | .lease => true
  | .unlease => true
  | .histClr => true
  | .histRd q => isQueueHigh q
  | .ewaitX _ => true
  | .esigX _ => true
  | .b _ => true
  | .brx d c _ => isReg d && isCond c
  | .bra d c _ => isReg d && isCond c
  | .call _ => true
  | .ret => true
  | .loop d _ e => decide (d.toNat < 3) && e != 0#12
  | .loopS d s e => decide (d.toNat < 3) && isReg s && e != 0#12
  | .loopA d a e => decide (d.toNat < 3) && isReg a && e != 0#12
  | .bar s w a => decide (s.toNat < 5) && isReg a && (w == 1#1 || a == 0#6)
  | .phase s w a => decide (s.toNat < 5) && isReg a && (w == 1#1 || a == 0#6)
  | .nst k d n => isTokenDst k && isReg d && isCount8 n && decide (d.toNat + n.toNat ≤ 32)
  | .tend => true
  | .ychk _ => true
  | .yield _ o => isReg o
  | .halt => true
  | .illegalInstruction => true
  | .executeData => true
  | .queueDeadlock core => decide (core < 512)
  | .pendingEntryDrain core _ => decide (core < 512)
  | .loadReadStep core _ => decide (core < 512)
  | .loadDataArrival core _ => decide (core < 512)
  | .atomicStep core _ => decide (core < 512)
  | .vectorAtomicLaneStep core => decide (core < 512)
  | .faultComplete _ _ => true
  | .faultFail _ _ => true
  | .forcedSave core => decide (core < 512)
  | .saveComplete core => decide (core < 512)
  | .contextRestore core => decide (core < 512)
  | .taskLaunch core => decide (core < 512)
  | .dispatchChoice core => decide (core < 512)
  | .otherDieTake core => decide (core < 512)
  | .promotion _ => true
  | .teamClaim _ => true
  | .teamClaimStart _ => true
  | .migrationOffer _ => true
  | .advertisement (.own die) => decide (die < 8)
  | .advertisement (.peer _ die _) => decide (die < 8)
  | .migrationAccept _ => true
  | .migration _ => true
  | .migrationAck _ => true
  | .kernelDeath _ => true
  | .kill _ => true
  | .killAckTimeout _ _ => true
  | .remoteAccess _ _ => true
  | .count _ _ => true
  | .contribution (.own core) => decide (core < 512)
  | .contribution (.peer _) => true
  | .arrival .. => true
  | .stololayrWake _ reg _ => decide (reg < 8192)
  | .barrierCompletion core => decide (core < 512)
  | .collectiveTimerAbort _ _ _ => true
  | .collectiveCompletion _ => true
  | .chainStart core => decide (core < 512)
  | .chainCopy core => decide (core < 512)
  | .copyTransaction core => decide (core < 512)
  | .chainLoop core => decide (core < 512)
  | .chainCond core => decide (core < 512)
  | .chainSignal core => decide (core < 512)
  | .chainWait core => decide (core < 512)
  | .chainEnd core => decide (core < 512)
  | .setterTakesEffect _ _ => true
  | .shareGroupTimeout _ => true
  | .arrayCommandStart core => decide (core < 512)
  | .arrayStep core => decide (core < 512)
  | .arrayCommandEnd core => decide (core < 512)
  | .precAtHead core => decide (core < 512)
  | .mclrAtHead core => decide (core < 512)
  | .mldAtHead core => decide (core < 512)
  | .mstAtHead core => decide (core < 512)
  | .mstElementPush core => decide (core < 512)
  | .histClrAtHead core => decide (core < 512)
  | .histRdAtHead core => decide (core < 512)
  | .revocationRequest _ _ => true
  | .entryHeld _ _ => true
  | .refresh _ _ _ => true
  | .entryKill _ _ => true
  | .entryFreed _ _ => true
  | .pwcInvalidate _ => true
  | .hmaskSet stack masks => decide (stack < 8) && decide (masks.length = 6)
  | .dlbWrite _ _ => true
  | .dltWrite _ _ => true
  | .dlxClear _ _ => true
  | .scrubRead _ _ => true
  | .scrubWriteBack _ => true
  | .queueTailWrite _ _ => true
  | .packetRead _ => true
  | .load _ _ => true
  | .launch _ _ => true
  | .wake _ _ => true
  | .indirect _ _ _ => true
  | .fence _ => true
  | .register _ _ => true
  | .unregister _ _ => true
  | .unknownCommand _ => true
  | .queueReset _ => true
  | .wakeRegisterWrite _ reg _ => decide (reg < 8192)
  | .runStart _ _ => true
  | .runEnd _ _ => true
  | .loopNodePass _ _ => true
  | .conditionalNodeRead _ _ => true
  | .recordCopy _ => true
  | .tenantSliceEnd _ => true
  | .tenantSliceOpen _ => true
  | .quotaWindow _ => true
  | .deschedule _ => true
  | .reschedule _ => true
  | .pause _ => true
  | .migrationImageRestore _ => true
  | .virtualDeviceReset _ => true
  | .ownershipChange _ _ => true
  | .parameterRegisterWrite _ _ => true
  | .moduleReset => true
  | .verifyComplete => true
  | .recoveryImage _ => true
  | .trainingComplete _ => true
  | .powerStateChange die _ => decide (die < 8)
  | .clockCommand _ => true
  | .clockChange => true
  | .thermalTrip die _ => decide (die < 8)
  | .thermalRecovery _ => true
  | .lockedClockEnter => true
  | .lockedClockLeave => true
  | .uncorrectableError _ => true
  | .commit => true
  | .attestationReport _ => true
  | .heartbeat _ => true
  | .heartbeatTimeout _ => true
  | .checkpoint _ _ => true
  | .packageRecovery _ _ => true
  | .killAcknowledgement _ _ => true
  | .partitionCreation _ => true
  | .partitionDestruction _ => true
  | .contextCreation _ => true
  | .contextDestruction _ => true
  | .entryToActive die => decide (die < 8)
  | .eventRingDrain _ => true

end Sys2Proof
end

