-- ==== Sys2Proof/Decode.lean ====
section
/-! DEFINITION. Decoding and encoding (R35 to R47). The decoder reads a word's tag, major opcode, sub-codes and fields and
refuses by name what is assigned to no instruction; operand values are judged where the instruction executes (R48). -/
namespace Sys2Proof

/-- Why a word is no instruction; each is cause 0x01 for a sequencer that executes the word (R48). -/
inductive DecodeError where
  /-- The tag has no instruction with this major opcode. -/
  | unassignedOp
  /-- The major opcode is assigned, its sub-code is not, or a reserved field is not zero. -/
  | unassignedCode
  /-- A reserved field is not zero (R11). -/
  | reservedField
  /-- The word is tagged D, which holds no executable instruction (R47). -/
  | dataTag
  /-- Fewer than four bytes are left. -/
  | truncated
deriving DecidableEq, Repr

/-- The `len` bits of a bit vector from bit `lo` up. -/
def fld {n : Nat} (w : BitVec n) (lo len : Nat) : BitVec len := w.extractLsb' lo len

/-- Two adjacent fields of a word, the higher first. -/
def cat {m n : Nat} (hi : BitVec m) (lo : BitVec n) : BitVec (m + n) := hi ++ lo

/-- Tag A or X, major opcode 0x00 (R42 to R46). -/
def decodeScalar_00 (s : Side) (w : Word32) : Except DecodeError Instr :=
    if fld w 0 6 = 0#6 then .ok (.add s (fld w 18 6) (fld w 12 6) (fld w 6 6))
    else if fld w 0 6 = 1#6 then .ok (.sub s (fld w 18 6) (fld w 12 6) (fld w 6 6))
    else if fld w 0 6 = 2#6 then .ok (.and s (fld w 18 6) (fld w 12 6) (fld w 6 6))
    else if fld w 0 6 = 3#6 then .ok (.or s (fld w 18 6) (fld w 12 6) (fld w 6 6))
    else if fld w 0 6 = 4#6 then .ok (.xor s (fld w 18 6) (fld w 12 6) (fld w 6 6))
    else if fld w 0 6 = 5#6 then .ok (.sll s (fld w 18 6) (fld w 12 6) (fld w 6 6))
    else if fld w 0 6 = 6#6 then .ok (.srl s (fld w 18 6) (fld w 12 6) (fld w 6 6))
    else if fld w 0 6 = 7#6 then .ok (.sra s (fld w 18 6) (fld w 12 6) (fld w 6 6))
    else if fld w 0 6 = 8#6 then .ok (.mul s (fld w 18 6) (fld w 12 6) (fld w 6 6))
    else if fld w 0 6 = 9#6 then .ok (.mulh s (fld w 18 6) (fld w 12 6) (fld w 6 6))
    else if fld w 0 6 = 10#6 then .ok (.mulhu s (fld w 18 6) (fld w 12 6) (fld w 6 6))
    else if fld w 0 6 = 11#6 ∧ fld w 6 6 = 0#6 then .ok (.clz s (fld w 18 6) (fld w 12 6))
    else if fld w 0 6 = 12#6 then .ok (.slt s (fld w 18 6) (fld w 12 6) (fld w 6 6))
    else if fld w 0 6 = 13#6 then .ok (.sltu s (fld w 18 6) (fld w 12 6) (fld w 6 6))
    else if fld w 0 6 = 14#6 then .ok (.seq s (fld w 18 6) (fld w 12 6) (fld w 6 6))
    else if fld w 0 6 = 15#6 then .ok (.sne s (fld w 18 6) (fld w 12 6) (fld w 6 6))
    else if fld w 0 6 = 16#6 then .ok (.min s (fld w 18 6) (fld w 12 6) (fld w 6 6))
    else if fld w 0 6 = 17#6 then .ok (.max s (fld w 18 6) (fld w 12 6) (fld w 6 6))
    else if fld w 0 6 = 18#6 then .ok (.minu s (fld w 18 6) (fld w 12 6) (fld w 6 6))
    else if fld w 0 6 = 19#6 then .ok (.maxu s (fld w 18 6) (fld w 12 6) (fld w 6 6))
    else if fld w 0 6 = 20#6 then .ok (.sel s (fld w 18 6) (fld w 12 6) (fld w 6 6))
    else .error .unassignedCode

/-- Tag A or X, major opcode 0x07 (R42 to R46). -/
def decodeScalar_07 (s : Side) (w : Word32) : Except DecodeError Instr :=
    if fld w 6 6 = 0#6 then .ok (.slli s (fld w 18 6) (fld w 12 6) (fld w 0 6))
    else if fld w 6 6 = 16#6 then .ok (.srli s (fld w 18 6) (fld w 12 6) (fld w 0 6))
    else if fld w 6 6 = 32#6 then .ok (.srai s (fld w 18 6) (fld w 12 6) (fld w 0 6))
    else .error .unassignedCode

/-- The scalar block that tags A and X share (R42), and the four system instructions they share (R43, R44); none where the opcode lies outside it. -/
def decodeScalar (s : Side) (w : Word32) : Option (Except DecodeError Instr) :=
  match (fld w 24 6).toNat with
  | 0x00 => some (decodeScalar_00 s w)
  | 0x01 => some (.ok (.addi s (fld w 18 6) (fld w 12 6) (fld w 0 12)))
  | 0x02 => some (.ok (.andi s (fld w 18 6) (fld w 12 6) (fld w 0 12)))
  | 0x03 => some (.ok (.ori s (fld w 18 6) (fld w 12 6) (fld w 0 12)))
  | 0x04 => some (.ok (.xori s (fld w 18 6) (fld w 12 6) (fld w 0 12)))
  | 0x05 => some (.ok (.slti s (fld w 18 6) (fld w 12 6) (fld w 0 12)))
  | 0x06 => some (.ok (.sltiu s (fld w 18 6) (fld w 12 6) (fld w 0 12)))
  | 0x07 => some (decodeScalar_07 s w)
  | 0x08 => some (.ok (.bfx s (fld w 18 6) (fld w 12 6) (fld w 6 6) (fld w 0 6)))
  | 0x09 => some (.ok (.bfxs s (fld w 18 6) (fld w 12 6) (fld w 6 6) (fld w 0 6)))
  | 0x0a => some (.ok (.movi s (fld w 18 6) (fld w 0 18)))
  | 0x0b => some (.ok (.movhi s (fld w 18 6) (fld w 16 2) (fld w 0 16)))
  | 0x0e => some (if fld w 0 12 = 0#12 then .ok (.qmov s (fld w 18 6) (fld w 12 6)) else .error .reservedField)
  | 0x0f => some (if fld w 0 12 = 0#12 ∧ fld w 18 6 = 0#6 then .ok (.qflush s (fld w 12 6)) else .error .reservedField)
  | 0x12 => some (if fld w 18 6 = 0#6 then .ok (.jmpi s (fld w 12 6) (fld w 0 12)) else .error .reservedField)
  | 0x3b => some (if fld w 0 18 = 0#18 then .ok (.cycrd s (fld w 18 6)) else .error .reservedField)
  | 0x3c => some (if fld w 8 16 = 0#16 then .ok (.trap s (fld w 0 8)) else .error .reservedField)
  | 0x3d => some (if fld w 12 6 = 0#6 then .ok (.rds s (fld w 18 6) (fld w 0 12)) else .error .reservedField)
  | 0x3e => some (if fld w 18 6 = 0#6 then .ok (.wrs s (fld w 12 6) (fld w 0 12)) else .error .reservedField)
  | _ => none

/-- Tag A, major opcode 0x33 (R42 to R46). -/
def decodeA_33 (w : Word32) : Except DecodeError Instr :=
    if fld w 0 4 = 0#4 ∧ fld w 16 4 = 0#4 then .ok (.collRed (fld w 20 4) (fld w 10 6) (fld w 4 6))
    else if fld w 0 4 = 1#4 ∧ fld w 16 4 = 0#4 then .ok (.collAr (fld w 20 4) (fld w 10 6) (fld w 4 6))
    else if fld w 0 4 = 2#4 ∧ fld w 16 4 = 0#4 then .ok (.collGat (fld w 20 4) (fld w 10 6) (fld w 4 6))
    else if fld w 0 4 = 3#4 ∧ fld w 16 4 = 0#4 then .ok (.collBc (fld w 20 4) (fld w 10 6) (fld w 4 6))
    else .error .unassignedCode

/-- The rest of the tag A map (R43). -/
def decodeA (w : Word32) : Except DecodeError Instr :=
  match (fld w 24 6).toNat with
  | 0x10 => .ok (.bpa (fld w 18 6) (fld w 12 6) (fld w 0 12))
  | 0x14 => .ok (.lds (fld w 20 4) (fld w 14 6) (fld w 8 6) (fld w 0 8))
  | 0x15 => .ok (.sts (fld w 20 4) (fld w 14 6) (fld w 8 6) (fld w 0 8))
  | 0x16 => .ok (.ldv (fld w 20 4) (fld w 14 6) (fld w 8 6) (fld w 0 8))
  | 0x17 => .ok (.stv (fld w 20 4) (fld w 14 6) (fld w 8 6) (fld w 0 8))
  | 0x18 => .ok (.ldq (fld w 20 4) (fld w 14 6) (fld w 8 6) (fld w 0 8))
  | 0x19 => .ok (.stq (fld w 20 4) (fld w 14 6) (fld w 8 6) (fld w 0 8))
  | 0x1a => if fld w 0 8 = 0#8 then .ok (.ldg (fld w 20 4) (fld w 14 6) (fld w 8 6)) else .error .reservedField
  | 0x1b => if fld w 0 8 = 0#8 then .ok (.stg (fld w 20 4) (fld w 14 6) (fld w 8 6)) else .error .reservedField
  | 0x1c => .ok (.aadd (fld w 20 4) (fld w 14 6) (fld w 8 6) (fld w 7 1) (fld w 0 7))
  | 0x1d => .ok (.amin (fld w 20 4) (fld w 14 6) (fld w 8 6) (fld w 7 1) (fld w 0 7))
  | 0x1e => .ok (.amax (fld w 20 4) (fld w 14 6) (fld w 8 6) (fld w 7 1) (fld w 0 7))
  | 0x1f => .ok (.aand (fld w 20 4) (fld w 14 6) (fld w 8 6) (fld w 7 1) (fld w 0 7))
  | 0x20 => .ok (.aor (fld w 20 4) (fld w 14 6) (fld w 8 6) (fld w 7 1) (fld w 0 7))
  | 0x21 => .ok (.axor (fld w 20 4) (fld w 14 6) (fld w 8 6) (fld w 7 1) (fld w 0 7))
  | 0x22 => .ok (.axchg (fld w 20 4) (fld w 14 6) (fld w 8 6) (fld w 7 1) (fld w 0 7))
  | 0x23 => .ok (.acas (fld w 20 4) (fld w 14 6) (fld w 8 6) (fld w 7 1) (fld w 0 7))
  | 0x24 => if fld w 1 7 = 0#7 then .ok (.vaadd (fld w 20 4) (fld w 14 6) (fld w 8 6) (fld w 0 1)) else .error .reservedField
  | 0x25 => if fld w 0 8 = 0#8 then .ok (.vaor (fld w 20 4) (fld w 14 6) (fld w 8 6)) else .error .reservedField
  | 0x26 => if fld w 1 7 = 0#7 then .ok (.vamin (fld w 20 4) (fld w 14 6) (fld w 8 6) (fld w 0 1)) else .error .reservedField
  | 0x27 => if fld w 1 7 = 0#7 then .ok (.vamax (fld w 20 4) (fld w 14 6) (fld w 8 6) (fld w 0 1)) else .error .reservedField
  | 0x28 => if fld w 2 6 = 0#6 then .ok (.trans (fld w 20 4) (fld w 14 6) (fld w 8 6) (fld w 1 1) (fld w 0 1)) else .error .reservedField
  | 0x29 => if fld w 8 6 = 0#6 then .ok (.tqry (fld w 20 4) (fld w 14 6) (fld w 0 8)) else .error .reservedField
  | 0x2a => if fld w 1 13 = 0#13 then .ok (.kmov (fld w 20 4) (fld w 14 6) (fld w 0 1)) else .error .reservedField
  | 0x2b => if fld w 0 20 = 0#20 then .ok (.relq (fld w 20 4)) else .error .reservedField
  | 0x2c => if fld w 8 6 = 0#6 then .ok (.nstQ (fld w 20 4) (fld w 14 6) (fld w 0 8)) else .error .reservedField
  | 0x30 => if fld w 0 10 = 0#10 then .ok (.sbind (fld w 20 4) (fld w 16 4) (fld w 10 6)) else .error .reservedField
  | 0x31 => if fld w 0 20 = 0#20 then .ok (.sdrop (fld w 20 4)) else .error .reservedField
  | 0x32 => if fld w 0 4 = 0#4 ∧ fld w 16 8 = 0#8 then .ok (.copy (fld w 10 6) (fld w 4 6)) else .error .reservedField
  | 0x33 => decodeA_33 w
  | 0x34 => if fld w 0 16 = 0#16 then .ok (.ewait (fld w 16 8)) else .error .reservedField
  | 0x35 => if fld w 0 16 = 0#16 then .ok (.esig (fld w 16 8)) else .error .reservedField
  | 0x38 => if fld w 14 6 = 0#6 then .ok (.spawn (fld w 20 4) (fld w 8 6) (fld w 0 8)) else .error .reservedField
  | 0x39 => if fld w 14 6 = 0#6 then .ok (.join (fld w 20 4) (fld w 8 6) (fld w 0 8)) else .error .reservedField
  | _ => .error .unassignedOp

/-- Tag X, major opcode 0x18 (R42 to R46). -/
def decodeX_18 (w : Word32) : Except DecodeError Instr :=
    if fld w 0 3 = 0#3 then .ok (.vadd (fld w 18 6) (fld w 12 6) (fld w 6 6) (fld w 3 3))
    else if fld w 0 3 = 1#3 then .ok (.vsub (fld w 18 6) (fld w 12 6) (fld w 6 6) (fld w 3 3))
    else if fld w 0 3 = 2#3 then .ok (.vmul (fld w 18 6) (fld w 12 6) (fld w 6 6) (fld w 3 3))
    else if fld w 0 3 = 3#3 then .ok (.vmin (fld w 18 6) (fld w 12 6) (fld w 6 6) (fld w 3 3))
    else if fld w 0 3 = 4#3 then .ok (.vmax (fld w 18 6) (fld w 12 6) (fld w 6 6) (fld w 3 3))
    else if fld w 0 3 = 5#3 ∧ fld w 6 6 = 0#6 then .ok (.vabs (fld w 18 6) (fld w 12 6) (fld w 3 3))
    else if fld w 0 3 = 6#3 ∧ fld w 6 6 = 0#6 then .ok (.vneg (fld w 18 6) (fld w 12 6) (fld w 3 3))
    else if fld w 0 3 = 7#3 ∧ fld w 6 6 = 0#6 then .ok (.vmov (fld w 18 6) (fld w 12 6) (fld w 3 3))
    else .error .unassignedCode

/-- Tag X, major opcode 0x1A (R42 to R46). -/
def decodeX_1a (w : Word32) : Except DecodeError Instr :=
    if fld w 0 3 = 0#3 ∧ fld w 6 6 = 0#6 then .ok (.vrcp (fld w 18 6) (fld w 12 6) (fld w 3 3))
    else if fld w 0 3 = 1#3 ∧ fld w 6 6 = 0#6 then .ok (.vrsq (fld w 18 6) (fld w 12 6) (fld w 3 3))
    else if fld w 0 3 = 2#3 ∧ fld w 6 6 = 0#6 then .ok (.vexp2 (fld w 18 6) (fld w 12 6) (fld w 3 3))
    else if fld w 0 3 = 3#3 ∧ fld w 6 6 = 0#6 then .ok (.vlog2 (fld w 18 6) (fld w 12 6) (fld w 3 3))
    else .error .unassignedCode

/-- Tag X, major opcode 0x1B (R42 to R46). -/
def decodeX_1b (w : Word32) : Except DecodeError Instr :=
    if fld w 0 3 = 0#3 then .ok (.viadd (fld w 18 6) (fld w 12 6) (fld w 6 6) (fld w 3 3))
    else if fld w 0 3 = 1#3 then .ok (.visub (fld w 18 6) (fld w 12 6) (fld w 6 6) (fld w 3 3))
    else if fld w 0 3 = 2#3 then .ok (.vimul (fld w 18 6) (fld w 12 6) (fld w 6 6) (fld w 3 3))
    else if fld w 0 3 = 3#3 then .ok (.vimin (fld w 18 6) (fld w 12 6) (fld w 6 6) (fld w 3 3))
    else if fld w 0 3 = 4#3 then .ok (.vimax (fld w 18 6) (fld w 12 6) (fld w 6 6) (fld w 3 3))
    else if fld w 0 3 = 5#3 then .ok (.vshl (fld w 18 6) (fld w 12 6) (fld w 6 6) (fld w 3 3))
    else if fld w 0 3 = 6#3 then .ok (.vshr (fld w 18 6) (fld w 12 6) (fld w 6 6) (fld w 3 3))
    else if fld w 0 3 = 7#3 then .ok (.vsra (fld w 18 6) (fld w 12 6) (fld w 6 6) (fld w 3 3))
    else .error .unassignedCode

/-- Tag X, major opcode 0x1C (R42 to R46). -/
def decodeX_1c (w : Word32) : Except DecodeError Instr :=
    if fld w 0 3 = 0#3 then .ok (.viaddH (fld w 18 6) (fld w 12 6) (fld w 6 6) (fld w 3 3))
    else if fld w 0 3 = 1#3 then .ok (.visubH (fld w 18 6) (fld w 12 6) (fld w 6 6) (fld w 3 3))
    else if fld w 0 3 = 2#3 then .ok (.vimulH (fld w 18 6) (fld w 12 6) (fld w 6 6) (fld w 3 3))
    else if fld w 0 3 = 3#3 then .ok (.viminH (fld w 18 6) (fld w 12 6) (fld w 6 6) (fld w 3 3))
    else if fld w 0 3 = 4#3 then .ok (.vimaxH (fld w 18 6) (fld w 12 6) (fld w 6 6) (fld w 3 3))
    else if fld w 0 3 = 5#3 then .ok (.vshlH (fld w 18 6) (fld w 12 6) (fld w 6 6) (fld w 3 3))
    else if fld w 0 3 = 6#3 then .ok (.vshrH (fld w 18 6) (fld w 12 6) (fld w 6 6) (fld w 3 3))
    else if fld w 0 3 = 7#3 then .ok (.vsraH (fld w 18 6) (fld w 12 6) (fld w 6 6) (fld w 3 3))
    else .error .unassignedCode

/-- Tag X, major opcode 0x1D (R42 to R46). -/
def decodeX_1d (w : Word32) : Except DecodeError Instr :=
    if fld w 0 3 = 0#3 then .ok (.viaddB (fld w 18 6) (fld w 12 6) (fld w 6 6) (fld w 3 3))
    else if fld w 0 3 = 1#3 then .ok (.visubB (fld w 18 6) (fld w 12 6) (fld w 6 6) (fld w 3 3))
    else if fld w 0 3 = 2#3 then .ok (.vimulB (fld w 18 6) (fld w 12 6) (fld w 6 6) (fld w 3 3))
    else if fld w 0 3 = 3#3 then .ok (.viminB (fld w 18 6) (fld w 12 6) (fld w 6 6) (fld w 3 3))
    else if fld w 0 3 = 4#3 then .ok (.vimaxB (fld w 18 6) (fld w 12 6) (fld w 6 6) (fld w 3 3))
    else if fld w 0 3 = 5#3 then .ok (.vshlB (fld w 18 6) (fld w 12 6) (fld w 6 6) (fld w 3 3))
    else if fld w 0 3 = 6#3 then .ok (.vshrB (fld w 18 6) (fld w 12 6) (fld w 6 6) (fld w 3 3))
    else if fld w 0 3 = 7#3 then .ok (.vsraB (fld w 18 6) (fld w 12 6) (fld w 6 6) (fld w 3 3))
    else .error .unassignedCode

/-- Tag X, major opcode 0x1E (R42 to R46). -/
def decodeX_1e (w : Word32) : Except DecodeError Instr :=
    if fld w 0 3 = 0#3 then .ok (.viaddS (fld w 18 6) (fld w 12 6) (fld w 6 6) (fld w 3 3))
    else if fld w 0 3 = 1#3 then .ok (.visubS (fld w 18 6) (fld w 12 6) (fld w 6 6) (fld w 3 3))
    else if fld w 0 3 = 2#3 then .ok (.viaddHS (fld w 18 6) (fld w 12 6) (fld w 6 6) (fld w 3 3))
    else if fld w 0 3 = 3#3 then .ok (.visubHS (fld w 18 6) (fld w 12 6) (fld w 6 6) (fld w 3 3))
    else if fld w 0 3 = 4#3 then .ok (.viaddBS (fld w 18 6) (fld w 12 6) (fld w 6 6) (fld w 3 3))
    else if fld w 0 3 = 5#3 then .ok (.visubBS (fld w 18 6) (fld w 12 6) (fld w 6 6) (fld w 3 3))
    else .error .unassignedCode

/-- Tag X, major opcode 0x1F (R42 to R46). -/
def decodeX_1f (w : Word32) : Except DecodeError Instr :=
    if fld w 0 3 = 0#3 then .ok (.vand (fld w 18 6) (fld w 12 6) (fld w 6 6) (fld w 3 3))
    else if fld w 0 3 = 1#3 then .ok (.vor (fld w 18 6) (fld w 12 6) (fld w 6 6) (fld w 3 3))
    else if fld w 0 3 = 2#3 then .ok (.vxor (fld w 18 6) (fld w 12 6) (fld w 6 6) (fld w 3 3))
    else if fld w 0 3 = 3#3 then .ok (.vandn (fld w 18 6) (fld w 12 6) (fld w 6 6) (fld w 3 3))
    else .error .unassignedCode

/-- Tag X, major opcode 0x21 (R42 to R46). -/
def decodeX_21 (w : Word32) : Except DecodeError Instr :=
    if fld w 0 3 = 0#3 then .ok (.vceq (fld w 18 6) (fld w 12 6) (fld w 6 6) (fld w 3 3))
    else if fld w 0 3 = 1#3 then .ok (.vcne (fld w 18 6) (fld w 12 6) (fld w 6 6) (fld w 3 3))
    else if fld w 0 3 = 2#3 then .ok (.vclt (fld w 18 6) (fld w 12 6) (fld w 6 6) (fld w 3 3))
    else if fld w 0 3 = 3#3 then .ok (.vcle (fld w 18 6) (fld w 12 6) (fld w 6 6) (fld w 3 3))
    else if fld w 0 3 = 4#3 then .ok (.vcun (fld w 18 6) (fld w 12 6) (fld w 6 6) (fld w 3 3))
    else .error .unassignedCode

/-- Tag X, major opcode 0x22 (R42 to R46). -/
def decodeX_22 (w : Word32) : Except DecodeError Instr :=
    if fld w 0 3 = 0#3 then .ok (.viceq (fld w 18 6) (fld w 12 6) (fld w 6 6) (fld w 3 3))
    else if fld w 0 3 = 1#3 then .ok (.vicne (fld w 18 6) (fld w 12 6) (fld w 6 6) (fld w 3 3))
    else if fld w 0 3 = 2#3 then .ok (.viclt (fld w 18 6) (fld w 12 6) (fld w 6 6) (fld w 3 3))
    else if fld w 0 3 = 3#3 then .ok (.vicle (fld w 18 6) (fld w 12 6) (fld w 6 6) (fld w 3 3))
    else if fld w 0 3 = 4#3 then .ok (.vicltu (fld w 18 6) (fld w 12 6) (fld w 6 6) (fld w 3 3))
    else if fld w 0 3 = 5#3 then .ok (.vicleu (fld w 18 6) (fld w 12 6) (fld w 6 6) (fld w 3 3))
    else .error .unassignedCode

/-- Tag X, major opcode 0x23 (R42 to R46). -/
def decodeX_23 (w : Word32) : Except DecodeError Instr :=
    if fld w 0 6 = 0#6 then .ok (.mand (fld w 18 6) (fld w 12 6) (fld w 6 6))
    else if fld w 0 6 = 1#6 then .ok (.mor (fld w 18 6) (fld w 12 6) (fld w 6 6))
    else if fld w 0 6 = 2#6 then .ok (.mxor (fld w 18 6) (fld w 12 6) (fld w 6 6))
    else if fld w 0 6 = 3#6 then .ok (.mandn (fld w 18 6) (fld w 12 6) (fld w 6 6))
    else if fld w 0 6 = 4#6 ∧ fld w 6 6 = 0#6 then .ok (.mnot (fld w 18 6) (fld w 12 6))
    else .error .unassignedCode

/-- Tag X, major opcode 0x25 (R42 to R46). -/
def decodeX_25 (w : Word32) : Except DecodeError Instr :=
    if fld w 0 3 = 0#3 ∧ fld w 6 6 = 0#6 then .ok (.vbcast (fld w 18 6) (fld w 12 6) (fld w 3 3))
    else if fld w 0 3 = 1#3 ∧ fld w 6 6 = 0#6 ∧ fld w 12 6 = 0#6 then .ok (.vlid (fld w 18 6) (fld w 3 3))
    else .error .unassignedCode

/-- Tag X, major opcode 0x27 (R42 to R46). -/
def decodeX_27 (w : Word32) : Except DecodeError Instr :=
    if fld w 0 3 = 0#3 then .ok (.vperm (fld w 18 6) (fld w 12 6) (fld w 6 6) (fld w 3 3))
    else if fld w 0 3 = 1#3 then .ok (.vzipl (fld w 18 6) (fld w 12 6) (fld w 6 6) (fld w 3 3))
    else if fld w 0 3 = 2#3 then .ok (.vziph (fld w 18 6) (fld w 12 6) (fld w 6 6) (fld w 3 3))
    else .error .unassignedCode

/-- Tag X, major opcode 0x28 (R42 to R46). -/
def decodeX_28 (w : Word32) : Except DecodeError Instr :=
    if fld w 0 3 = 0#3 ∧ fld w 6 6 = 0#6 then .ok (.vradd (fld w 18 6) (fld w 12 6) (fld w 3 3))
    else if fld w 0 3 = 1#3 ∧ fld w 6 6 = 0#6 then .ok (.vrmax (fld w 18 6) (fld w 12 6) (fld w 3 3))
    else if fld w 0 3 = 2#3 ∧ fld w 6 6 = 0#6 then .ok (.vrmin (fld w 18 6) (fld w 12 6) (fld w 3 3))
    else .error .unassignedCode

/-- Tag X, major opcode 0x2A (R42 to R46). -/
def decodeX_2a (w : Word32) : Except DecodeError Instr :=
    if fld w 0 3 = 0#3 ∧ fld w 3 3 = 0#3 then .ok (.drain (fld w 18 6) (fld w 12 6) (fld w 6 6))
    else if fld w 0 3 = 1#3 then .ok (.drainF (fld w 18 6) (fld w 12 6) (fld w 6 6) (fld w 3 3))
    else .error .unassignedCode

/-- Tag X, major opcode 0x35 (R42 to R46). -/
def decodeX_35 (w : Word32) : Except DecodeError Instr :=
    if fld w 0 1 = 0#1 ∧ fld w 2 5 = 0#5 ∧ fld w 7 6 = 0#6 then .ok (.mst (fld w 21 3) (fld w 17 4) (fld w 13 4) (fld w 1 1))
    else if fld w 0 1 = 1#1 ∧ fld w 2 5 = 0#5 ∧ fld w 17 4 = 0#4 then .ok (.mstQ (fld w 21 3) (fld w 13 4) (fld w 7 6) (fld w 1 1))
    else .error .unassignedCode

/-- Tag X, major opcode 0x38 (R42 to R46). -/
def decodeX_38 (w : Word32) : Except DecodeError Instr :=
    if fld w 0 7 = 0#7 ∧ fld w 7 6 = 0#6 ∧ fld w 13 11 = 0#11 then .ok (.histClr)
    else if fld w 0 7 = 1#7 ∧ fld w 13 11 = 0#11 then .ok (.histRd (fld w 7 6))
    else .error .unassignedCode

/-- The rest of the tag X map (R44). -/
def decodeX (w : Word32) : Except DecodeError Instr :=
  match (fld w 24 6).toNat with
  | 0x10 => .ok (.bpx (fld w 18 6) (fld w 12 6) (fld w 0 12))
  | 0x18 => decodeX_18 w
  | 0x19 => if fld w 0 3 = 0#3 then .ok (.vfma (fld w 18 6) (fld w 12 6) (fld w 6 6) (fld w 3 3)) else .error .reservedField
  | 0x1a => decodeX_1a w
  | 0x1b => decodeX_1b w
  | 0x1c => decodeX_1c w
  | 0x1d => decodeX_1d w
  | 0x1e => decodeX_1e w
  | 0x1f => decodeX_1f w
  | 0x20 => .ok (.vcvt (fld w 18 6) (fld w 12 6) (fld w 8 4) (fld w 4 4) (fld w 0 4))
  | 0x21 => decodeX_21 w
  | 0x22 => decodeX_22 w
  | 0x23 => decodeX_23 w
  | 0x24 => if fld w 0 3 = 0#3 then .ok (.vsel (fld w 18 6) (fld w 12 6) (fld w 6 6) (fld w 3 3)) else .error .reservedField
  | 0x25 => decodeX_25 w
  | 0x26 => .ok (.vrotm (fld w 18 6) (fld w 12 6) (fld w 6 6) (fld w 0 6))
  | 0x27 => decodeX_27 w
  | 0x28 => decodeX_28 w
  | 0x29 => if fld w 0 3 = 0#3 ∧ fld w 18 6 = 0#6 then .ok (.defer (fld w 12 6) (fld w 6 6) (fld w 3 3)) else .error .reservedField
  | 0x2a => decodeX_2a w
  | 0x30 => if fld w 0 13 = 0#13 then .ok (.prec (fld w 21 3) (fld w 17 4) (fld w 13 4)) else .error .reservedField
  | 0x31 => if fld w 0 21 = 0#21 then .ok (.mclr (fld w 21 3)) else .error .reservedField
  | 0x32 => if fld w 0 7 = 0#7 then .ok (.mmul (fld w 21 3) (fld w 17 4) (fld w 13 4) (fld w 7 6)) else .error .reservedField
  | 0x33 => if fld w 0 7 = 0#7 then .ok (.mmuls (fld w 21 3) (fld w 17 4) (fld w 13 4) (fld w 7 6)) else .error .reservedField
  | 0x34 => if fld w 0 17 = 0#17 then .ok (.mld (fld w 21 3) (fld w 17 4)) else .error .reservedField
  | 0x35 => decodeX_35 w
  | 0x36 => if fld w 0 24 = 0#24 then .ok (.lease) else .error .reservedField
  | 0x37 => if fld w 0 24 = 0#24 then .ok (.unlease) else .error .reservedField
  | 0x38 => decodeX_38 w
  | 0x39 => if fld w 0 16 = 0#16 then .ok (.ewaitX (fld w 16 8)) else .error .reservedField
  | 0x3a => if fld w 0 16 = 0#16 then .ok (.esigX (fld w 16 8)) else .error .reservedField
  | _ => .error .unassignedOp

/-- Tag B, major opcode 0x08 (R42 to R46). -/
def decodeB_08 (w : Word32) : Except DecodeError Instr :=
    if fld w 0 12 = 0#12 ∧ fld w 18 1 = 0#1 ∧ fld w 20 1 = 0#1 then .ok (.bar (fld w 21 3) (fld w 19 1) (fld w 12 6))
    else if fld w 0 12 = 0#12 ∧ fld w 18 1 = 0#1 ∧ fld w 20 1 = 1#1 then .ok (.phase (fld w 21 3) (fld w 19 1) (fld w 12 6))
    else .error .unassignedCode

/-- The tag B map (R46). -/
def decodeB (w : Word32) : Except DecodeError Instr :=
  match (fld w 24 6).toNat with
  | 0x00 => .ok (.b (fld w 0 24))
  | 0x01 => .ok (.brx (fld w 18 6) (fld w 12 6) (fld w 0 12))
  | 0x02 => .ok (.bra (fld w 18 6) (fld w 12 6) (fld w 0 12))
  | 0x03 => .ok (.call (fld w 0 24))
  | 0x04 => if fld w 0 24 = 0#24 then .ok (.ret) else .error .reservedField
  | 0x05 => .ok (.loop (fld w 18 6) (fld w 12 6) (fld w 0 12))
  | 0x06 => .ok (.loopS (fld w 18 6) (fld w 12 6) (fld w 0 12))
  | 0x07 => .ok (.loopA (fld w 18 6) (fld w 12 6) (fld w 0 12))
  | 0x08 => decodeB_08 w
  | 0x09 => if fld w 8 6 = 0#6 then .ok (.nst (fld w 20 4) (fld w 14 6) (fld w 0 8)) else .error .reservedField
  | 0x0a => if fld w 0 24 = 0#24 then .ok (.tend) else .error .reservedField
  | 0x0b => .ok (.ychk (fld w 0 24))
  | 0x0c => if fld w 0 8 = 0#8 ∧ fld w 14 6 = 0#6 then .ok (.yield (fld w 20 4) (fld w 8 6)) else .error .reservedField
  | 0x0d => if fld w 0 24 = 0#24 then .ok (.halt) else .error .reservedField
  | _ => .error .unassignedOp

/-- The instruction a word holds (R35, R42 to R47). -/
def decode (w : Word32) : Except DecodeError Instr :=
  match (fld w 31 1).toNat, (fld w 30 1).toNat with
  | 0, 0 => (decodeScalar .a w).getD (decodeA w)
  | 0, _ => (decodeScalar .x w).getD (decodeX w)
  | _, 0 => decodeB w
  | _, _ => .error .dataTag

/-- The little-endian word of four bytes, the first at the lowest address (R8, R14). -/
def wordOfBytes (b0 b1 b2 b3 : Byte) : Word32 := b3 ++ b2 ++ b1 ++ b0

/-- The four bytes of a word as memory holds them (R8). -/
def bytesOfWord (w : Word32) : List Byte := [fld w 0 8, fld w 8 8, fld w 16 8, fld w 24 8]

/-- Decodes the first instruction of a byte string and answers the rest. -/
def decodeBytes : List Byte → Except DecodeError (Instr × List Byte)
  | b0 :: b1 :: b2 :: b3 :: rest => (decode (wordOfBytes b0 b1 b2 b3)).map (·, rest)
  | _ => .error .truncated

/-- The instruction the decoder reads from a word numbered as the opcode table numbers its bits. -/
def decodeTableWord (nbits w : Nat) : Option Instr :=
  if nbits = 0 then none else
  match decodeBytes (bytesOfWord (BitVec.ofNat 32 (w % 2 ^ nbits))) with
  | .ok (i, _) => some i
  | .error _ => none

/-- The word of an instruction, written from the same tables; a step that is no instruction word has none. -/
def encode : Instr → Option Word32
  | .add s d a b => some (cat 0#1 <| cat s.bit <| cat 0#6 <| cat d <| cat a <| cat b 0#6)
  | .sub s d a b => some (cat 0#1 <| cat s.bit <| cat 0#6 <| cat d <| cat a <| cat b 1#6)
  | .and s d a b => some (cat 0#1 <| cat s.bit <| cat 0#6 <| cat d <| cat a <| cat b 2#6)
  | .or s d a b => some (cat 0#1 <| cat s.bit <| cat 0#6 <| cat d <| cat a <| cat b 3#6)
  | .xor s d a b => some (cat 0#1 <| cat s.bit <| cat 0#6 <| cat d <| cat a <| cat b 4#6)
  | .sll s d a b => some (cat 0#1 <| cat s.bit <| cat 0#6 <| cat d <| cat a <| cat b 5#6)
  | .srl s d a b => some (cat 0#1 <| cat s.bit <| cat 0#6 <| cat d <| cat a <| cat b 6#6)
  | .sra s d a b => some (cat 0#1 <| cat s.bit <| cat 0#6 <| cat d <| cat a <| cat b 7#6)
  | .mul s d a b => some (cat 0#1 <| cat s.bit <| cat 0#6 <| cat d <| cat a <| cat b 8#6)
  | .mulh s d a b => some (cat 0#1 <| cat s.bit <| cat 0#6 <| cat d <| cat a <| cat b 9#6)
  | .mulhu s d a b => some (cat 0#1 <| cat s.bit <| cat 0#6 <| cat d <| cat a <| cat b 10#6)
  | .clz s d a => some (cat 0#1 <| cat s.bit <| cat 0#6 <| cat d <| cat a <| cat 0#6 11#6)
  | .slt s d a b => some (cat 0#1 <| cat s.bit <| cat 0#6 <| cat d <| cat a <| cat b 12#6)
  | .sltu s d a b => some (cat 0#1 <| cat s.bit <| cat 0#6 <| cat d <| cat a <| cat b 13#6)
  | .seq s d a b => some (cat 0#1 <| cat s.bit <| cat 0#6 <| cat d <| cat a <| cat b 14#6)
  | .sne s d a b => some (cat 0#1 <| cat s.bit <| cat 0#6 <| cat d <| cat a <| cat b 15#6)
  | .min s d a b => some (cat 0#1 <| cat s.bit <| cat 0#6 <| cat d <| cat a <| cat b 16#6)
  | .max s d a b => some (cat 0#1 <| cat s.bit <| cat 0#6 <| cat d <| cat a <| cat b 17#6)
  | .minu s d a b => some (cat 0#1 <| cat s.bit <| cat 0#6 <| cat d <| cat a <| cat b 18#6)
  | .maxu s d a b => some (cat 0#1 <| cat s.bit <| cat 0#6 <| cat d <| cat a <| cat b 19#6)
  | .sel s d a b => some (cat 0#1 <| cat s.bit <| cat 0#6 <| cat d <| cat a <| cat b 20#6)
  | .addi s d a i => some (cat 0#1 <| cat s.bit <| cat 1#6 <| cat d <| cat a i)
  | .andi s d a i => some (cat 0#1 <| cat s.bit <| cat 2#6 <| cat d <| cat a i)
  | .ori s d a i => some (cat 0#1 <| cat s.bit <| cat 3#6 <| cat d <| cat a i)
  | .xori s d a i => some (cat 0#1 <| cat s.bit <| cat 4#6 <| cat d <| cat a i)
  | .slti s d a i => some (cat 0#1 <| cat s.bit <| cat 5#6 <| cat d <| cat a i)
  | .sltiu s d a i => some (cat 0#1 <| cat s.bit <| cat 6#6 <| cat d <| cat a i)
  | .slli s d a n => some (cat 0#1 <| cat s.bit <| cat 7#6 <| cat d <| cat a <| cat 0#6 n)
  | .srli s d a n => some (cat 0#1 <| cat s.bit <| cat 7#6 <| cat d <| cat a <| cat 16#6 n)
  | .srai s d a n => some (cat 0#1 <| cat s.bit <| cat 7#6 <| cat d <| cat a <| cat 32#6 n)
  | .bfx s d a l n => some (cat 0#1 <| cat s.bit <| cat 8#6 <| cat d <| cat a <| cat l n)
  | .bfxs s d a l n => some (cat 0#1 <| cat s.bit <| cat 9#6 <| cat d <| cat a <| cat l n)
  | .movi s d i => some (cat 0#1 <| cat s.bit <| cat 10#6 <| cat d i)
  | .movhi s d h v => some (cat 0#1 <| cat s.bit <| cat 11#6 <| cat d <| cat h v)
  | .qmov s d a => some (cat 0#1 <| cat s.bit <| cat 14#6 <| cat d <| cat a 0#12)
  | .qflush s a => some (cat 0#1 <| cat s.bit <| cat 15#6 <| cat 0#6 <| cat a 0#12)
  | .bpa d c i => some (cat 0#1 <| cat 0#1 <| cat 16#6 <| cat d <| cat c i)
  | .bpx d c i => some (cat 0#1 <| cat 1#1 <| cat 16#6 <| cat d <| cat c i)
  | .jmpi s a i => some (cat 0#1 <| cat s.bit <| cat 18#6 <| cat 0#6 <| cat a i)
  | .lds k d o i => some (cat 0#1 <| cat 0#1 <| cat 20#6 <| cat k <| cat d <| cat o i)
  | .sts k d o i => some (cat 0#1 <| cat 0#1 <| cat 21#6 <| cat k <| cat d <| cat o i)
  | .ldv k d o i => some (cat 0#1 <| cat 0#1 <| cat 22#6 <| cat k <| cat d <| cat o i)
  | .stv k d o i => some (cat 0#1 <| cat 0#1 <| cat 23#6 <| cat k <| cat d <| cat o i)
  | .ldq k d o i => some (cat 0#1 <| cat 0#1 <| cat 24#6 <| cat k <| cat d <| cat o i)
  | .stq k d o i => some (cat 0#1 <| cat 0#1 <| cat 25#6 <| cat k <| cat d <| cat o i)
  | .ldg k d o => some (cat 0#1 <| cat 0#1 <| cat 26#6 <| cat k <| cat d <| cat o 0#8)
  | .stg k d o => some (cat 0#1 <| cat 0#1 <| cat 27#6 <| cat k <| cat d <| cat o 0#8)
  | .aadd k d o z i => some (cat 0#1 <| cat 0#1 <| cat 28#6 <| cat k <| cat d <| cat o <| cat z i)
  | .amin k d o z i => some (cat 0#1 <| cat 0#1 <| cat 29#6 <| cat k <| cat d <| cat o <| cat z i)
  | .amax k d o z i => some (cat 0#1 <| cat 0#1 <| cat 30#6 <| cat k <| cat d <| cat o <| cat z i)
  | .aand k d o z i => some (cat 0#1 <| cat 0#1 <| cat 31#6 <| cat k <| cat d <| cat o <| cat z i)
  | .aor k d o z i => some (cat 0#1 <| cat 0#1 <| cat 32#6 <| cat k <| cat d <| cat o <| cat z i)
  | .axor k d o z i => some (cat 0#1 <| cat 0#1 <| cat 33#6 <| cat k <| cat d <| cat o <| cat z i)
  | .axchg k d o z i => some (cat 0#1 <| cat 0#1 <| cat 34#6 <| cat k <| cat d <| cat o <| cat z i)
  | .acas k d o z i => some (cat 0#1 <| cat 0#1 <| cat 35#6 <| cat k <| cat d <| cat o <| cat z i)
  | .vaadd k d o f => some (cat 0#1 <| cat 0#1 <| cat 36#6 <| cat k <| cat d <| cat o <| cat 0#7 f)
  | .vaor k d o => some (cat 0#1 <| cat 0#1 <| cat 37#6 <| cat k <| cat d <| cat o 0#8)
  | .vamin k d o f => some (cat 0#1 <| cat 0#1 <| cat 38#6 <| cat k <| cat d <| cat o <| cat 0#7 f)
  | .vamax k d o f => some (cat 0#1 <| cat 0#1 <| cat 39#6 <| cat k <| cat d <| cat o <| cat 0#7 f)
  | .trans k d o p w => some (cat 0#1 <| cat 0#1 <| cat 40#6 <| cat k <| cat d <| cat o <| cat 0#6 <| cat p w)
  | .tqry k d s => some (cat 0#1 <| cat 0#1 <| cat 41#6 <| cat k <| cat d <| cat 0#6 s)
  | .kmov k d r => some (cat 0#1 <| cat 0#1 <| cat 42#6 <| cat k <| cat d <| cat 0#13 r)
  | .relq k => some (cat 0#1 <| cat 0#1 <| cat 43#6 <| cat k 0#20)
  | .nstQ k d n => some (cat 0#1 <| cat 0#1 <| cat 44#6 <| cat k <| cat d <| cat 0#6 n)
  | .sbind u v a => some (cat 0#1 <| cat 0#1 <| cat 48#6 <| cat u <| cat v <| cat a 0#10)
  | .sdrop u => some (cat 0#1 <| cat 0#1 <| cat 49#6 <| cat u 0#20)
  | .copy a b => some (cat 0#1 <| cat 0#1 <| cat 50#6 <| cat 0#8 <| cat a <| cat b 0#4)
  | .collRed u a b => some (cat 0#1 <| cat 0#1 <| cat 51#6 <| cat u <| cat 0#4 <| cat a <| cat b 0#4)
  | .collAr u a b => some (cat 0#1 <| cat 0#1 <| cat 51#6 <| cat u <| cat 0#4 <| cat a <| cat b 1#4)
  | .collGat u a b => some (cat 0#1 <| cat 0#1 <| cat 51#6 <| cat u <| cat 0#4 <| cat a <| cat b 2#4)
  | .collBc u a b => some (cat 0#1 <| cat 0#1 <| cat 51#6 <| cat u <| cat 0#4 <| cat a <| cat b 3#4)
  | .ewait f => some (cat 0#1 <| cat 0#1 <| cat 52#6 <| cat f 0#16)
  | .esig f => some (cat 0#1 <| cat 0#1 <| cat 53#6 <| cat f 0#16)
  | .spawn k o i => some (cat 0#1 <| cat 0#1 <| cat 56#6 <| cat k <| cat 0#6 <| cat o i)
  | .join k o i => some (cat 0#1 <| cat 0#1 <| cat 57#6 <| cat k <| cat 0#6 <| cat o i)
  | .cycrd s d => some (cat 0#1 <| cat s.bit <| cat 59#6 <| cat d 0#18)
  | .trap s c => some (cat 0#1 <| cat s.bit <| cat 60#6 <| cat 0#16 c)
  | .rds s d r => some (cat 0#1 <| cat s.bit <| cat 61#6 <| cat d <| cat 0#6 r)
  | .wrs s a r => some (cat 0#1 <| cat s.bit <| cat 62#6 <| cat 0#6 <| cat a r)
  | .vadd d a b m => some (cat 0#1 <| cat 1#1 <| cat 24#6 <| cat d <| cat a <| cat b <| cat m 0#3)
  | .vsub d a b m => some (cat 0#1 <| cat 1#1 <| cat 24#6 <| cat d <| cat a <| cat b <| cat m 1#3)
  | .vmul d a b m => some (cat 0#1 <| cat 1#1 <| cat 24#6 <| cat d <| cat a <| cat b <| cat m 2#3)
  | .vmin d a b m => some (cat 0#1 <| cat 1#1 <| cat 24#6 <| cat d <| cat a <| cat b <| cat m 3#3)
  | .vmax d a b m => some (cat 0#1 <| cat 1#1 <| cat 24#6 <| cat d <| cat a <| cat b <| cat m 4#3)
  | .vabs d a m => some (cat 0#1 <| cat 1#1 <| cat 24#6 <| cat d <| cat a <| cat 0#6 <| cat m 5#3)
  | .vneg d a m => some (cat 0#1 <| cat 1#1 <| cat 24#6 <| cat d <| cat a <| cat 0#6 <| cat m 6#3)
  | .vmov d a m => some (cat 0#1 <| cat 1#1 <| cat 24#6 <| cat d <| cat a <| cat 0#6 <| cat m 7#3)
  | .vfma d a b m => some (cat 0#1 <| cat 1#1 <| cat 25#6 <| cat d <| cat a <| cat b <| cat m 0#3)
  | .vrcp d a m => some (cat 0#1 <| cat 1#1 <| cat 26#6 <| cat d <| cat a <| cat 0#6 <| cat m 0#3)
  | .vrsq d a m => some (cat 0#1 <| cat 1#1 <| cat 26#6 <| cat d <| cat a <| cat 0#6 <| cat m 1#3)
  | .vexp2 d a m => some (cat 0#1 <| cat 1#1 <| cat 26#6 <| cat d <| cat a <| cat 0#6 <| cat m 2#3)
  | .vlog2 d a m => some (cat 0#1 <| cat 1#1 <| cat 26#6 <| cat d <| cat a <| cat 0#6 <| cat m 3#3)
  | .viadd d a b m => some (cat 0#1 <| cat 1#1 <| cat 27#6 <| cat d <| cat a <| cat b <| cat m 0#3)
  | .visub d a b m => some (cat 0#1 <| cat 1#1 <| cat 27#6 <| cat d <| cat a <| cat b <| cat m 1#3)
  | .vimul d a b m => some (cat 0#1 <| cat 1#1 <| cat 27#6 <| cat d <| cat a <| cat b <| cat m 2#3)
  | .vimin d a b m => some (cat 0#1 <| cat 1#1 <| cat 27#6 <| cat d <| cat a <| cat b <| cat m 3#3)
  | .vimax d a b m => some (cat 0#1 <| cat 1#1 <| cat 27#6 <| cat d <| cat a <| cat b <| cat m 4#3)
  | .vshl d a b m => some (cat 0#1 <| cat 1#1 <| cat 27#6 <| cat d <| cat a <| cat b <| cat m 5#3)
  | .vshr d a b m => some (cat 0#1 <| cat 1#1 <| cat 27#6 <| cat d <| cat a <| cat b <| cat m 6#3)
  | .vsra d a b m => some (cat 0#1 <| cat 1#1 <| cat 27#6 <| cat d <| cat a <| cat b <| cat m 7#3)
  | .viaddH d a b m => some (cat 0#1 <| cat 1#1 <| cat 28#6 <| cat d <| cat a <| cat b <| cat m 0#3)
  | .visubH d a b m => some (cat 0#1 <| cat 1#1 <| cat 28#6 <| cat d <| cat a <| cat b <| cat m 1#3)
  | .vimulH d a b m => some (cat 0#1 <| cat 1#1 <| cat 28#6 <| cat d <| cat a <| cat b <| cat m 2#3)
  | .viminH d a b m => some (cat 0#1 <| cat 1#1 <| cat 28#6 <| cat d <| cat a <| cat b <| cat m 3#3)
  | .vimaxH d a b m => some (cat 0#1 <| cat 1#1 <| cat 28#6 <| cat d <| cat a <| cat b <| cat m 4#3)
  | .vshlH d a b m => some (cat 0#1 <| cat 1#1 <| cat 28#6 <| cat d <| cat a <| cat b <| cat m 5#3)
  | .vshrH d a b m => some (cat 0#1 <| cat 1#1 <| cat 28#6 <| cat d <| cat a <| cat b <| cat m 6#3)
  | .vsraH d a b m => some (cat 0#1 <| cat 1#1 <| cat 28#6 <| cat d <| cat a <| cat b <| cat m 7#3)
  | .viaddB d a b m => some (cat 0#1 <| cat 1#1 <| cat 29#6 <| cat d <| cat a <| cat b <| cat m 0#3)
  | .visubB d a b m => some (cat 0#1 <| cat 1#1 <| cat 29#6 <| cat d <| cat a <| cat b <| cat m 1#3)
  | .vimulB d a b m => some (cat 0#1 <| cat 1#1 <| cat 29#6 <| cat d <| cat a <| cat b <| cat m 2#3)
  | .viminB d a b m => some (cat 0#1 <| cat 1#1 <| cat 29#6 <| cat d <| cat a <| cat b <| cat m 3#3)
  | .vimaxB d a b m => some (cat 0#1 <| cat 1#1 <| cat 29#6 <| cat d <| cat a <| cat b <| cat m 4#3)
  | .vshlB d a b m => some (cat 0#1 <| cat 1#1 <| cat 29#6 <| cat d <| cat a <| cat b <| cat m 5#3)
  | .vshrB d a b m => some (cat 0#1 <| cat 1#1 <| cat 29#6 <| cat d <| cat a <| cat b <| cat m 6#3)
  | .vsraB d a b m => some (cat 0#1 <| cat 1#1 <| cat 29#6 <| cat d <| cat a <| cat b <| cat m 7#3)
  | .viaddS d a b m => some (cat 0#1 <| cat 1#1 <| cat 30#6 <| cat d <| cat a <| cat b <| cat m 0#3)
  | .visubS d a b m => some (cat 0#1 <| cat 1#1 <| cat 30#6 <| cat d <| cat a <| cat b <| cat m 1#3)
  | .viaddHS d a b m => some (cat 0#1 <| cat 1#1 <| cat 30#6 <| cat d <| cat a <| cat b <| cat m 2#3)
  | .visubHS d a b m => some (cat 0#1 <| cat 1#1 <| cat 30#6 <| cat d <| cat a <| cat b <| cat m 3#3)
  | .viaddBS d a b m => some (cat 0#1 <| cat 1#1 <| cat 30#6 <| cat d <| cat a <| cat b <| cat m 4#3)
  | .visubBS d a b m => some (cat 0#1 <| cat 1#1 <| cat 30#6 <| cat d <| cat a <| cat b <| cat m 5#3)
  | .vand d a b m => some (cat 0#1 <| cat 1#1 <| cat 31#6 <| cat d <| cat a <| cat b <| cat m 0#3)
  | .vor d a b m => some (cat 0#1 <| cat 1#1 <| cat 31#6 <| cat d <| cat a <| cat b <| cat m 1#3)
  | .vxor d a b m => some (cat 0#1 <| cat 1#1 <| cat 31#6 <| cat d <| cat a <| cat b <| cat m 2#3)
  | .vandn d a b m => some (cat 0#1 <| cat 1#1 <| cat 31#6 <| cat d <| cat a <| cat b <| cat m 3#3)
  | .vcvt d a t f w => some (cat 0#1 <| cat 1#1 <| cat 32#6 <| cat d <| cat a <| cat t <| cat f w)
  | .vceq d a b m => some (cat 0#1 <| cat 1#1 <| cat 33#6 <| cat d <| cat a <| cat b <| cat m 0#3)
  | .vcne d a b m => some (cat 0#1 <| cat 1#1 <| cat 33#6 <| cat d <| cat a <| cat b <| cat m 1#3)
  | .vclt d a b m => some (cat 0#1 <| cat 1#1 <| cat 33#6 <| cat d <| cat a <| cat b <| cat m 2#3)
  | .vcle d a b m => some (cat 0#1 <| cat 1#1 <| cat 33#6 <| cat d <| cat a <| cat b <| cat m 3#3)
  | .vcun d a b m => some (cat 0#1 <| cat 1#1 <| cat 33#6 <| cat d <| cat a <| cat b <| cat m 4#3)
  | .viceq d a b m => some (cat 0#1 <| cat 1#1 <| cat 34#6 <| cat d <| cat a <| cat b <| cat m 0#3)
  | .vicne d a b m => some (cat 0#1 <| cat 1#1 <| cat 34#6 <| cat d <| cat a <| cat b <| cat m 1#3)
  | .viclt d a b m => some (cat 0#1 <| cat 1#1 <| cat 34#6 <| cat d <| cat a <| cat b <| cat m 2#3)
  | .vicle d a b m => some (cat 0#1 <| cat 1#1 <| cat 34#6 <| cat d <| cat a <| cat b <| cat m 3#3)
  | .vicltu d a b m => some (cat 0#1 <| cat 1#1 <| cat 34#6 <| cat d <| cat a <| cat b <| cat m 4#3)
  | .vicleu d a b m => some (cat 0#1 <| cat 1#1 <| cat 34#6 <| cat d <| cat a <| cat b <| cat m 5#3)
  | .mand d a b => some (cat 0#1 <| cat 1#1 <| cat 35#6 <| cat d <| cat a <| cat b 0#6)
  | .mor d a b => some (cat 0#1 <| cat 1#1 <| cat 35#6 <| cat d <| cat a <| cat b 1#6)
  | .mxor d a b => some (cat 0#1 <| cat 1#1 <| cat 35#6 <| cat d <| cat a <| cat b 2#6)
  | .mandn d a b => some (cat 0#1 <| cat 1#1 <| cat 35#6 <| cat d <| cat a <| cat b 3#6)
  | .mnot d a => some (cat 0#1 <| cat 1#1 <| cat 35#6 <| cat d <| cat a <| cat 0#6 4#6)
  | .vsel d a b m => some (cat 0#1 <| cat 1#1 <| cat 36#6 <| cat d <| cat a <| cat b <| cat m 0#3)
  | .vbcast d a m => some (cat 0#1 <| cat 1#1 <| cat 37#6 <| cat d <| cat a <| cat 0#6 <| cat m 0#3)
  | .vlid d m => some (cat 0#1 <| cat 1#1 <| cat 37#6 <| cat d <| cat 0#6 <| cat 0#6 <| cat m 1#3)
  | .vrotm d a b s => some (cat 0#1 <| cat 1#1 <| cat 38#6 <| cat d <| cat a <| cat b s)
  | .vperm d a b m => some (cat 0#1 <| cat 1#1 <| cat 39#6 <| cat d <| cat a <| cat b <| cat m 0#3)
  | .vzipl d a b m => some (cat 0#1 <| cat 1#1 <| cat 39#6 <| cat d <| cat a <| cat b <| cat m 1#3)
  | .vziph d a b m => some (cat 0#1 <| cat 1#1 <| cat 39#6 <| cat d <| cat a <| cat b <| cat m 2#3)
  | .vradd d a m => some (cat 0#1 <| cat 1#1 <| cat 40#6 <| cat d <| cat a <| cat 0#6 <| cat m 0#3)
  | .vrmax d a m => some (cat 0#1 <| cat 1#1 <| cat 40#6 <| cat d <| cat a <| cat 0#6 <| cat m 1#3)
  | .vrmin d a m => some (cat 0#1 <| cat 1#1 <| cat 40#6 <| cat d <| cat a <| cat 0#6 <| cat m 2#3)
  | .defer a n m => some (cat 0#1 <| cat 1#1 <| cat 41#6 <| cat 0#6 <| cat a <| cat n <| cat m 0#3)
  | .drain d n l => some (cat 0#1 <| cat 1#1 <| cat 42#6 <| cat d <| cat n <| cat l <| cat 0#3 0#3)
  | .drainF d n l m => some (cat 0#1 <| cat 1#1 <| cat 42#6 <| cat d <| cat n <| cat l <| cat m 1#3)
  | .prec z a b => some (cat 0#1 <| cat 1#1 <| cat 48#6 <| cat z <| cat a <| cat b 0#13)
  | .mclr z => some (cat 0#1 <| cat 1#1 <| cat 49#6 <| cat z 0#21)
  | .mmul z a b s => some (cat 0#1 <| cat 1#1 <| cat 50#6 <| cat z <| cat a <| cat b <| cat s 0#7)
  | .mmuls z a b s => some (cat 0#1 <| cat 1#1 <| cat 51#6 <| cat z <| cat a <| cat b <| cat s 0#7)
  | .mld z s => some (cat 0#1 <| cat 1#1 <| cat 52#6 <| cat z <| cat s 0#17)
  | .mst z s f h => some (cat 0#1 <| cat 1#1 <| cat 53#6 <| cat z <| cat s <| cat f <| cat 0#6 <| cat 0#5 <| cat h 0#1)
  | .mstQ z f q h => some (cat 0#1 <| cat 1#1 <| cat 53#6 <| cat z <| cat 0#4 <| cat f <| cat q <| cat 0#5 <| cat h 1#1)
  | .lease => some (cat 0#1 <| cat 1#1 <| cat 54#6 0#24)
  | .unlease => some (cat 0#1 <| cat 1#1 <| cat 55#6 0#24)
  | .histClr => some (cat 0#1 <| cat 1#1 <| cat 56#6 <| cat 0#11 <| cat 0#6 0#7)
  | .histRd q => some (cat 0#1 <| cat 1#1 <| cat 56#6 <| cat 0#11 <| cat q 1#7)
  | .ewaitX f => some (cat 0#1 <| cat 1#1 <| cat 57#6 <| cat f 0#16)
  | .esigX f => some (cat 0#1 <| cat 1#1 <| cat 58#6 <| cat f 0#16)
  | .b o => some (cat 1#1 <| cat 0#1 <| cat 0#6 o)
  | .brx d c i => some (cat 1#1 <| cat 0#1 <| cat 1#6 <| cat d <| cat c i)
  | .bra d c i => some (cat 1#1 <| cat 0#1 <| cat 2#6 <| cat d <| cat c i)
  | .call o => some (cat 1#1 <| cat 0#1 <| cat 3#6 o)
  | .ret => some (cat 1#1 <| cat 0#1 <| cat 4#6 0#24)
  | .loop d n e => some (cat 1#1 <| cat 0#1 <| cat 5#6 <| cat d <| cat n e)
  | .loopS d s e => some (cat 1#1 <| cat 0#1 <| cat 6#6 <| cat d <| cat s e)
  | .loopA d a e => some (cat 1#1 <| cat 0#1 <| cat 7#6 <| cat d <| cat a e)
  | .bar s w a => some (cat 1#1 <| cat 0#1 <| cat 8#6 <| cat s <| cat 0#1 <| cat w <| cat 0#1 <| cat a 0#12)
  | .phase s w a => some (cat 1#1 <| cat 0#1 <| cat 8#6 <| cat s <| cat 1#1 <| cat w <| cat 0#1 <| cat a 0#12)
  | .nst k d n => some (cat 1#1 <| cat 0#1 <| cat 9#6 <| cat k <| cat d <| cat 0#6 n)
  | .tend => some (cat 1#1 <| cat 0#1 <| cat 10#6 0#24)
  | .ychk o => some (cat 1#1 <| cat 0#1 <| cat 11#6 o)
  | .yield k o => some (cat 1#1 <| cat 0#1 <| cat 12#6 <| cat k <| cat 0#6 <| cat o 0#8)
  | .halt => some (cat 1#1 <| cat 0#1 <| cat 13#6 0#24)
  | .illegalInstruction => none
  | .executeData => none
  | .queueDeadlock _ => none
  | .pendingEntryDrain _ _ => none
  | .loadReadStep _ _ => none
  | .loadDataArrival _ _ => none
  | .atomicStep _ _ => none
  | .vectorAtomicLaneStep _ => none
  | .faultComplete _ _ => none
  | .faultFail _ _ => none
  | .forcedSave _ => none
  | .saveComplete _ => none
  | .contextRestore _ => none
  | .taskLaunch _ => none
  | .dispatchChoice _ => none
  | .otherDieTake _ => none
  | .promotion _ => none
  | .teamClaim _ => none
  | .teamClaimStart _ => none
  | .migrationOffer _ => none
  | .advertisement _ => none
  | .migrationAccept _ => none
  | .migration _ => none
  | .migrationAck _ => none
  | .kernelDeath _ => none
  | .kill _ => none
  | .killAckTimeout _ _ => none
  | .remoteAccess _ _ => none
  | .count _ _ => none
  | .contribution _ => none
  | .arrival .. => none
  | .stololayrWake _ _ _ => none
  | .barrierCompletion _ => none
  | .collectiveTimerAbort _ _ _ => none
  | .collectiveCompletion _ => none
  | .chainStart _ => none
  | .chainCopy _ => none
  | .copyTransaction _ => none
  | .chainLoop _ => none
  | .chainCond _ => none
  | .chainSignal _ => none
  | .chainWait _ => none
  | .chainEnd _ => none
  | .setterTakesEffect _ _ => none
  | .shareGroupTimeout _ => none
  | .arrayCommandStart _ => none
  | .arrayStep _ => none
  | .arrayCommandEnd _ => none
  | .precAtHead _ => none
  | .mclrAtHead _ => none
  | .mldAtHead _ => none
  | .mstAtHead _ => none
  | .mstElementPush _ => none
  | .histClrAtHead _ => none
  | .histRdAtHead _ => none
  | .revocationRequest _ _ => none
  | .entryHeld _ _ => none
  | .refresh _ _ _ => none
  | .entryKill _ _ => none
  | .entryFreed _ _ => none
  | .pwcInvalidate _ => none
  | .hmaskSet _ _ => none
  | .dlbWrite _ _ => none
  | .dltWrite _ _ => none
  | .dlxClear _ _ => none
  | .scrubRead _ _ => none
  | .scrubWriteBack _ => none
  | .queueTailWrite _ _ => none
  | .packetRead _ => none
  | .load _ _ => none
  | .launch _ _ => none
  | .wake _ _ => none
  | .indirect _ _ _ => none
  | .fence _ => none
  | .register _ _ => none
  | .unregister _ _ => none
  | .unknownCommand _ => none
  | .queueReset _ => none
  | .wakeRegisterWrite _ _ _ => none
  | .runStart _ _ => none
  | .runEnd _ _ => none
  | .loopNodePass _ _ => none
  | .conditionalNodeRead _ _ => none
  | .recordCopy _ => none
  | .tenantSliceEnd _ => none
  | .tenantSliceOpen _ => none
  | .quotaWindow _ => none
  | .deschedule _ => none
  | .reschedule _ => none
  | .pause _ => none
  | .migrationImageRestore _ => none
  | .virtualDeviceReset _ => none
  | .ownershipChange _ _ => none
  | .parameterRegisterWrite _ _ => none
  | .moduleReset => none
  | .verifyComplete => none
  | .recoveryImage _ => none
  | .trainingComplete _ => none
  | .powerStateChange _ _ => none
  | .clockCommand _ => none
  | .clockChange => none
  | .thermalTrip _ _ => none
  | .thermalRecovery _ => none
  | .lockedClockEnter => none
  | .lockedClockLeave => none
  | .uncorrectableError _ => none
  | .commit => none
  | .attestationReport _ => none
  | .heartbeat _ => none
  | .heartbeatTimeout _ => none
  | .checkpoint _ _ => none
  | .packageRecovery _ _ => none
  | .killAcknowledgement _ _ => none
  | .partitionCreation _ => none
  | .partitionDestruction _ => none
  | .contextCreation _ => none
  | .contextDestruction _ => none
  | .entryToActive _ => none
  | .eventRingDrain _ => none

end Sys2Proof
end

