-- ==== Sys2Proof/Machine/Num.lean ====
section
/-! DEFINITION. Number formats and conversions (R90 to R101): exact binary values, rounding to nearest even, saturation,
the float and integer formats of R26, and block floating point. -/
namespace Sys2Proof.Num

/-- The codes of R26 and R45 that name a format. -/
inductive Fmt where
  | raw32
  | fp32
  | bf16
  | fp16
  | int32
  | int16
  | uint16
  | int8
  | uint8
  | bfp
deriving DecidableEq, Repr

/-- The format of a code (R26; 9 is block floating point, R45). -/
def Fmt.ofCode : Nat → Option Fmt
  | 0 => some .raw32 | 1 => some .fp32 | 2 => some .bf16 | 3 => some .fp16 | 4 => some .int32
  | 5 => some .int16 | 6 => some .uint16 | 7 => some .int8 | 8 => some .uint8 | 9 => some .bfp
  | _ => none

/-- Element size in bytes (R26). BFP has no element size; 4 stands for the FP32 it is widened to. -/
def Fmt.size : Fmt → Nat
  | .raw32 | .fp32 | .int32 | .bfp => 4
  | .bf16 | .fp16 | .int16 | .uint16 => 2
  | .int8 | .uint8 => 1

/-- Bits of an element. -/
def Fmt.bits (f : Fmt) : Nat := 8 * f.size

/-- FP32, BF16 and FP16. -/
def Fmt.isFloat : Fmt → Bool
  | .fp32 | .bf16 | .fp16 => true
  | _ => false

/-- A signed integer format. -/
def Fmt.isSigned : Fmt → Bool
  | .int32 | .int16 | .int8 => true
  | _ => false

/-- The shape of a binary float format: exponent bits and fraction bits (R92, R95). -/
structure Shape where
  ebits : Nat
  fbits : Nat
deriving DecidableEq, Repr

/-- FP32 (R92). -/
def binary32 : Shape := ⟨8, 23⟩
/-- BF16 (R95). -/
def bfloat16 : Shape := ⟨8, 7⟩
/-- FP16 (R95). -/
def binary16 : Shape := ⟨5, 10⟩

/-- The shape of a float format; FP32 for the others, which pass through FP32. -/
def Fmt.shape : Fmt → Shape
  | .bf16 => bfloat16
  | .fp16 => binary16
  | _ => binary32

namespace Shape
/-- Exponent bias. -/
def bias (f : Shape) : Int := (2 ^ (f.ebits - 1) : Nat) - 1
/-- The exponent field of infinities and NaNs. -/
def emax (f : Shape) : Nat := 2 ^ f.ebits - 1
/-- The exponent of the last fraction place of a subnormal. -/
def emin (f : Shape) : Int := 1 - f.bias - f.fbits
/-- The sign bit's weight. -/
def signBit (f : Shape) : Nat := 2 ^ (f.ebits + f.fbits)
/-- Pattern of plus infinity. -/
def inf (f : Shape) : Nat := f.emax * 2 ^ f.fbits
/-- The canonical NaN: quiet, no payload, positive (R93, R95). -/
def nan (f : Shape) : Nat := f.inf + 2 ^ (f.fbits - 1)
/-- Pattern of the largest finite value (R94). -/
def maxF (f : Shape) : Nat := f.inf - 1
end Shape

/-- A value as a float format encodes it: NaN, an infinity, or a sign with magnitude `m * 2^e` (R92). -/
inductive FVal where
  | nan
  | inf (neg : Bool)
  | fin (neg : Bool) (m : Nat) (e : Int)
deriving DecidableEq, Repr

/-- The value a pattern encodes (R92, R95). -/
def decodeF (f : Shape) (p : Nat) : FVal :=
  let neg := p / f.signBit % 2 == 1
  let ex := p / 2 ^ f.fbits % 2 ^ f.ebits
  let fr := p % 2 ^ f.fbits
  if ex = f.emax then (if fr = 0 then .inf neg else .nan)
  else if ex = 0 then .fin neg fr f.emin
  else .fin neg (2 ^ f.fbits + fr) (f.emin + (ex - 1 : Nat))

/-- `m * 2^e` plus, when `sticky`, something above zero and below one unit of the last place, rounded to an integer multiple
of `2^q`, ties to even: the integer (R94, RoundNE). -/
def roundAt (m : Nat) (e : Int) (sticky : Bool) (q : Int) : Nat :=
  if q ≤ e then m * 2 ^ (e - q).toNat
  else
    let k := (q - e).toNat
    let fl := m / 2 ^ k
    let r := m % 2 ^ k
    let half := 2 ^ (k - 1)
    if r > half || (r = half && (sticky || fl % 2 = 1)) then fl + 1 else fl

/-- RoundFmt of a magnitude, as an unsigned pattern; a magnitude above MaxF gives a pattern of at least infinity (R94). -/
def roundMag (f : Shape) (m : Nat) (e : Int) (sticky : Bool) : Nat :=
  if m = 0 then 0
  else
    let top := e + Nat.log2 m                       -- exponent of the leading bit
    let q := max (top - f.fbits) f.emin             -- exponent of the last place kept
    let r := roundAt m e sticky q
    -- a carry out of the fraction moves the exponent field up by itself, and subnormals have field 0
    let field := (q - f.emin).toNat
    field * 2 ^ f.fbits + r

/-- The sign bit of a pattern, where `neg`. -/
def withSign (f : Shape) (neg : Bool) (p : Nat) : Nat := if neg then f.signBit + p else p

/-- Events a result adds to VST: SAT, INF, NAN (R100, R101). -/
structure Ev where
  sat : Bool
  inf : Bool
  nan : Bool
deriving DecidableEq, Repr

/-- No event. -/
def Ev.none : Ev := ⟨false, false, false⟩
/-- Events of two results together. -/
def Ev.or (a b : Ev) : Ev := ⟨a.sat || b.sat, a.inf || b.inf, a.nan || b.nan⟩
/-- Bits [2:0] of VST (R100). -/
def Ev.toBits (e : Ev) : BitVec 3 := BitVec.ofBool e.sat ++ BitVec.ofBool e.inf ++ BitVec.ofBool e.nan

/-- FpOut of R124: an IEEE result, overflowing to infinity. -/
def fpOut (f : Shape) (neg : Bool) (m : Nat) (e : Int) (sticky : Bool := false) : Nat × Ev :=
  let p := roundMag f m e sticky
  if p ≥ f.inf then (withSign f neg f.inf, ⟨false, true, false⟩) else (withSign f neg p, .none)

/-- An infinite result (R101). -/
def fpInf (f : Shape) (neg : Bool) : Nat × Ev := (withSign f neg f.inf, ⟨false, true, false⟩)
/-- A NaN result: the canonical NaN (R93, R101). -/
def fpNan (f : Shape) : Nat × Ev := (f.nan, ⟨false, false, true⟩)

/-- Encodes a value exactly held by the format's arithmetic, rounding and overflowing as FpOut does. -/
def fpEnc (f : Shape) : FVal → Nat × Ev
  | .nan => fpNan f
  | .inf n => fpInf f n
  | .fin n m e => fpOut f n m e

/-- A conversion's result: the MaxF rule in place of overflow (R98, first row). -/
def satEnc (f : Shape) : FVal → Nat × Ev
  | .nan => fpNan f
  | .inf n => (withSign f n f.maxF, ⟨true, false, false⟩)
  | .fin n m e =>
    let p := roundMag f m e false
    if p ≥ f.inf then (withSign f n f.maxF, ⟨true, false, false⟩) else (withSign f n p, .none)

/-- Sum of two signed magnitudes: the smaller exponent and the exact integer at it. -/
def addExact (n1 : Bool) (m1 : Nat) (e1 : Int) (n2 : Bool) (m2 : Nat) (e2 : Int) : Int × Int :=
  let e := min e1 e2
  let v (n : Bool) (m : Nat) (x : Int) : Int := (if n then -1 else 1) * (m * 2 ^ (x - e).toNat : Nat)
  (v n1 m1 e1 + v n2 m2 e2, e)

/-- IEEE addition of two values, exact before rounding (R93). -/
def addF : FVal → FVal → FVal
  | .nan, _ | _, .nan => .nan
  | .inf a, .inf b => if a = b then .inf a else .nan
  | .inf a, _ | _, .inf a => .inf a
  | .fin n1 m1 e1, .fin n2 m2 e2 =>
    let (s, e) := addExact n1 m1 e1 n2 m2 e2
    if s = 0 then .fin (n1 && n2) 0 e else .fin (decide (s < 0)) s.natAbs e

/-- The value with its sign inverted. -/
def negF : FVal → FVal
  | .nan => .nan
  | .inf n => .inf (!n)
  | .fin n m e => .fin (!n) m e

/-- IEEE multiplication, exact (R93). -/
def mulF : FVal → FVal → FVal
  | .nan, _ | _, .nan => .nan
  | .inf a, .inf b => .inf (a != b)
  | .inf a, .fin n m _ | .fin n m _, .inf a => if m = 0 then .nan else .inf (a != n)
  | .fin n1 m1 e1, .fin n2 m2 e2 => .fin (n1 != n2) (m1 * m2) (e1 + e2)

/-- Whether a value is zero. -/
def isZeroF : FVal → Bool
  | .fin _ m _ => m == 0
  | _ => false

/-- Strict order of values other than NaN; the zeros are equal (R136). -/
def ltF : FVal → FVal → Bool
  | .nan, _ | _, .nan => false
  | .inf a, .inf b => a && !b
  | .inf a, .fin .. => a
  | .fin .., .inf b => !b
  | .fin n1 m1 e1, .fin n2 m2 e2 => decide ((addExact n1 m1 e1 (!n2) m2 e2).1 < 0)

/-- Equality of values; NaN equals nothing, the zeros are equal (R136). -/
def eqF : FVal → FVal → Bool
  | .nan, _ | _, .nan => false
  | .inf a, .inf b => a == b
  | .fin n1 m1 e1, .fin n2 m2 e2 => decide ((addExact n1 m1 e1 (!n2) m2 e2).1 = 0)
  | _, _ => false

/-- Order in which minus zero counts below plus zero (R128, VMIN and VMAX). -/
def belowF (x y : FVal) : Bool :=
  ltF x y || (match x, y with
    | .fin true 0 _, .fin false 0 _ => true
    | _, _ => false)

/-- VMIN of R128. -/
def minF (x y : FVal) : FVal := if x = .nan || y = .nan then .nan else if belowF y x then y else x
/-- VMAX of R128. -/
def maxF (x y : FVal) : FVal := if x = .nan || y = .nan then .nan else if belowF x y then y else x

/-- A value from an exact integer. -/
def ofInt (i : Int) : FVal := .fin (decide (i < 0)) i.natAbs 0

/-- The integer a value rounds to, ties to even, before saturation; none for NaN and infinities (R94, RoundNE). -/
def roundInt : FVal → Option Int
  | .fin n m e => some ((if n then -1 else 1) * (roundAt m e false 0 : Int))
  | _ => none

/-- The range of an integer format (R90). -/
def Fmt.range (f : Fmt) : Int × Int :=
  if f.isSigned then (-(2 ^ (f.bits - 1) : Nat), (2 ^ (f.bits - 1) : Nat) - 1) else (0, (2 ^ f.bits : Nat) - 1)

/-- SatS and SatU to a format, with whether the clamp changed the value (R91). -/
def clampTo (lo hi x : Int) : Int × Bool := if x < lo then (lo, true) else if x > hi then (hi, true) else (x, false)

/-- Two's complement pattern of an integer in `n` bits. -/
def wrapBits (n : Nat) (x : Int) : Nat := (x % (2 ^ n : Nat)).toNat
/-- The signed value of an `n`-bit pattern. -/
def signExt (n p : Nat) : Int := if p % 2 ^ n < 2 ^ (n - 1) then (p % 2 ^ n : Nat) else ((p % 2 ^ n : Nat) : Int) - (2 ^ n : Nat)

/-- An integer result saturated to a format (R98). -/
def satInt (t : Fmt) (x : Int) : Nat × Ev :=
  let (y, c) := clampTo t.range.1 t.range.2 x
  (wrapBits t.bits y, ⟨c, false, false⟩)

/-- The value of an integer pattern, signed for INT formats (R91). -/
def intVal (f : Fmt) (p : Nat) : Int := if f.isSigned then signExt f.bits p else (p % 2 ^ f.bits : Nat)

/-- Conversion of one element from a format to a format, neither of them BFP (R98). RAW32 passes bytes unchanged (R26). From BF16 to FP16
and back the FP32 value between them raises nothing of its own (log 81). -/
def convert (src dst : Fmt) (p : Nat) : Nat × Ev :=
  if src = .raw32 || dst = .raw32 then (p, .none)
  else if src.isFloat then
    let v := decodeF src.shape p
    if src = dst then
      match v with
      | .nan => fpNan dst.shape
      | .inf n => fpInf dst.shape n
      | .fin .. => (p, .none)
    else if dst = .fp32 then fpEnc binary32 v
    else if dst.isFloat then satEnc dst.shape v
    else
      match v with
      | .nan => (0, ⟨true, false, false⟩)
      | .inf n => (wrapBits dst.bits (if n then dst.range.1 else dst.range.2), ⟨true, false, false⟩)
      | .fin n m e => satInt dst ((roundInt (.fin n m e)).getD 0)
  else if dst.isFloat then satEnc dst.shape (ofInt (intVal src p))
  else if src = dst then (p, .none)
  else satInt dst (intVal src p)

/-- FromBFP of one element: mantissa pattern `m` of width `w` in a block of exponent `ex`, as an FP32 value (R96, R99). -/
def fromBfp (ex w m : Nat) : FVal :=
  if ex = 255 then .nan
  else if ex = 0 then .fin false 0 0
  else
    let v := signExt w m
    if v = 0 then .fin false 0 0 else .fin (decide (v < 0)) v.natAbs ((ex : Int) - 127 - (w - 1 : Nat))

/-- ToBFP of a block of FP32 values: exponent, mantissa patterns of width `w`, events (R99). -/
def toBfp (w : Nat) (xs : List FVal) : Nat × List Nat × Ev :=
  if xs.any (fun x => match x with | .fin .. => false | _ => true) then (255, xs.map (fun _ => 0), ⟨false, false, true⟩)
  else if xs.all isZeroF then (0, xs.map (fun _ => 0), .none)
  else
    let need (x : FVal) : Int := match x with          -- smallest E with |x| < 2^(E-127)
      | .fin _ m e => if m = 0 then 1 else e + Nat.log2 m + 1 + 127
      | _ => 1
    let E := xs.foldl (fun a x => max a (need x)) 1
    let E := if E > 254 then 254 else E
    let mant (x : FVal) : Nat × Bool := match x with
      | .fin n m e =>
        let y : Int := (if n then -1 else 1) * (roundAt m e false (E - 127 - (w - 1 : Nat)) : Int)
        let (z, c) := clampTo (-(2 ^ (w - 1) : Nat)) ((2 ^ (w - 1) : Nat) - 1) y
        (wrapBits w z, c)
      | _ => (0, false)
    let r := xs.map mant
    (E.toNat, r.map (·.1), ⟨r.any (·.2), false, false⟩)

/-- Integer square root by bits: the largest `r` with `r*r ≤ n`, given that `r < 2^k`. -/
def isqrtBits (n : Nat) : Nat → Nat → Nat
  | 0, r => r
  | k + 1, r => isqrtBits n k (if (r + 2 ^ k) * (r + 2 ^ k) ≤ n then r + 2 ^ k else r)

/-- Integer square root. -/
def isqrt (n : Nat) : Nat := isqrtBits n (Nat.log2 n / 2 + 1) 0

/-- VRCP: the correctly rounded reciprocal (R130). -/
def rcpF (f : Shape) : FVal → Nat × Ev
  | .nan => fpNan f
  | .inf n => (withSign f n 0, .none)
  | .fin n 0 _ => fpInf f n
  | .fin n m e =>
    let k := Nat.log2 m + 64
    fpOut f n (2 ^ k / m) (-e - k) (decide (2 ^ k % m ≠ 0))

/-- VRSQ: the correctly rounded reciprocal square root (R130). -/
def rsqF (f : Shape) : FVal → Nat × Ev
  | .nan => fpNan f
  | .inf true => fpNan f
  | .inf false => (0, .none)
  | .fin n 0 _ => fpInf f n
  | .fin true _ _ => fpNan f
  | .fin false m e =>
    -- with e even: 1/sqrt(m*2^e) = sqrt(2^(2k)/m) * 2^(-e/2 - k)
    let m' := if e % 2 = 0 then m else 2 * m
    let e' := if e % 2 = 0 then e else e - 1
    let k := Nat.log2 m' + 64
    let q := 2 ^ (2 * k) / m'
    let r := isqrt q
    fpOut f false r (-(e' / 2) - k) (decide (r * r * m' ≠ 2 ^ (2 * k)))

/-- Fixed-point bits of the exponential and logarithm series (log 21). -/
def guardBits : Nat := 160

/-- ln 2 in fixed point, by the series of 1/(n 2^n). -/
def ln2 : Nat := (List.range 200).foldl (fun a n => a + 2 ^ guardBits / ((n + 1) * 2 ^ (n + 1))) 0

/-- e^x in fixed point for x in [0, 1), by its series. -/
def expSeries (x : Nat) : Nat :=
  ((List.range 60).foldl (fun (p : Nat × Nat) n =>
    let t := p.1 * x / 2 ^ guardBits / (n + 1)
    (t, p.2 + t)) (2 ^ guardBits, 2 ^ guardBits)).2

/-- VEXP2: 2^x rounded to nearest even from a value good to well over 100 bits (R130, log 21). -/
def exp2F (f : Shape) : FVal → Nat × Ev
  | .nan => fpNan f
  | .inf true => (0, .none)
  | .inf false => fpInf f false
  | .fin n m e =>
    let g : Nat := guardBits
    -- whole part and fraction of x; beyond the format's range the special rows of R130 apply
    if e + Nat.log2 m ≥ 9 ∧ m ≠ 0 then (if n then (0, .none) else fpInf f false)
    else
      let s : Int := (if n then -1 else 1) * (if 0 ≤ e then ((m * 2 ^ e.toNat : Nat) : Int) else (m : Int))
      let d : Nat := if 0 ≤ e then 0 else (-e).toNat
      let i : Int := s / (2 ^ d : Nat)
      let fr : Nat := (s % (2 ^ d : Nat)).toNat
      if i ≥ 128 then fpInf f false
      else if i < -150 ∨ (i = -150 ∧ fr = 0) then (0, .none)
      else if fr = 0 then fpOut f false 1 i
      else fpOut f false (expSeries (fr * ln2 / 2 ^ d)) (i - g) true

/-- Bits of log2 of a number y in [1, 2) held with `guardBits` places: one squaring per bit. -/
def log2Bits : Nat → Nat → Nat → Nat
  | 0, _, acc => acc
  | k + 1, y, acc =>
    let z := y * y / 2 ^ guardBits
    if z ≥ 2 ^ (guardBits + 1) then log2Bits k (z / 2) (2 * acc + 1) else log2Bits k z (2 * acc)

/-- VLOG2: log2 x rounded to nearest even from a value good to about 100 bits (R130, log 21). -/
def log2F (f : Shape) : FVal → Nat × Ev
  | .nan => fpNan f
  | .inf true => fpNan f
  | .inf false => fpInf f false
  | .fin _ 0 _ => fpInf f true
  | .fin true _ _ => fpNan f
  | .fin false m e =>
    let t := Nat.log2 m
    let i : Int := e + t
    let y := m * 2 ^ (guardBits - t)
    if m = 2 ^ t then fpOut f (decide (i < 0)) i.natAbs 0
    else
      -- value i + fr/2^120, never exact
      let fr := log2Bits 120 y 0
      let v : Int := i * (2 ^ 120 : Nat) + fr
      -- a negative value is truncated towards minus infinity: its magnitude is one unit less, with a sticky part
      if v < 0 then fpOut f true (v.natAbs - 1) (-120) true else fpOut f false v.natAbs (-120) true

end Sys2Proof.Num
end

