-- ==== Sys2Proof/Config.lean ====
section
/-! DEFINITION. What an implementation or its surroundings fix and the spec leaves open: free values (opaque, no body) and the
constants the model names. Each is named in the assumption log. -/
namespace Sys2Proof.Config

/-- Free value (log 11): how many requests the memory controller of near stack `s` holds at the moment numbered `n` (R168). -/
opaque stackDepth : Nat → Nat → Nat
/-- Free value (log 11): how many requests target `t` of near stack `s` holds at the moment numbered `n` (R168). -/
opaque targetDepth : Nat → Nat → Nat → Nat
/-- Free value (log 22): whether the page-walk cache still holds an entry it was given, at the moment numbered `n` (R158). -/
opaque pwcHit : Nat → Bool
/-- Free value (log 12): the bytes of the device-private region of a context image (R334). -/
opaque privateImageByte : Nat → Nat → Byte
/-- Free constant (log 13): how many records the host's event ring of a kernel holds before the host must drain it (R312). -/
opaque eventRingCapacity : Nat
/-- Uninterpreted (log 14): the Falcon-1024 signature of a report under the device identity key (R332). -/
opaque identitySignature : List Byte → List Byte
/-- Uninterpreted (log 14): the SHAKE256 digest of a byte string (R331, R332). -/
opaque shake256 : List Byte → BitVec 256
/-- Uninterpreted (log 14): whether a Falcon-1024 signature over a digest verifies under a key (R331). -/
opaque falconVerifies : List Byte → BitVec 256 → List Byte → Bool
/-- Free value (log 71): whether the port of a slow tier has accepted a store's rows by the moment numbered `n` (R192). -/
opaque portAccepts : Nat → Bool
/-- Where the model places host memory: host address h is model address hostBase + h (log 4). -/
def hostBase : Nat := 0x1000000000000
/-- Where the model places the frames of tier 3 that name memory or wake windows of other packages (log 4): index f is model address remoteBase + f. -/
def remoteBase : Nat := 0x2000000000000
/-- Where the model places the wake window of this package as partition p reaches it (log 4): model address wakeBase + 65536 * p. -/
def wakeBase : Nat := 0x3000000000000

end Sys2Proof.Config
end

