-- ==== Sys2Proof/Machine/Map.lean ====
section
/-! DEFINITION. Finite maps from Nat as lists of key and value pairs with rising keys: how State holds what the spec numbers
sparsely (cores in use, contexts, kernels, partitions, table entries). -/
namespace Sys2Proof

/-- A map from numbers: pairs in rising order of key. -/
abbrev NMap (α : Type) := List (Nat × α)

namespace NMap

/-- The value under a key. -/
def get {α : Type} : NMap α → Nat → Option α
  | [], _ => none
  | (k, v) :: m, n => if n = k then some v else get m n

/-- Sets the value under a key, keeping the keys rising. -/
def set {α : Type} : NMap α → Nat → α → NMap α
  | [], n, x => [(n, x)]
  | (k, v) :: m, n, x =>
    if n < k then (n, x) :: (k, v) :: m else if n = k then (n, x) :: m else (k, v) :: set m n x

/-- Removes a key. -/
def del {α : Type} (m : NMap α) (n : Nat) : NMap α := m.filter (fun p => p.1 ≠ n)

/-- The value under a key, or a default. -/
def getD {α : Type} (m : NMap α) (n : Nat) (d : α) : α := (m.get n).getD d

/-- Applies a function to every value. -/
def mapv {α β : Type} (m : NMap α) (f : Nat → α → β) : NMap β := m.map (fun p => (p.1, f p.1 p.2))

/-- Keys in rising order. -/
def keys {α : Type} (m : NMap α) : List Nat := m.map (·.1)

/-- The form every map keeps: keys strictly rising. -/
def sorted {α : Type} : NMap α → Bool
  | [] => true
  | [_] => true
  | (k, _) :: (k', v) :: m => decide (k < k') && sorted ((k', v) :: m)

end NMap

/-- Replaces element `i` of a list by `f` of it; a list without element `i` stays. -/
def modifyAt {α : Type} : List α → Nat → (α → α) → List α
  | [], _, _ => []
  | x :: l, 0, f => f x :: l
  | x :: l, n + 1, f => x :: modifyAt l n f

/-- Removes element `i` of a list. -/
def removeAt {α : Type} : List α → Nat → List α
  | [], _ => []
  | _ :: l, 0 => l
  | x :: l, n + 1 => x :: removeAt l n

end Sys2Proof
end

