-- ==== Sys2Proof/Machine/State.lean ====
section
/-! DEFINITION. The state of the machine: everything the spec gives one package and its surroundings (R1 to R334), as plain data. -/
namespace Sys2Proof.Machine

/-- Why the machine stops. -/
inductive Fault where
  /-- Raised by an append to a dirty log ring (R170) and by REMOTE_ACCESS (R288): a physical address that the map of R166, host memory and the
  remote windows do not hold. Safe: the machine stops where the spec gives no memory. -/
  | unmapped (addr : Nat)
deriving DecidableEq, Repr

/-- Why an instruction has no meaning. -/
inductive Refusal where
  /-- Raised by the dispatch alone, for an instruction whose meaning is not written. Safe: nothing is claimed of it. -/
  | notModelled (mnemonic : String)
deriving DecidableEq, Repr

/-- Memory: address and byte pairs, addresses strictly rising, no byte equal to what an unlisted address reads as (log 3). -/
abbrev Memory := List Host.Cell

/-- Scoreboard of an a-register (R22, R87, R213): free, awaiting a load or an atomic, awaiting an engine's write, or holding an
error word that an engine wrote (R183, R218). -/
inductive Await where
  | none
  | load
  | engine
  | error
deriving DecidableEq, Repr

/-- The access that an issuing engine holds at an entry under revocation (R165): its context and entry. -/
abbrev Held := Option (Nat × Nat)

/-- A hardware loop counter (R30, R80): count, first and last word of the body, and whether the loop is active. -/
structure LoopCtr where
  count : BitVec 32
  start : BitVec 32
  last : BitVec 32
  active : Bool
deriving DecidableEq, Repr

/-- Where a sequencer stands at an EWAIT (R223): nowhere, holding for a setter while chains run, or with a claimed target. -/
inductive EWait where
  | idle
  /-- `order` tells which of two holds on one flag began first. -/
  | holding (flag : BitVec 8) (chains : List Nat) (order : Nat)
  | claimed (flag : BitVec 8) (target : BitVec 32)
deriving DecidableEq, Repr

/-- One sequencer of a task (R15, R17, R29, R30, R78, R79). -/
structure Seq where
  /-- Word offset into the text (R15). -/
  pc : BitVec 32
  /-- Mark count (R17). -/
  marks : BitVec 32
  /-- Mark count at the start of the cycle, which the other side sees (R20). -/
  seenMarks : BitVec 32
  lc : Vector LoopCtr 3
  /-- Active loop counters, innermost first (R30). -/
  order : List Nat
  /-- Return stack, newest first, at most 16 (R78). -/
  ret : List (BitVec 22)
  /-- Entries moved out to the return area and the overflow (R79). -/
  spilled : Nat
  /-- Branch-outcome queue this side pushes, oldest first (R29). -/
  bq : List (BitVec 32)
  /-- Entries of `bq` pushed in this cycle, not yet visible (R24). -/
  bqFresh : Nat
  /-- Waiting at the B word under the pc for the other side or for a release (R145, R148, R280, R282). -/
  waiting : Bool
  /-- In a blocked state of R31 at its last attempt of this cycle. -/
  blocked : Bool
  /-- Queue of the QFLUSH under the pc that has pushed some of its zero elements, not yet all (R28, R150). -/
  flushing : Option Nat
  /-- Has completed a word, or raised a trap, in this cycle. -/
  issued : Bool
  /-- The WRS that this side has issued in this cycle: register and value (R276). -/
  wrs : Option (Nat × Word64)
  ewait : EWait
  /-- The access under the pc, held (R165). -/
  held : Held
deriving DecidableEq, Repr

/-- A queue's control state (R24 to R28, R334); its elements lie in the pool. -/
structure QState where
  /-- Elements present, reserved slots included. -/
  occ : Nat
  /-- Slot of the head element. -/
  head : Nat
  /-- Slots reserved by loads whose data has not arrived (R198). -/
  awaiting : List Nat
  /-- Byte position in the head (R25, R27). -/
  p : Nat
  /-- Producer's group count (R28). -/
  g : Nat
  /-- Elements pushed in this cycle (R24). -/
  fresh : Nat
  /-- Slots freed in this cycle (R24). -/
  freed : Nat
  /-- Reserved slots whose data has arrived in this cycle (R87). -/
  arrived : List Nat
deriving DecidableEq, Repr

/-- A stream register (R219, R334). -/
structure StreamReg where
  bound : Bool
  handle : Word32
  desc : BitVec 512
  /-- Elements already delivered or written. -/
  pos : Nat
  /-- Share group it belongs to (R222). -/
  share : Option Nat
deriving DecidableEq, Repr

/-- Bits of the sticky status registers that events have set in this cycle: they outlast a W1C write of the cycle (R101, R163, R276). -/
structure Raised where
  stat : BitVec 7
  tks : BitVec 6
  vst : BitVec 3
  zst : BitVec 16
deriving DecidableEq, Repr

/-- The three counts of a flag (R223). -/
structure Flag where
  pushed : BitVec 32
  claimed : BitVec 32
  done : BitVec 32
deriving DecidableEq, Repr

/-- A pushed setter: its flag and the engine commands that must complete before it takes effect (R223). -/
structure Setter where
  flag : BitVec 8
  deps : List Nat
deriving DecidableEq, Repr

/-- A command of the matrix queue (R242). -/
inductive MOp where
  | mmul (sparse : Bool) (z sa sb : Nat) (dim : BitVec 64)
  | mld (z st : Nat)
  | mst (z st : Nat) (hist : Bool)
  /-- `pushed` elements have entered the queue (R249, R251). -/
  | mstQ (z fmt q : Nat) (hist : Bool) (pushed : Nat)
  | prec (z : Nat) (wa wb : BitVec 4)
  | mclr (z : Nat)
  | histClr
  | histRd (q : Nat)
deriving DecidableEq, Repr

/-- A queued matrix command with its number. -/
structure MCmd where
  id : Nat
  op : MOp
  /-- ZEXP of its tile when it was pushed: the one value that it sees (R103). -/
  zexp : BitVec 16
deriving DecidableEq, Repr

/-- Thirty-two consecutive elements as a stream holds them (R221). -/
structure Block where
  pats : List Nat
  /-- The exponent, for BFP. -/
  ex : Nat
  /-- Elements that the stream really holds; the rest are zeros beyond its end. -/
  real : Nat
deriving DecidableEq, Repr

/-- Reads of an engine under way, one row transaction at a time (R182). -/
structure RowReads where
  /-- Every part still to read: which number it belongs to, how many bytes of that lie before it, its byte offset and its length. -/
  todo : List (Nat × Nat × Int × Nat)
  /-- The numbers, as far as they have been read. -/
  got : List Nat
  tks : BitVec 6
deriving DecidableEq, Repr

/-- Reads of consecutive blocks of a stream, or of the metadata words of a step: the first, how many, and how far they have come (R182,
R221, R230). -/
structure BlockReads where
  first : Nat
  count : Nat
  reads : RowReads
deriving DecidableEq, Repr

/-- A write of an engine still to make (R182): byte offset and length, its data, the Accord bin that a written value counts in (R108),
and whether any byte of it has been written. -/
structure RowWrite where
  off : Int
  n : Nat
  data : Nat
  bin : Option Nat
  wrote : Bool
deriving DecidableEq, Repr

/-- How far the command at the head of a matrix queue has come in its step (R182, R228, R247, R248). -/
structure MatrixWork where
  /-- Reads of the blocks or metadata words that come next. -/
  reads : Option BlockReads
  /-- Metadata words of a sparse step. -/
  md : List Nat
  /-- Blocks that the A stream and the B stream have delivered for the step. -/
  a : List Block
  b : List Block
  /-- Blocks that an MLD has loaded, or an MST has taken. -/
  blocks : Nat
  /-- Writes of an MST's blocks still to make. -/
  writes : List RowWrite
deriving DecidableEq, Repr

/-- The lease state of a core's task (R224). -/
inductive Lease where
  | none
  | waiting
  | holding
deriving DecidableEq, Repr

/-- A collective command waiting to be read by the engine (R238). -/
structure CollCmd where
  id : Nat
  scope : Scope
  kind : Nat
  /-- Token through which the descriptor is read: the owner's k0. -/
  k0 : Word32
  off : BitVec 64
  rb : Nat
  /-- Its descriptor once read, and the reads of its source under way (R182). -/
  work : Option (BitVec 512 × RowReads)
  /-- Set once its descriptor and source have been read. -/
  read : Bool
  /-- Its reads, held (R165). -/
  held : Held
deriving DecidableEq, Repr

/-- A physical row part (R171): the ranges of physical addresses that its bytes are stored in, one where its page has no swizzle
(R153). -/
abbrev Row := List (Nat × Nat)

/-- A pending store: the bytes of one physical row part (R173, R174). -/
structure Store where
  row : Row
  cells : List Host.Cell
  priv : Bool
  ctx : Nat
  ent : Nat
  /-- Number of the access that made it, for INFL (R161). -/
  acc : Nat
  /-- An STS through a wake window (R306): the register, from 8,192 on one of a peer package, and the value. -/
  wake : Option (Nat × BitVec 64)
deriving DecidableEq, Repr

/-- Part of an access within one row of one page: the row part, and index in the access and physical address of every byte. -/
structure Piece where
  row : Row
  bytes : List (Nat × Nat)
deriving DecidableEq, Repr

/-- Where the data of a load goes. -/
inductive LoadDest where
  | areg (n : Nat)
  | slot (q i : Nat)
deriving DecidableEq, Repr

/-- A load or gather in flight (R175, R197, R199). -/
structure LoadFlight where
  acc : Nat
  ent : Option Nat
  todo : List Piece
  got : Image
  dest : LoadDest
  /-- A slow access that holds A (R192). -/
  slow : Bool
deriving DecidableEq, Repr

/-- A scalar atomic in flight (R176, R200). -/
structure AtomicFlight where
  acc : Nat
  ent : Nat
  /-- The element's bytes; two parts where it crosses a page. -/
  parts : List Piece
  op : AOp
  bytes : Nat
  v : Word64
  cmp : Word64
  d : Nat
  slow : Bool
deriving DecidableEq, Repr

/-- A vector atomic in flight: the lanes still to step, in ascending order (R201). -/
structure VatomFlight where
  acc : Nat
  ent : Nat
  lanes : List (List Piece × Word32)
  op : AOp
  fp : Bool
  slow : Bool
deriving DecidableEq, Repr

/-- What an owed write does once every page it touches is logged (R189). -/
inductive OwedWrite where
  | stores (es : List Store)
  | atomic (f : AtomicFlight)
  | vatom (f : VatomFlight)
  /-- The decrement of a JOIN at an offset, its word's handle read (R121). -/
  | join (off : Nat)
deriving DecidableEq, Repr

/-- A write of the word under A's program counter that is past step 4 of R189, its pops made and counted in INFL, while pages are still
to be logged (R170, R189): access number, entry, and the byte ranges whose pages are not yet known to be logged. -/
structure Owed where
  acc : Nat
  ent : Nat
  todo : List (Nat × Nat)
  write : OwedWrite
deriving DecidableEq, Repr

/-- A write of a k-register that waits for earlier names (R195): a value, or the name of an NST whose halves are counted. -/
inductive NameWrite where
  /-- `ordered` marks the name of an NST or NST.Q, which reaches its register after every earlier such name (R203). -/
  | value (k : BitVec 4) (h : Word32) (ordered : Bool)
  /-- An NST whose A half has completed at the given mark count of A; its X half has not. -/
  | nst (k : BitVec 4) (n : Nat) (mark : BitVec 32)
deriving DecidableEq, Repr

/-- An NST whose X half completed before its A half: images taken at the given mark count (R203). -/
structure NstHalf where
  k : BitVec 4
  imgs : List Image
  mark : BitVec 32
deriving DecidableEq, Repr

/-- A task's registers and everything else the spec gives one task (R21, R33, R260, R272). -/
structure Task where
  /-- The member number of the task; the model's own. -/
  uid : Nat
  kid : Nat
  ctx : Nat
  part : Nat
  /-- The record it started from (R111). -/
  record : Rec
  /-- Whether the frame was usable at its start (R259). -/
  frameOk : Bool
  partw : BitVec 22
  doms : BitVec 52
  a : Vector Word64 32
  aAwait : Vector Await 32
  k : Vector Word32 16
  names : List NameWrite
  nstX : List NstHalf
  sr : Vector Word64 32
  m : Vector Mask 8
  q : Vector QState 8
  qfmt : Vector (BitVec 8) 8
  zexp : Vector (BitVec 16) 8
  zpw : Vector (BitVec 9) 8
  slipw : BitVec 7
  stat : BitVec 7
  tks : BitVec 6
  vst : BitVec 3
  zst : BitVec 16
  raised : Raised
  spk : BitVec 32
  spov : BitVec 32
  /-- DQB.BASE and DQL.CAP, set from PARTW at launch (R122). -/
  dqb : BitVec 22
  dql : BitVec 17
  dqHead : BitVec 17
  dqCount : BitVec 17
  mprog : BitVec 36
  yreq : BitVec 42
  /-- YREQ.PEND as it stood at the start of the cycle, which YCHK sees (R279). -/
  yseen : Bool
  /-- Number of the record that caused the pending request (R265); the model's own. -/
  ycause : Nat
  bins : Vector (BitVec 32) 256
  flags : NMap Flag
  setters : List Setter
  streams : Vector StreamReg 16
  mq : List MCmd
  /-- The array command at the head has started (R229). -/
  mstart : Bool
  mwork : MatrixWork
  /-- A read or write of the array command at the head, held (R165). -/
  mheld : Held
  lease : Lease
  cq : List CollCmd
  pb : BitVec 28
  seqA : Seq
  seqX : Seq
  stores : List Store
  loads : List LoadFlight
  atomics : List AtomicFlight
  vatom : Option VatomFlight
  owed : Option Owed
  /-- A store of CLASS 3, by its number, whose rows the port has not accepted: it holds A (R192). -/
  port : Option Nat
  /-- A JOIN or SPAWN has made its step and waits for room in a ring (R113, R144). -/
  push : Option Rec
deriving DecidableEq, Repr

/-- An active loop of a chain (R217). -/
structure ChainLoop where
  /-- Index of the LOOP entry. -/
  index : Nat
  back : Nat
  count : Nat
  iter : Nat
  sadv : Int
  dadv : Int
deriving DecidableEq, Repr

/-- A copy transaction under way (R216), past TokenCheck and counted in INFL (R161): of each token the entry, the first byte inside, the
bytes inside; bytes of the transaction, bytes read and what they hold, bytes written. -/
structure CopyTx where
  src : Option (Nat × Nat × Nat)
  dst : Option (Nat × Nat × Nat)
  n : Nat
  got : Nat
  data : Nat
  put : Nat
deriving DecidableEq, Repr

/-- A COPY entry in progress (R215, R216). -/
structure CopyRun where
  stok : Word32
  dtok : Word32
  soff : Int
  doff : Int
  len : Nat
  rcv : Nat
  /-- Bound, source stride, destination stride of dimensions 1 to ND. -/
  dims : List (Nat × Int × Int)
  idx : List Nat
  x : Nat
  /-- Entries it takes, its SHAPE entries included. -/
  span : Nat
  tx : Option CopyTx
deriving DecidableEq, Repr

/-- A copy chain (R214 to R218). -/
structure Chain where
  id : Nat
  uid : Nat
  kid : Nat
  ctx : Nat
  /-- Token through which entries are read: the owner's k0. -/
  k0 : Word32
  head : BitVec 64
  /-- Completion register, 0 for none. -/
  rb : Nat
  started : Bool
  /-- A COPY of it has read or written its core's pool (R145). -/
  pooled : Bool
  /-- Index of the entry being run. -/
  at_ : Nat
  loops : List ChainLoop
  /-- Entries kept as first read, by index (R217). -/
  kept : NMap (BitVec 256)
  run : Option CopyRun
  /-- Target of a WAIT entry that holds the chain. -/
  wait : Option (BitVec 8 × BitVec 32)
  /-- Step 5 of a save has found pool work in it: the save waits for its completion (R262). -/
  ending : Bool
  /-- The read of an entry or the transaction that comes next, held (R165). -/
  held : Held
deriving DecidableEq, Repr

/-- What a core does (R262, R268). -/
inductive Mode where
  | idle
  | run
  /-- A save is in progress; `susp` for a translate miss (R264). -/
  | save (susp : Bool)
  /-- A restored task whose pool part is not in place yet (R267). -/
  | restore
  /-- Stopped by a trap or by kernel death (R32, R268). -/
  | stopped
deriving DecidableEq, Repr

/-- One member of a saved team (R260, R266): its task as saved, its pool lines, and whether it had ended. -/
structure SavedTask where
  task : Task
  written : BitVec 1536
  ended : Bool
  /-- The written lines that migration messages have brought, with the header (R293); none while the frame holds the image. -/
  lines : Option (List (Nat × Nat))
  /-- Writes that reached the image while its frame's entry was under revocation stand in `task` alone, until the refresh (R165, R263). -/
  owes : Bool
deriving DecidableEq, Repr

/-- Where a continuation record is (R113, R118, R119, R264, R293). -/
inductive RecPlace where
  | ring
  /-- Waits for room in its full ring, its push under way. -/
  | held
  /-- Held on its partition's fault list with the missing address, the member whose TRANS missed it, and whether only REDUCED made the
  miss (R325). -/
  | fault (va : BitVec 64) (uid : Nat) (reduced : Bool)
  /-- Offered to another die: its candidate number (R292). -/
  | offered (candidate : Nat)
  /-- Accepted by the die of a candidate number; the message has arrived when `delivered`. -/
  | moving (candidate : Nat) (delivered : Bool)
  /-- No record yet: the claim of a die that has accepted a peer's offer, by package and number, until the record arrives (R293). -/
  | awaited (pkg number : Nat)
deriving DecidableEq, Repr

/-- A continuation record that waits, with what the dispatcher knows of it (R113, R114, R118). -/
structure RingRec where
  /-- Number of the record; the model's own. -/
  id : Nat
  record : Rec
  part : Nat
  ctx : Nat
  die : Nat
  /-- The level at which it waits (R114). -/
  level : Nat
  stamp : BitVec 40
  /-- Members of a saved team, when IMG = 1. -/
  img : List SavedTask
  /-- Launch group (R147). -/
  group : Option Nat
  place : RecPlace
  /-- Cycle since which it has stood unplaced at the head of the highest level (R118). -/
  headSince : Option (BitVec 64)
  /-- Cores claimed for it (R118). -/
  claim : List Nat
  /-- Number of its latest offer, where that went to a peer (R292). -/
  offer : Option Nat
deriving DecidableEq, Repr

/-- One core (R3, R119). -/
structure Core where
  mode : Mode
  task : Task
  /-- Record staged in the shadow slot (R119). -/
  shadow : Option RingRec
  /-- Record that claims the core (R118). -/
  claim : Option Nat
  /-- Record from which the running task was restored: the lines still to come. -/
  restoring : Option SavedTask
  /-- Level at which the running task was dispatched. -/
  level : Nat
  /-- Launch group of the running task. -/
  group : Option Nat
  /-- Written bit of each pool line (R261). -/
  written : BitVec 1536
  /-- Consecutive cycles with both sequencers blocked and no activity (R31). -/
  blockedFor : Nat
  /-- Consecutive cycles idle without candidate (R116). -/
  idleFor : Nat
  /-- Cycle in which it last became idle (R116). -/
  idleSince : BitVec 64
  chains : List Chain
  /-- The frame access of a save or a restore, held (R165, R259). -/
  held : Held
  /-- The lease state that step 4 of the save in progress has recorded (R262). -/
  keptLease : Option Lease
  /-- The suspension in progress is for a miss made in REDUCED (R264, R325). -/
  missedReduced : Bool
deriving DecidableEq, Repr

/-- A page of a pinned extent (R158, R161). -/
structure Frame where
  /-- Page size in bytes: 2^16 or 2^21; the last page of a constant extent ends with it (log 7). -/
  size : Nat
  phys : Nat
  dte : Bool
  swz : Nat
  /-- Physical address of the leaf entry, for its DIRTY bit (R170); none for the constant extent. -/
  leaf : Option Nat
  /-- A wake window (R306). -/
  wake : Bool
  /-- The leaf's DIRTY bit as it counts for the pinned page (R170): as found at the pin or the refresh, or set since. -/
  dirty : Bool
deriving DecidableEq, Repr

/-- States of a PET entry (R161). -/
inductive PetState where
  | free | active | quiescing | held | dead | freeing | quarantined
deriving DecidableEq, Repr

/-- Origins of a PET entry (R161). -/
inductive Origin where
  | translated | anonymous | scratchpad
deriving DecidableEq, Repr

/-- An entry of the pinned extent table (R161). -/
structure PetEntry where
  state : PetState
  origin : Origin
  r : Bool
  w : Bool
  priv : Bool
  cmp : Bool
  cls : Nat
  tier : Nat
  gen : BitVec 12
  kid : Nat
  infl : Nat
  len : Nat
  frames : List Frame
  /-- Anonymous: first granule's address; scratchpad: pool address of SCB; translated: first word of its run in the frame-list area. -/
  base : Nat
  /-- Package core whose pool a scratchpad entry names. -/
  core : Nat
  va : BitVec 64
  /-- Member that created it (R162). -/
  owner : Nat
  /-- A free recorded while QUIESCING or HELD (R164). -/
  freeLater : Bool
deriving DecidableEq, Repr

/-- A context with its address space (R157, R160, R193). -/
structure Context where
  part : Nat
  hostRoot : Nat
  devRoot : Nat
  /-- The pinned extent table: its place in the near tier, and its entries (R161). -/
  petAt : Nat
  petSize : Nat
  /-- The frame-list area: its place in the near tier, and its capacity in words (R193). -/
  listAt : Nat
  listCap : Nat
  pet : NMap PetEntry
  /-- Page-walk cache: pointer entries by their physical address (R158). -/
  pwc : NMap (BitVec 64)
deriving DecidableEq, Repr

/-- A record of a record area, with the incarnation stamped beside it (R257, R319). -/
structure AreaRec where
  words : Rec
  incarnation : BitVec 16
deriving DecidableEq, Repr

/-- A kernel's death in progress (R268, R290). -/
structure Death where
  core : Nat
  cause : BitVec 8
  /-- The cause is the 0x14 of a suspension that no usable frame lets in, which any kill of the other side outranks (R32, R259). -/
  weak : Bool
  absorbed : Nat
  tasks : Nat
  freed : Nat
  /-- Steps 1 to 4 of R268 are done here. -/
  swept : Bool
  /-- Packages whose acknowledgement is awaited. -/
  acks : List Nat
  /-- Cycle in which the kill messages were sent. -/
  since : BitVec 64
deriving DecidableEq, Repr

/-- A loaded kernel (R49, R52, R151, R257, R304). -/
structure Kernel where
  ctx : Nat
  /-- Near-tier address of word 0 of the text. -/
  textAt : Nat
  /-- Text length in words. -/
  textLen : Nat
  /-- DATA headers with their bodies: first word and number of words, in text order (R49). -/
  data : List (Nat × Nat)
  /-- Offsets of the executable B words, rising: they number the mark intervals (R49). -/
  marks : List Nat
  partw : BitVec 22
  constAt : Nat
  constVa : BitVec 64
  constLen : Nat
  /-- Offset and length of the parameter block in the constant extent. -/
  param : Option (Nat × Nat)
  recLog : Nat
  area : List AreaRec
  /-- Records dropped on a full area (R257). -/
  dropped : Nat
  /-- Records in the host's event ring that the host has not drained (R312). -/
  hostRing : List Rec
  dying : Option Death
  /-- Deaths of the kernel that have swept this package: an offer made before one of them is declined (R293). -/
  deaths : Nat
  /-- Text and constant extent in the staging memory of REDUCED, until FULL moves them to their places (R325). -/
  staged : Option (List Word32 × List Byte)
deriving DecidableEq, Repr

/-- States of a virtual device (R318). -/
inductive VState where
  | running | descheduled | paused | resetting
deriving DecidableEq, Repr

/-- A partition with its parameters and its virtual device (R113, R115, R313, R316 to R322). -/
structure Partition where
  packages : List Nat
  pkgIdx : Nat
  ringLog : List Nat
  own : Ownership
  pwgt : BitVec 5
  pqcyc : BitVec 64
  pqbit : BitVec 64
  pqwin : BitVec 40
  age : BitVec 40
  migt : BitVec 40
  colt : BitVec 40
  ydl : BitVec 32
  lbud : BitVec 32
  anqt : BitVec 8
  useCyc : Nat
  useBit : Nat
  /-- Number of the quota window whose use is counted (R317). -/
  window : Nat
  inSlice : Bool
  vstate : VState
  /-- A deschedule has begun and its tasks are ending or being saved (R318). -/
  closing : Bool
  incarnation : BitVec 16
  stale : Nat
  dlb : BitVec 64
  dlh : BitVec 32
  dlt : BitVec 32
  /-- TAIL at the start of the cycle: a write of it makes room from the next cycle (R322). -/
  dltSeen : BitVec 32
  dlx : BitVec 1
  /-- Writers held on the full ring, in the order in which they were held (R322): core numbers, and 512 plus the core for its copy engine. -/
  dirtyHeld : List Nat
  /-- Granules of the anonymous regions in use, by physical address divided by 4096 (R168). -/
  granules : List Nat
  /-- Cycle in which a PHASE.X instance of the partition last completed (R297). -/
  phasedAt : Option (BitVec 64)
deriving DecidableEq, Repr

/-- A completion-ring entry of a command queue (R301). -/
structure Completion where
  seqNo : Nat
  status : Nat
  value : BitVec 64
deriving DecidableEq, Repr

/-- A host command queue (R301 to R303). -/
structure CmdQueue where
  part : Nat
  ctx : Nat
  /-- Ring base in host memory and log2 of its packets, and base of its completion ring. -/
  base : Nat
  log : Nat
  doneAt : Nat
  dies : List Nat
  tail : Nat
  /-- Packets of the ring already read. -/
  readPos : Nat
  /-- Blocks read and not yet in effect, with their depth. -/
  fetched : List (BitVec 512 × Nat)
  /-- Buffers being taken: next address, bytes left, depth; innermost first. -/
  buffers : List (Nat × Nat × Nat)
  /-- Nothing further is read until the FENCE or INDIRECT at the head of `fetched` takes effect. -/
  stopped : Bool
  halted : Bool
  seqNo : Nat
  completions : List Completion
  /-- Launch groups its packets started. -/
  groups : List Nat
  /-- Launch groups whose records the LAUNCH or WAKE under way is pushing (R320). -/
  launching : List Nat
deriving DecidableEq, Repr

/-- An edge of a registered graph at work (R309). -/
structure GraphEdge where
  src : Nat
  dst : Nat
  cap : Nat
  free : Nat
  items : Nat
deriving DecidableEq, Repr

/-- A node of a registered graph at work (R309, R310). -/
structure GraphNode where
  desc : NodeDesc
  /-- Launch group of its run, when one is in progress. -/
  run : Option Nat
  /-- A run of a loop or conditional node is in progress. -/
  busy : Bool
  /-- Enabled: a first node of a loop's body in a new pass, or a successor without an edge that a conditional node chose (R310). -/
  enabled : Bool
  /-- Passes still to begin (loop node). -/
  trips : Nat
  /-- Root: pending wakes that its runs have already taken (R309). -/
  taken : Nat
  /-- The read of a conditional node, held (R165). -/
  held : Held
deriving DecidableEq, Repr

/-- A registered graph (R308, R309). -/
structure Graph where
  part : Nat
  ctx : Nat
  gen : BitVec 12
  resident : Bool
  nodes : List GraphNode
  edges : List GraphEdge
  dies : List Nat
  wakes : Nat
  /-- For each pending wake, oldest first, the command queue whose packet it is (R303). -/
  sources : List (Option Nat)
  wakeErrors : Nat
  registered : Bool
deriving DecidableEq, Repr

/-- A launch group (R147). -/
structure Group where
  part : Nat
  /-- The kernel of its tasks. -/
  kid : Nat
  /-- Tasks of the group that have not ended, on this package and the others, records included. -/
  live : Nat
  /-- Records of it that are unplaced on other packages (R147). -/
  open_ : Nat
  /-- Those of them that migrate with tasks that have not started (R296). -/
  moving : Nat
deriving DecidableEq, Repr

/-- What the machine keeps of a task as a member of its barrier groups, for as long as the groups may ask (R147 to R149). -/
structure Member where
  kid : Nat
  part : Nat
  team : Nat
  tidx : Nat
  width : Nat
  height : Nat
  group : Option Nat
  /-- Core of its first start: below 512 on this package, else 512 times one more than the package's index, and the core there. -/
  core : Nat
  /-- Instances joined at each scope (R148). -/
  joined : Vector (BitVec 32) 5
  /-- Scope of the barrier it has arrived at. -/
  arrived : Option Scope
  /-- Its barrier completed while it was saved (R149). -/
  released : Bool
  /-- Collective instances joined at each scope (R231). -/
  colls : Vector (BitVec 32) 5
  ended : Bool
  /-- Saved, suspended or migrating (R296). -/
  away : Bool
  /-- Flags and setters that the ended task leaves to the chains that run on (R145, R223). -/
  flags : NMap Flag
  setters : List Setter
  /-- Package that runs it, when it is another. -/
  pkg : Option Nat
  /-- The core whose pool it left by HALT: later writes of its collectives into that pool are discarded (R282). -/
  halted : Option Nat
  /-- The peers have been told that its own conditions hold at the barrier that it has arrived at (R148, R288). -/
  told : Bool
deriving DecidableEq, Repr

/-- Identity of a barrier or collective group: a kind of domain, its number, and the part of it (R147). -/
structure GroupKey where
  scope : Scope
  id : Nat
  part : Nat
deriving DecidableEq, Repr

/-- A timer of a barrier or collective instance of scope .P or .X (R296). -/
structure Timer where
  key : GroupKey
  n : BitVec 32
  coll : Bool
  cycles : Nat
  aborted : Bool
deriving DecidableEq, Repr

/-- A member's contribution to a collective instance (R231). -/
structure Contrib where
  uid : Nat
  kid : Nat
  ctx : Nat
  part : Nat
  rank : Nat
  cmd : Nat
  kind : Nat
  rb : Nat
  desc : BitVec 512
  source : List Byte
deriving DecidableEq, Repr

/-- What a completed instance still owes a member (R182, R231): the bytes to write, each part from an offset on, then VST and its word. -/
structure CollPart where
  dest : Contrib
  todo : List (Nat × List Byte)
  vst : BitVec 3
deriving DecidableEq, Repr

/-- A collective instance (R231). -/
structure CollInst where
  key : GroupKey
  n : BitVec 32
  contribs : List Contrib
  /-- Its completion under way, members in ascending rank. -/
  work : Option (List CollPart)
  /-- A write of its completion, held (R165). -/
  held : Held
deriving DecidableEq, Repr

/-- A share group of a quad (R222). -/
structure ShareGroup where
  quad : Nat
  ctx : Nat
  handle : Word32
  desc : BitVec 512
  /-- Package cores and stream numbers that have bound. -/
  members : List (Nat × Nat)
  started : Bool
  since : BitVec 64
  /-- Blocks that the distributor has read, once for all members. -/
  kept : NMap Block
  /-- Reads of the distributor under way. -/
  reads : Option BlockReads
deriving DecidableEq, Repr

/-- A quad's matrix array (R224). -/
structure Quad where
  holder : Option Nat
  budget : Int
deriving DecidableEq, Repr

/-- A level's round-robin pointer and count (R116). -/
structure RoundRobin where
  part : Option Nat
  count : Nat
deriving DecidableEq, Repr

/-- A core die (R116, R291, R326). -/
structure Die where
  rr : Vector RoundRobin 4
  power : PowerState
  /-- Its entry to ACTIVE is under way. -/
  entering : Bool
  /-- Placements advertised (R291). -/
  adverts : List Advert
  /-- What its thermal sensor read last, in °C (R328). -/
  temp : Nat
deriving DecidableEq, Repr

/-- A Stololayr message to a peer package (R288), or what else this package sends to peers (R291, R293, R298). `part` is the partition in
whose security domain it travels (R300, R315). -/
inductive Msg where
  /-- A member arrives at an instance, or, having arrived, meets its own conditions there (R148). -/
  | arrival (part group member : Nat) (sc : Scope) (n : BitVec 32) (met : Bool)
  | count (part pkg member n : Nat)
  | contribution (part pkg : Nat) (c : PeerContrib)
  /-- A record handed over to a die of a peer, with its images. -/
  | migration (pkg : Nat) (r : PeerRecord)
  /-- An offer of a record (R292); the accepting, declining and acknowledging answers, and the end of an offer, by its number (R293). -/
  | migrationOffer (pkg : Nat) (o : PeerOffer)
  | migrationAccept (part pkg number : Nat)
  | migrationDecline (part pkg number : Nat)
  | migrationWithdraw (part pkg number : Nat)
  | migrationAck (part pkg number : Nat)
  /-- A launch group begins, of a kernel, with so many records and tasks; a record of it has started at package indexes and cores; one migrates,
  or does so no longer (R147, R293, R296, log 47). -/
  | launched (part group key records tasks : Nat)
  | started (part group : Nat) (places : List (Nat × Nat))
  | migrating (part group : Nat) (unstarted on : Bool)
  /-- An instance whose group's part starts on the package of index `place` is aborted (R296). -/
  | aborted (part group : Nat) (sc : Scope) (place n : Nat) (coll : Bool)
  /-- A member of a group that spans packages is saved here, or is so no longer (R296). -/
  | away (part member : Nat) (away : Bool)
  /-- A member of a group that spans packages has ended (R148, log 47). -/
  | ended (part member : Nat)
  | advertisement (part pkg die : Nat) (adverts : List Advert)
  | kill (pkg kid : Nat)
  | killAck (kid : Nat)
  | wake (part pkg reg : Nat) (value : BitVec 64)
  | readData (bytes : List Byte)
  | writeAck
  | fetched (old : BitVec 64)
  | heartbeat (pkg : Nat)
  | uncorrectable (pkg : Nat)
  /-- To package `pkg`: package `failed` counts as failed (R298). -/
  | packageFailed (pkg failed : Nat)
deriving DecidableEq, Repr

/-- What the front end and the security block report to system software or the host. -/
inductive Notice where
  /-- A request was rejected, named by its opcode-table row. -/
  | rejected (what : String)
  /-- A request was carried out. -/
  | done (what : String)
  | entryHeld (ctx entry : Nat)
  | pageMissing (part ctx : Nat) (va : BitVec 64)
  | dirtyExit (part : Nat)
  | stackFailed (stack : Nat)
  | thermal (die : Nat)
  | uncorrectable
  | packageFailed (pkg : Nat)
  | report (bytes : List Byte)
deriving DecidableEq, Repr

/-- Stages of bring-up (R324). -/
inductive Stage where
  | verify | recovery | reduced | full
deriving DecidableEq, Repr

/-- A checkpoint (R297): task images with the cores they stood on, waiting records, memory ranges with what they held, and the tables
and counts that the tasks resume with (R299). -/
structure Checkpoint where
  part : Nat
  tasks : List (Nat × SavedTask)
  records : List RingRec
  ranges : List (Nat × Nat × List Host.Cell)
  contexts : NMap Context
  members : NMap Member
  groups : NMap Group
  areas : NMap (List AreaRec)
  collectives : List CollInst
  timers : List Timer
  /-- Records in the hosts' event rings, and records dropped, by kernel (R257, R299, R312). -/
  hostRings : NMap (List Rec × Nat)
  granules : List Nat
deriving DecidableEq, Repr

/-- A virtual device's migration image (R318). -/
structure MigrationImage where
  part : Nat
  partition : Partition
  records : List RingRec
  contexts : NMap Context
  kernels : NMap Kernel
  queues : NMap CmdQueue
  graphs : NMap Graph
  members : NMap Member
  groups : NMap Group
  timers : List Timer
  collectives : List CollInst
  /-- Chains of its tasks that run on, by core (R263). -/
  chains : NMap (List Chain)
  /-- Page tables of its address spaces (R157, R318): base, bytes, and what they hold. -/
  tables : List (Nat × Nat × List Host.Cell)
  cells : List Host.Cell
deriving DecidableEq, Repr

/-- Counters of one check point (R330), and of a port the packets dropped for their delivery mode (R300). -/
structure CheckCounter where
  unc : BitVec 16
  cor : BitVec 32
  dropped : Nat
deriving DecidableEq, Repr

/-- The device outside its cores (R4, R324 to R332). -/
structure Device where
  stage : Stage
  /-- Commanded and present arithmetic clock in MHz (R4, R327). -/
  commanded : Nat
  clock : Nat
  locked : Bool
  /-- Trip temperature in °C (R328). -/
  trip : Nat
  /-- What the hub die's thermal sensor read last, in °C (R1, R328). -/
  hubTemp : Nat
  /-- Dispatch stopped after a trip in locked mode. -/
  dispatchStopped : Bool
  /-- An uncorrectable error has made this a failed package (R330). -/
  halted : Bool
  /-- Fused security counter, 0 to 64 (R331). -/
  fuses : Nat
  /-- Digest of the signing key in fuses (R331). -/
  keyDigest : BitVec 256
  /-- The image that the module holds (R331). -/
  image : ImageFile
  /-- Stacks that have failed training since the reset (R324). -/
  failedStacks : List Nat
  /-- The running image has reached FULL. -/
  reachedFull : Bool
  counters : NMap CheckCounter
  /-- Heartbeats missed in a row, by package (R298). -/
  missed : NMap Nat
  failed : List Nat
  /-- Placements that dies of peers advertise, by package and die (R291). -/
  peerAdverts : List (Nat × Nat × List Advert)
deriving DecidableEq, Repr

structure State where
  /-- Whose turns come next (log 1). -/
  turns : List Turn
  /-- Core whose sequencer steps, and which (log 1). -/
  cur : Nat
  side : Side
  /-- Counter of the free values drawn (log 11). -/
  free : Nat
  /-- Next number for members, accesses, commands, records and groups; the model's own. -/
  fresh : Nat
  /-- CYC.COUNT (R274). -/
  cyc : BitVec 64
  mem : Memory
  /-- Granules of 64 bytes whose written-since-scrub-read flag is clear (R172), by address divided by 64, with the data as the patrol
  scrubber read it and corrected it. -/
  scrubbed : NMap (BitVec 512)
  cores : NMap Core
  quads : NMap Quad
  dies : Vector Die 8
  /-- HMASK0 to HMASK5 of each near stack (R167). -/
  hmask : Vector (Vector (BitVec 64) 6) 8
  /-- GiB of each near stack in the striped region (R166). -/
  nstr : Nat
  contexts : NMap Context
  kernels : NMap Kernel
  partitions : NMap Partition
  records : List RingRec
  members : NMap Member
  groups : NMap Group
  timers : List Timer
  collectives : List CollInst
  shares : NMap ShareGroup
  queues : NMap CmdQueue
  graphs : NMap Graph
  /-- Graph bound to each wake register (R306). -/
  wakeRegs : NMap Nat
  outbox : List Msg
  notices : List Notice
  checkpoints : List Checkpoint
  images : List MigrationImage
  device : Device
deriving DecidableEq, Repr

/-- A loop counter at launch (R33). -/
def LoopCtr.reset : LoopCtr := ⟨0#32, 0#32, 0#32, false⟩
/-- A sequencer at launch, at word 0 (R33). -/
def Seq.reset : Seq :=
  ⟨0#32, 0#32, 0#32, Vector.replicate 3 LoopCtr.reset, [], [], 0, [], 0, false, false, none, false, none, .idle, none⟩
/-- An empty queue (R33). -/
def QState.reset : QState := ⟨0, 0, [], 0, 0, 0, 0, []⟩
/-- An unbound stream register (R334). -/
def StreamReg.reset : StreamReg := ⟨false, 0#32, 0#512, 0, none⟩

/-- No step of a matrix command under way. -/
def MatrixWork.idle : MatrixWork := ⟨none, [], [], [], 0, []⟩

/-- The registers of a core before its first task: the reset values of R19, R26, R100, R103, R106, R163, R225, R226, R265 and
R273, and zero where the spec gives none (log 5). -/
def Task.reset : Task where
  uid := 0
  kid := 0
  ctx := 0
  part := 0
  record := ⟨0#64, 0#64, 0#64, 0#64⟩
  frameOk := false
  partw := 0#22
  doms := 0#52
  a := Vector.replicate 32 0#64
  aAwait := Vector.replicate 32 .none
  k := Vector.replicate 16 0#32
  names := []
  nstX := []
  sr := Vector.replicate 32 0#64
  m := (Vector.replicate 8 0#1024).set 0 (BitVec.allOnes 1024)
  q := Vector.replicate 8 QState.reset
  qfmt := Vector.replicate 8 0#8
  zexp := Vector.replicate 8 0#16
  zpw := Vector.replicate 8 0x077#9
  slipw := 8#7
  stat := 0#7
  tks := 0#6
  vst := 0#3
  zst := 0#16
  raised := ⟨0#7, 0#6, 0#3, 0#16⟩
  spk := 0#32
  spov := 0#32
  dqb := 0#22
  dql := 0#17
  dqHead := 0#17
  dqCount := 0#17
  mprog := 0#36
  yreq := 0#42
  yseen := false
  ycause := 0
  bins := Vector.replicate 256 0#32
  flags := []
  setters := []
  streams := Vector.replicate 16 StreamReg.reset
  mq := []
  mstart := false
  mwork := MatrixWork.idle
  mheld := none
  lease := .none
  cq := []
  pb := 0#28
  seqA := Seq.reset
  seqX := Seq.reset
  stores := []
  loads := []
  atomics := []
  vatom := none
  owed := none
  port := none
  push := none

/-- A core right after module reset: idle, nothing staged (log 5). -/
def Core.reset : Core := ⟨.idle, Task.reset, none, none, none, 0, none, 0#1536, 0, 0, 0#64, [], none, none, false⟩
/-- A free array (R224). -/
def Quad.reset : Quad := ⟨none, 0⟩
/-- A core die after module reset: pointers name no partition (R116). Its power state is ACTIVE (log 5). -/
def Die.reset : Die := ⟨Vector.replicate 4 ⟨none, 0⟩, .active, false, [], 0⟩
/-- The default hash masks: HMASKj sets bits 14 + j and 20 + j (R167). -/
def hmaskDefault : Vector (BitVec 64) 6 :=
  #v[0x00104000#64, 0x00208000#64, 0x00410000#64, 0x00820000#64, 0x01040000#64, 0x02080000#64]
/-- The device at module reset: VERIFY (R324), trip temperature 100 (R328), clock commanded 1,000 MHz (R324), not locked (R329). -/
def Device.reset : Device :=
  ⟨.verify, 1000, 700, false, 100, 0, false, false, 0, 0#256, ⟨0#32, [], [], []⟩, [], false, [], [], [], []⟩

/-- The machine right after module reset (log 5 and log 18). -/
def State.reset : State where
  turns := []
  cur := 0
  side := .a
  free := 0
  fresh := 1
  cyc := 0#64
  mem := []
  scrubbed := []
  cores := []
  quads := []
  dies := Vector.replicate 8 Die.reset
  hmask := Vector.replicate 8 hmaskDefault
  nstr := 0
  contexts := []
  kernels := []
  partitions := []
  records := []
  members := []
  groups := []
  timers := []
  collectives := []
  shares := []
  queues := []
  graphs := []
  wakeRegs := []
  outbox := []
  notices := []
  checkpoints := []
  images := []
  device := Device.reset

end Sys2Proof.Machine
end

