-- ==== Sys2Proof/Machine/Mem.lean ====
section
/-! DEFINITION. Memory as sparse bytes, images as numbers, the physical map (R166) and the pool's layout and swizzle (R151 to R154). -/
namespace Sys2Proof.Machine

/-- What an address reads as before anything has written it (log 3). -/
def unlisted : Byte := 0#8

namespace Memory

/-- The form every memory keeps: addresses strictly rising, and no byte equal to what an unlisted address reads as. -/
def wf (m : Memory) : Bool := NMap.sorted m && m.all (fun c => decide (c.2 ≠ unlisted))

/-- The byte at an address. -/
def read (m : Memory) (a : Nat) : Byte := NMap.getD m a unlisted

/-- Writes one byte. -/
def write (m : Memory) (a : Nat) (b : Byte) : Memory :=
  if b = unlisted then NMap.del m a else NMap.set m a b

/-- Writes bytes one after another, each at its own address. -/
def writeCells (m : Memory) (cs : List Host.Cell) : Memory := cs.foldl (fun m c => m.write c.1 c.2) m

/-- The cells of a run of bytes from an address up. -/
def cellsOf : Nat → List Byte → List Host.Cell
  | _, [] => []
  | a, b :: bs => if b = unlisted then cellsOf (a + 1) bs else (a, b) :: cellsOf (a + 1) bs

/-- Writes a run of consecutive bytes. -/
def writeRun (m : Memory) (a : Nat) (bs : List Byte) : Memory :=
  m.filter (fun c => decide (c.1 < a)) ++ cellsOf a bs ++ m.filter (fun c => decide (a + bs.length ≤ c.1))

/-- The little-endian number held in `n` consecutive bytes (R8). -/
def readNat (m : Memory) (a n : Nat) : Nat :=
  m.foldl (fun x c => if a ≤ c.1 ∧ c.1 < a + n then x + c.2.toNat * 2 ^ (8 * (c.1 - a)) else x) 0

end Memory

/-- The `n` bytes of a number, little-endian (R8). -/
def bytesOf : Nat → Nat → List Byte
  | 0, _ => []
  | n + 1, x => BitVec.ofNat 8 x :: bytesOf n (x / 256)

/-- The number that little-endian bytes hold. -/
def natOf : List Byte → Nat
  | [] => 0
  | b :: bs => b.toNat + 256 * natOf bs

/-- `2^k` values of `w` bits, the value of index `i + j` at place `j`. -/
def pack (w : Nat) : Nat → Nat → (Nat → Nat) → Nat
  | 0, i, f => f i % 2 ^ w
  | k + 1, i, f => pack w k i f + pack w k (i + 2 ^ k) f * 2 ^ (w * 2 ^ k)

/-- As `pack`, gathering the VST events of every value. -/
def packEv (w : Nat) : Nat → Nat → (Nat → Nat × Num.Ev) → Nat × Num.Ev
  | 0, i, f => ((f i).1 % 2 ^ w, (f i).2)
  | k + 1, i, f =>
    let lo := packEv w k i f
    let hi := packEv w k (i + 2 ^ k) f
    (lo.1 + hi.1 * 2 ^ (w * 2 ^ k), lo.2.or hi.2)

/-- Element `j` of `w` bits of a packed number. -/
def elem (w x j : Nat) : Nat := x / 2 ^ (w * j) % 2 ^ w

/-- Base-2 logarithm of the elements of `n` bytes in a 4 KiB image, for n = 1, 2, 4. -/
def logCount : Nat → Nat
  | 1 => 12
  | 2 => 11
  | _ => 10

/-- A 4 KiB image from 1024 lanes (R21). -/
def imageOf (f : Nat → Nat) : Image := BitVec.ofNat 32768 (pack 32 10 0 f)

/-- Lane `i` of an image (R21). -/
def lane (img : Image) (i : Nat) : Nat := elem 32 img.toNat i

/-! The physical map (R166). -/

/-- Pool size in bytes (R152). -/
def poolSize : Nat := 6291456
/-- Pool address of byte 0 of a package core's pool. -/
def poolBase (c : Nat) : Nat := 0x030000000000 + 2 ^ 23 * c
/-- The near stack-local region of a stack. -/
def nearLocal (st : Nat) : Nat := 0x010000000000 + 2 ^ 36 * st
/-- The far tier of a stack. -/
def farBase (st : Nat) : Nat := 0x020000000000 + 2 ^ 36 * st

/-- What an address names (R166; host memory and remote windows by log 4). -/
inductive Place where
  | near (stack d : Nat)
  | far (stack d : Nat)
  | pool (core off : Nat)
  | host (a : Nat)
  | remote (a : Nat)
deriving DecidableEq, Repr

/-- First frame index behind the wake windows (R306): index 0 is this package's window, index 65536 * (n + 1) that of package n of the pod
(log 4). -/
def windowEnd : Nat := 65536 * 8193

/-- The place of a physical address, when there is one (R166). -/
def place (nstr a : Nat) : Option Place :=
  if a < 2 ^ 33 * nstr then some (.near (a / 4096 % 8) (4096 * (a / 2 ^ 15) + a % 4096))
  else if 0x010000000000 ≤ a ∧ a < 0x010000000000 + 8 * 2 ^ 36 then
    let d := a % 2 ^ 36
    if 2 ^ 30 * nstr ≤ d then some (.near ((a - 0x010000000000) / 2 ^ 36) d) else none
  else if 0x020000000000 ≤ a ∧ a < 0x020000000000 + 8 * 2 ^ 36 then
    some (.far ((a - 0x020000000000) / 2 ^ 36) (a % 2 ^ 36))
  else if 0x030000000000 ≤ a ∧ a < 0x030000000000 + 512 * 2 ^ 23 then
    if a % 2 ^ 23 < poolSize then some (.pool ((a - 0x030000000000) / 2 ^ 23) (a % 2 ^ 23)) else none
  else if Config.hostBase ≤ a ∧ a < Config.hostBase + 2 ^ 48 then some (.host (a - Config.hostBase))
  else if Config.remoteBase ≤ a ∧ a < Config.remoteBase + 2 ^ 49 then some (.remote (a - Config.remoteBase))
  else none

/-- Parity of the set bits of a number below `2^n`. -/
def parity : Nat → Nat → Bool
  | 0, _ => false
  | n + 1, x => (x % 2 == 1) != parity n (x / 2)

/-- Target of a stack address (R167). -/
def target (masks : Vector (BitVec 64) 6) (d : Nat) : Nat :=
  (List.range 6).foldl (fun t j =>
    let b := (d / 2 ^ (8 + j) % 2 == 1) != parity 48 (d &&& (masks[j]?.getD 0#64).toNat)
    t + (if b then 2 ^ j else 0)) 0

/-! PARTW and the pool's layout (R34, R151, R152). -/

/-- Vector registers granted. -/
def pwVregs (w : BitVec 22) : Nat := 8 * 2 ^ (fld w 0 2).toNat
/-- Queue depth. -/
def pwDepth (w : BitVec 22) : Nat := 4 * 2 ^ (fld w 2 2).toNat
/-- Accumulator tiles. -/
def pwTiles (w : BitVec 22) : Nat := (fld w 4 4).toNat
/-- Spill carve in 64 KiB units. -/
def pwSpill (w : BitVec 22) : Nat := (fld w 8 5).toNat
/-- Deferral carve in 64 KiB units. -/
def pwDefc (w : BitVec 22) : Nat := (fld w 13 6).toNat
/-- Swizzle code of the scratchpad. -/
def pwSwz (w : BitVec 22) : Nat := (fld w 19 3).toNat

/-- Whether no field of a PARTW holds a reserved code and its reserved bits are zero (R151). -/
def partwOk (w : BitVec 64) : Bool :=
  let v := w.setWidth 22
  w == v.setWidth 64 && (fld v 0 2 != 3#2) && (fld v 2 2 != 3#2) && decide (pwTiles v ≤ 8) && decide (pwSpill v ≤ 16)
    && decide (pwDefc v ≤ 32)

/-- Pool offsets of R152. -/
def qBase (w : BitVec 22) : Nat := 4096 * pwVregs w
/-- Start of slot `i` of queue `n`. -/
def slotOff (w : BitVec 22) (n i : Nat) : Nat := qBase w + 4096 * (pwDepth w * n + i)
/-- Start of the tiles. -/
def zBase (w : BitVec 22) : Nat := qBase w + 32768 * pwDepth w
/-- Start of tile `n`. -/
def tileOff (w : BitVec 22) (n : Nat) : Nat := zBase w + 131072 * n
/-- DQB.BASE: start of the deferral carve (R122, R152). -/
def dqBase (w : BitVec 22) : Nat := zBase w + 131072 * pwTiles w
/-- DQL.CAP (R122). -/
def dqCap (w : BitVec 22) : Nat := 1024 * (65536 * pwDefc w / 36864)
/-- SCB: start of the scratchpad. -/
def scBase (w : BitVec 22) : Nat := dqBase w + 65536 * pwDefc w
/-- LK0: length of the extent k0 names, and a31 at launch (R152). -/
def lk0 (w : BitVec 22) : Nat := poolSize - scBase w - (if pwSpill w = 0 then 0 else 16384)
/-- Pool offset of a side's return area (R154). -/
def returnArea : Side → Nat
  | .a => poolSize - 16384
  | .x => poolSize - 8192

/-- The swizzle of R153: where offset `x` of an allocation is stored. -/
def swizzle (code x : Nat) : Nat :=
  if 1 ≤ code ∧ code ≤ 6 then
    let sp := 8 * 2 ^ code
    let r := x / 4096
    4096 * r + ((x % 4096) ^^^ ((r % (4096 / sp)) * sp))
  else x

end Sys2Proof.Machine
end

