-- ==== Sys2Proof/Machine/Ops.lean ====
section
/-! DEFINITION. The named operations over the state: access to cores, tasks and memory, how an instruction stops, the record
area, taking a trap (R32, R257, R268) and returning to a task, token checks (R85) and pending stores (R174). -/
namespace Sys2Proof.Machine

/-! Access to the parts of the state. -/

/-- A core; one that nothing has touched is as at reset. -/
def State.core (s : State) (c : Nat) : Core := NMap.getD s.cores c Core.reset
/-- Replaces a core. -/
def State.setCore (s : State) (c : Nat) (x : Core) : State := { s with cores := NMap.set s.cores c x }
/-- The task in a core's registers. -/
def State.task (s : State) (c : Nat) : Task := (s.core c).task
/-- Replaces the task in a core's registers. -/
def State.setTask (s : State) (c : Nat) (t : Task) : State := s.setCore c { s.core c with task := t }
/-- Applies a function to the task in a core's registers. -/
def State.modTask (s : State) (c : Nat) (f : Task → Task) : State := s.setTask c (f (s.task c))
/-- A sequencer of a task. -/
def Task.seq (t : Task) : Side → Seq
  | .a => t.seqA
  | .x => t.seqX
/-- Replaces a sequencer of a task. -/
def Task.setSeq (t : Task) : Side → Seq → Task
  | .a, q => { t with seqA := q }
  | .x, q => { t with seqX := q }
/-- A sequencer of the task on a core. -/
def State.seq (s : State) (c : Nat) (d : Side) : Seq := (s.task c).seq d
/-- Replaces a sequencer of the task on a core. -/
def State.setSeq (s : State) (c : Nat) (d : Side) (q : Seq) : State := s.setTask c ((s.task c).setSeq d q)
/-- The number of a kernel in the machine: its context and its kernel id there (R304). -/
def kernelKey (ctx kid : Nat) : Nat := 2 ^ 20 * ctx + kid
/-- The kernel of a number. -/
def State.kernel (s : State) (k : Nat) : Option Kernel := NMap.get s.kernels k
/-- Applies a function to a loaded kernel. -/
def State.modKernel (s : State) (k : Nat) (f : Kernel → Kernel) : State :=
  match NMap.get s.kernels k with
  | some x => { s with kernels := NMap.set s.kernels k (f x) }
  | none => s
/-- Applies a function to a context. -/
def State.modContext (s : State) (n : Nat) (f : Context → Context) : State :=
  match NMap.get s.contexts n with
  | some x => { s with contexts := NMap.set s.contexts n (f x) }
  | none => s
/-- Applies a function to a partition. -/
def State.modPartition (s : State) (n : Nat) (f : Partition → Partition) : State :=
  match NMap.get s.partitions n with
  | some x => { s with partitions := NMap.set s.partitions n (f x) }
  | none => s
/-- Applies a function to a member. -/
def State.modMember (s : State) (n : Nat) (f : Member → Member) : State :=
  match NMap.get s.members n with
  | some x => { s with members := NMap.set s.members n (f x) }
  | none => s
/-- Reports to system software or the host. -/
def State.notify (s : State) (n : Notice) : State := { s with notices := s.notices ++ [n] }

/-- Default parameters of a partition (R114, R168, R225, R265, R274, R316). -/
def Partition.default : Partition where
  packages := [0]
  pkgIdx := 0
  ringLog := List.replicate 32 10
  own := ⟨[], [], [], [], [], []⟩
  pwgt := 1#5
  pqcyc := 0#64
  pqbit := 0#64
  pqwin := 1000000#40
  age := 1000000#40
  migt := 200000#40
  colt := 500000000#40
  ydl := 20000#32
  lbud := 65536#32
  anqt := 32#8
  useCyc := 0
  useBit := 0
  window := 0
  inSlice := false
  vstate := .running
  closing := false
  incarnation := 0#16
  stale := 0
  dlb := 0#64
  dlh := 0#32
  dlt := 0#32
  dltSeen := 0#32
  dlx := 0#1
  dirtyHeld := []
  granules := []
  phasedAt := none

/-- The parameters of a task's partition. -/
def State.partOf (s : State) (p : Nat) : Partition := NMap.getD s.partitions p Partition.default

/-! Writes home (R172, R261). -/

/-- Whether a core holds a running task, so that writes into its pool set written bits (R261). -/
def Core.holdsTask (x : Core) : Bool :=
  match x.mode with
  | .run | .save _ | .restore => true
  | .idle | .stopped => false

/-- Sets the written bit of the pool line that an address lies in (R261). -/
def State.markLine (s : State) (a : Nat) : State :=
  match place s.nstr a with
  | some (.pool c o) =>
    if (s.core c).holdsTask then
      s.setCore c { s.core c with written := (s.core c).written ||| BitVec.ofNat 1536 (2 ^ (o / 4096)) }
    else s
  | _ => s

/-- Notes a demand write for the scrubber (R172). -/
def State.markDirtyGranule (s : State) (a n : Nat) : State :=
  { s with scrubbed := s.scrubbed.filter (fun g => decide (g.1 < a / 64) || decide ((a + n - 1) / 64 < g.1)) }

/-- Writes one byte home. -/
def State.writeByte (s : State) (a : Nat) (b : Byte) : State :=
  ({ s with mem := s.mem.write a b }.markLine a).markDirtyGranule a 1

/-- Writes bytes home, each at its own address. -/
def State.writeCells (s : State) (cs : List Host.Cell) : State := cs.foldl (fun s c => s.writeByte c.1 c.2) s

/-- Sets the written bits of the pool lines that `n` bytes from an address reach (R261). -/
def State.markLines (s : State) (a n : Nat) : State :=
  (List.range ((a + n - 1) / 4096 + 1 - a / 4096)).foldl (fun s j => s.markLine (4096 * (a / 4096 + j))) s

/-- Writes a run of consecutive bytes home. -/
def State.writeRun (s : State) (a : Nat) (bs : List Byte) : State :=
  match bs with
  | [] => s
  | _ => ({ s with mem := s.mem.writeRun a bs }.markLines a bs.length).markDirtyGranule a bs.length

/-- Reads the little-endian number in `n` bytes at home. -/
def State.readNat (s : State) (a n : Nat) : Nat := s.mem.readNat a n

/-- The 4 KiB line at a pool offset. -/
def State.poolLine (s : State) (c off : Nat) : Image := BitVec.ofNat 32768 (s.readNat (poolBase c + off) 4096)
/-- Writes the 4 KiB line at a pool offset. -/
def State.setPoolLine (s : State) (c off : Nat) (img : Image) : State :=
  s.writeRun (poolBase c + off) (bytesOf 4096 img.toNat)
/-- Vector register `n` of a core (R152). -/
def State.vreg (s : State) (c n : Nat) : Image := s.poolLine c (4096 * n)
/-- Writes vector register `n` of a core. -/
def State.setVreg (s : State) (c n : Nat) (img : Image) : State := s.setPoolLine c (4096 * n) img

/-! How an instruction stops. -/

/-- What stops an instruction before it completes: a stall, a trap with the state that stands (R32), or a fault. -/
inductive Stop where
  /-- The word stays unissued; `blocked` when the stall counts for R31. -/
  | stall (blocked : Bool)
  /-- The word stays unissued, and writer `who` waits for room in a partition's dirty log ring (R322). -/
  | hold (part who : Nat)
  /-- The word or transaction stays unissued: its access is held at an entry under revocation (R165). -/
  | held (ctx ent : Nat)
  /-- A trap; `standing` holds the effects that stand where R32 lets some stand. -/
  | trap (cause : BitVec 8) (standing : Option State)
  | fault (f : Fault)

/-- What an instruction does: a state, or a stop. -/
abbrev Run := Except Stop State

/-- Stalls where a condition does not hold; not a blocked state. -/
def waitFor (p : Bool) : Except Stop Unit := if p then .ok () else .error (.stall false)
/-- Stalls in a blocked state where a condition does not hold (R31). -/
def waitBlocked (p : Bool) : Except Stop Unit := if p then .ok () else .error (.stall true)
/-- Raises a trap where a condition does not hold. -/
def require (p : Bool) (cause : BitVec 8) : Except Stop Unit := if p then .ok () else .error (.trap cause none)

/-! The record area (R257). -/

/-- Word 0 of a record (R257). -/
def recWord (typ : BitVec 8) (cause : BitVec 8) (kid core aux : Nat) : BitVec 64 :=
  BitVec.ofNat 19 aux ++ BitVec.ofNat 9 core ++ BitVec.ofNat 20 kid ++ cause ++ typ

/-- Puts a record into a kernel's record area, or counts it where the ring is full (R257, R319). No address reaches the area's bytes (log 107). -/
def State.postRecord (s : State) (kid : Nat) (r : Rec) : State :=
  match NMap.get s.kernels kid with
  | none => s
  | some k =>
    let inc := match NMap.get s.contexts k.ctx with
      | some c => (s.partOf c.part).incarnation
      | none => 0#16
    if k.area.length < 2 ^ k.recLog then
      { s with kernels := NMap.set s.kernels kid { k with area := k.area ++ [⟨r, inc⟩] } }
    else { s with kernels := NMap.set s.kernels kid { k with dropped := k.dropped + 1 } }

/-- Posts an event record, TYPE 6 (R257). -/
def State.postEvent (s : State) (kid : Nat) (cause : BitVec 8) (core : Nat) (w1 : BitVec 64) : State :=
  s.postRecord kid ⟨recWord 6#8 cause kid core 0, w1, 0#64, 0#64⟩

/-! The text (R14 to R18, R49). -/

/-- Whether a word lies in a DATA header or body (R49). -/
def Kernel.isData (k : Kernel) (i : Nat) : Bool := k.data.any (fun r => decide (r.1 ≤ i) && decide (i < r.1 + r.2))
/-- The executable bit of a word; a word beyond the text has none (R16, R49). -/
def Kernel.executable (k : Kernel) (i : Nat) : Bool := decide (i < k.textLen) && !k.isData i
/-- The mark interval of a word (R18, R49). -/
def Kernel.interval (k : Kernel) (i : Nat) : Nat := (k.marks.filter (fun m => decide (m < i))).length
/-- A word of the text (R14): as memory holds it now, or as the staging memory of REDUCED does (R325). A text that is written over in the
near tier is fetched as it then reads, its DATA headers and mark intervals staying those of the load (log 75). -/
def State.textWord (s : State) (k : Kernel) (i : Nat) : Word32 :=
  match k.staged with
  | some (ws, _) => ws[i]?.getD 0#32
  | none => BitVec.ofNat 32 (s.readNat (k.textAt + 4 * i) 4)

/-- Whether a word belongs to a side: its own tag, B, or a D word outside every body (R15, R48). -/
def ownWord (d : Side) (w : Word32) : Bool :=
  match d with
  | .a => fld w 30 2 != 1#2
  | .x => fld w 30 2 != 0#2

/-- The first word of a side at or after word `i`, or the text's length (R15); `fuel` bounds the words passed over. -/
def State.nextOwn (s : State) (k : Kernel) (d : Side) : Nat → Nat → Nat
  | 0, _ => k.textLen
  | fuel + 1, i =>
    if k.textLen ≤ i then k.textLen
    else if !k.isData i && ownWord d (s.textWord k i) then i
    else State.nextOwn s k d fuel (i + 1)

/-- The first word of a side at or after word `i` of a kernel's text. -/
def State.ownFrom (s : State) (k : Kernel) (d : Side) (i : Nat) : Nat := s.nextOwn k d (k.textLen + 1) i

/-- The word under a side's program counter, zero past the text. -/
def State.curWord (s : State) (c : Nat) (d : Side) : Word32 :=
  match s.kernel (s.task c).kid with
  | some k =>
    let i := (s.seq c d).pc.toNat
    if i < k.textLen then s.textWord k i else 0#32
  | none => 0#32

/-! Traps (R32, R257, R268). -/

/-- Replaces the trap record that a core's trap has put into a record area in this cycle. -/
def swapTrap (l : List AreaRec) (core : Nat) (cyc : BitVec 64) (r : Rec) : List AreaRec :=
  l.map (fun x => if x.words.w0.extractLsb' 0 8 = 2#8 ∧ (x.words.w0.extractLsb' 36 9).toNat = core ∧ x.words.w3 = cyc then { x with words := r } else x)

/-- PCA and PCX of a task as a trap record holds them (R257). -/
def Task.pcWord (t : Task) : BitVec 64 := (t.seqX.pc.setWidth 22).setWidth 32 ++ (t.seqA.pc.setWidth 22).setWidth 32

/-- The trap record of a core (R257). -/
def State.trapRec (s : State) (c : Nat) (d : Side) (cause : BitVec 8) (word : Word32) : Rec :=
  let t := s.task c
  ⟨recWord 2#8 cause t.kid c (if d = .x then 1 else 0),
   t.pcWord, word.setWidth 64, s.cyc⟩

/-- Takes a trap of fate Kill on a core: the trap record or, in a kernel already dying, its count; both sequencers stop; the
kernel's death begins (R32, R257, R268). Of two tasks' traps in one cycle the lower core's is recorded (R268). `word` is the trapping
word, 0 for a cause that no word raises, for which `d` is the model's choice (log 107). -/
def State.takeKill (s : State) (c : Nat) (d : Side) (cause : BitVec 8) (word : Word32) : State :=
  let r := s.trapRec c d cause word
  let s := s.setCore c { s.core c with mode := .stopped }
  let kid := (s.task c).kid
  match s.kernel kid with
  | none => s
  | some k =>
    match k.dying with
    | some x =>
      if x.since = s.cyc ∧ c < x.core then
        s.modKernel kid (fun k => { k with
          area := swapTrap k.area x.core s.cyc r, dying := some { x with core := c, cause := cause, weak := false, absorbed := x.absorbed + 1 } })
      else s.modKernel kid (fun k => { k with dying := some { x with absorbed := x.absorbed + 1 } })
    | none => (s.postRecord kid r).modKernel kid (fun k => { k with dying := some ⟨c, cause, false, 0, 0, 0, false, [], s.cyc⟩ })

/-- A second kill trap of one task in one cycle (R32): the lower cause is reported, A's of two equal ones; the other has no effect. The
0x14 of a suspension gives way to any kill: the suspension is discarded, and so no save is tried. -/
def State.outrank (s : State) (c : Nat) (d : Side) (cause : BitVec 8) (word : Word32) : State :=
  let kid := (s.task c).kid
  match s.kernel kid with
  | none => s
  | some k =>
    match k.dying with
    | some x =>
      if x.core = c ∧ x.since = s.cyc ∧ (x.weak ∨ cause.toNat < x.cause.toNat ∨ (cause = x.cause ∧ d = .a)) then
        s.modKernel kid (fun k => { k with area := swapTrap k.area c s.cyc (s.trapRec c d cause word), dying := some { x with cause := cause, weak := false } })
      else s
    | none => s

/-- Marks the death that a core's suspension without a usable frame has begun in this cycle (R32). -/
def State.weakDeath (s : State) (c : Nat) : State :=
  s.modKernel (s.task c).kid (fun k => { k with dying := k.dying.map (fun x =>
    if x.core = c ∧ x.since = s.cyc ∧ x.cause = 0x14#8 then { x with weak := true } else x) })

/-- Starts a save: the sequencers issue no further (R262, R264). -/
def State.startSave (s : State) (c : Nat) (susp : Bool) : State :=
  s.setCore c { s.core c with mode := .save susp }

/-- Notes the stage in which the task on a core has missed a translation (R325). -/
def State.noteMiss (s : State) (c : Nat) : State := s.setCore c { s.core c with missedReduced := s.device.stage == .reduced }

/-- Takes a trap of the word under a side's program counter: cause 0x10 suspends the task and clears PEND (R264, R270), every
other cause kills the kernel (R255, R256). A task without a usable frame cannot be saved: cause 0x14 (R259). When the other side has
trapped in the same cycle, a kill outranks a suspension (R32). -/
def State.takeTrap (s : State) (c : Nat) (d : Side) (cause : BitVec 8) : State :=
  let s := s.setSeq c d { s.seq c d with issued := true }
  if cause = 0x10#8 then
    if (s.core c).mode = .stopped then s
    else if (s.task c).frameOk then
      ((s.modTask c (fun t => { t with yreq := t.yreq &&& ~~~1#42 })).noteMiss c).startSave c true
    else (s.takeKill c d 0x14#8 0#32).weakDeath c
  else if (s.core c).mode = .stopped then s.outrank c d cause (s.curWord c d)
  else s.takeKill c d cause (s.curWord c d)

/-- Whether a dirty log ring is full: a write of TAIL makes room from the next cycle on (R321, R322). -/
def Partition.dirtyFull (p : Partition) : Bool := p.dlh - p.dltSeen == BitVec.ofNat 32 (2 ^ (fld p.dlb 0 5).toNat)

/-- Writer `who` of a partition waits in the line at the dirty log ring. Where the ring is full, FULL is set, and the hypervisor's exit
event comes once until it is cleared (R322) (log 30). -/
def State.holdWriter (s : State) (part who : Nat) : State :=
  let p := s.partOf part
  let held := if p.dirtyHeld.contains who then p.dirtyHeld else p.dirtyHeld ++ [who]
  let s' := s.modPartition part (fun q => { q with dirtyHeld := held, dlx := if p.dirtyFull then 1#1 else q.dlx })
  if p.dlx = 1#1 ∨ p.dirtyFull = false then s' else s'.notify (.dirtyExit part)

/-- What a stop comes to: a stall marks the sequencer and leaves the rest as it was, a trap is taken over what stands (log 16). -/
def settle (c : Nat) (d : Side) (s : State) : Run → Host.Outcome State Fault Refusal
  | .ok t => .next t
  | .error (.stall b) => .next (s.setSeq c d { s.seq c d with blocked := b })
  | .error (.hold part who) => .next ((s.holdWriter part who).setSeq c d { s.seq c d with blocked := false })
  | .error (.held ctx ent) => .next (s.setSeq c d { s.seq c d with blocked := false, held := some (ctx, ent) })
  | .error (.trap cause standing) => .next ((standing.getD s).takeTrap c d cause)
  | .error (.fault f) => .fault f

/-! Completing a word (R15, R17, R30, R81). -/

/-- Makes counters inactive with a count of zero (log 29). -/
def Seq.dropLoops (q : Seq) (ns : List Nat) : Seq :=
  { q with lc := ns.foldl (fun v n => v.setIfInBounds n { v[n]?.getD LoopCtr.reset with count := 0#32, active := false }) q.lc,
           order := q.order.filter (fun n => !ns.contains n) }

/-- The active loop to process next at an end position between `lo` and `hi`: the lowest end, the most recent first (R30, R81). -/
def Seq.endingLoop (q : Seq) (lo hi : Nat) : Option Nat :=
  q.order.foldl (fun best n =>
    let e := (q.lc[n]?.getD LoopCtr.reset).last.toNat
    if lo ≤ e ∧ e < hi then
      match best with
      | none => some n
      | some b => if e < (q.lc[b]?.getD LoopCtr.reset).last.toNat then some n else some b
    else best) none

/-- Processes loop ends between the word completed and the next word (R30, R81, R82): where the sequencer goes on, for another pass at the
body's first word whatever it is (log 80). -/
def Seq.runEnds (q : Seq) (lo hi : Nat) : Nat → Seq
  | 0 => { q with pc := BitVec.ofNat 32 hi }
  | fuel + 1 =>
    match q.endingLoop lo hi with
    | none => { q with pc := BitVec.ofNat 32 hi }
    | some n =>
      let l := q.lc[n]?.getD LoopCtr.reset
      if l.count.toNat ≤ 1 then Seq.runEnds (q.dropLoops [n]) lo hi fuel
      else
        -- going back ends every loop activated after this one
        let q := q.dropLoops (q.order.takeWhile (fun m => m != n))
        { q with lc := q.lc.setIfInBounds n { l with count := l.count - 1#32 }, pc := l.start }

/-- Goes on as though the word at `w` had just completed (R15, R78, R81). -/
def State.fallFrom (s : State) (c : Nat) (d : Side) (w : Nat) : State :=
  match s.kernel (s.task c).kid with
  | some k => s.setSeq c d ((s.seq c d).runEnds w (s.ownFrom k d (w + 1)) 4)
  | none => s.setSeq c d { s.seq c d with pc := BitVec.ofNat 32 (w + 1) }

/-- Counts a completed word: the cycle's issue, and a mark for a B word (R17). -/
def State.completed (s : State) (c : Nat) (d : Side) (mark : Bool) : State :=
  let q := s.seq c d
  s.setSeq c d { q with issued := true, blocked := false, flushing := none, waiting := false, ewait := .idle, held := none,
                        marks := if mark then q.marks + 1#32 else q.marks }

/-- A QFLUSH has pushed one zero element of several to a queue in this cycle; the word goes on in the next (R28). -/
def State.progress (s : State) (c : Nat) (d : Side) (n : Nat) : State :=
  s.setSeq c d { s.seq c d with issued := true, blocked := false, flushing := some n }

/-- Completes the word under the program counter and falls through. -/
def State.retire (s : State) (c : Nat) (d : Side) (mark : Bool := false) : State :=
  (s.completed c d mark).fallFrom c d (s.seq c d).pc.toNat

/-- Completes the word under the program counter and transfers to a target (R38). -/
def State.retireTo (s : State) (c : Nat) (d : Side) (target : Nat) (mark : Bool := false) : State :=
  let s := s.completed c d mark
  s.setSeq c d { s.seq c d with pc := BitVec.ofNat 32 target }

/-! The pinned extent table and token checks (R85, R160, R161, R171). -/

/-- An entry of a context's table as it stands before any use (R160). -/
def PetEntry.fresh : PetEntry :=
  ⟨.free, .translated, false, false, false, false, 0, 0, 0#12, 0, 0, 0, [], 0, 0, 0#64, 0, false⟩
/-- An entry of a context's table. -/
def Context.entry (x : Context) (i : Nat) : PetEntry := NMap.getD x.pet i PetEntry.fresh
/-- An entry of the table of a numbered context. -/
def State.entry (s : State) (ctx i : Nat) : PetEntry :=
  match NMap.get s.contexts ctx with
  | some x => x.entry i
  | none => PetEntry.fresh
/-- Replaces an entry. -/
def State.setEntry (s : State) (ctx i : Nat) (e : PetEntry) : State :=
  s.modContext ctx (fun x => { x with pet := NMap.set x.pet i e })
/-- Index and generation of a handle (R160). -/
def handleIndex (h : Word32) : Nat := (fld h 0 20).toNat
/-- Generation of a handle. -/
def handleGen (h : Word32) : BitVec 12 := fld h 20 12
/-- The handle of an entry. -/
def handleOf (g : BitVec 12) (i : Nat) : Word32 := g ++ BitVec.ofNat 20 i
/-- Whether an index lies in a context's table. -/
def State.inTable (s : State) (ctx i : Nat) : Bool :=
  match NMap.get s.contexts ctx with
  | some x => decide (i < x.petSize)
  | none => false

/-- Bits of TKS (R163). -/
def tksOOB : BitVec 6 := 1#6
/-- PERM of TKS. -/
def tksPERM : BitVec 6 := 2#6
/-- STALE of TKS. -/
def tksSTALE : BitVec 6 := 4#6
/-- DEAD of TKS. -/
def tksDEAD : BitVec 6 := 8#6
/-- NSFULL of TKS. -/
def tksNSFULL : BitVec 6 := 16#6
/-- PETX of TKS. -/
def tksPETX : BitVec 6 := 32#6

/-- What TokenCheck comes to (R85): held, or the entry when the access reaches it, how many leading bytes lie inside, and TKS bits. -/
inductive Checked where
  | held
  | done (ent : Option Nat) (inside : Nat) (tks : BitVec 6)
deriving DecidableEq, Repr

/-- TokenCheck (R85) of `n` bytes at offset `off` through handle `h` in a context. An entry in FREEING that a handle reaches with its new
generation gives the dead outcome, as a free one does (log 96). -/
def State.tokenCheck (s : State) (ctx : Nat) (h : Word32) (off n : Nat) (wr : Bool) : Checked :=
  let i := handleIndex h
  if i = 0 then .done none 0 tksDEAD
  else if !s.inTable ctx i then .done none 0 tksDEAD
  else
    let e := s.entry ctx i
    if e.gen ≠ handleGen h then .done none 0 tksSTALE
    else
      match e.state with
      | .quiescing | .held => .held
      | .dead | .free | .freeing | .quarantined => .done none 0 tksDEAD
      | .active =>
        if wr && !e.w then .done none 0 tksPERM
        else
          let m := min n (e.len - off)
          .done (some i) m (if m < n then tksOOB else 0#6)

/-- The in-flight count above which an access is held at issue (R161). -/
def inflMax : Nat := 2 ^ 19 - 1

/-- Raises an entry's in-flight count. -/
def State.raiseInfl (s : State) (ctx i : Nat) : State :=
  s.setEntry ctx i { s.entry ctx i with infl := (s.entry ctx i).infl + 1 }
/-- Lowers an entry's in-flight count. -/
def State.lowerInfl (s : State) (ctx i : Nat) : State :=
  s.setEntry ctx i { s.entry ctx i with infl := (s.entry ctx i).infl - 1 }

/-- The page of a translated extent that a position counted from the start of its first page lies in: page, position in the page. -/
def framePage : List Frame → Nat → Option (Frame × Nat)
  | [], _ => none
  | f :: fs, p => if p < f.size then some (f, p) else framePage fs (p - f.size)

/-- Where byte `off` of an entry's extent lies: start and length of its page, position in the page before the swizzle, the page's swizzle
code, page. -/
def PetEntry.locate (e : PetEntry) (swz : Nat) (off : Nat) : Option (Nat × Nat × Nat × Nat × Option Frame) :=
  match e.origin with
  | .scratchpad => some (e.base, e.len, off, swz, none)
  | .anonymous => some (e.base, e.len, off, 0, none)
  | .translated =>
    let first := match e.frames with
      | f :: _ => if f.size = 2 ^ 21 then e.va.toNat % 2 ^ 21 else e.va.toNat % 2 ^ 16
      | [] => 0
    match framePage e.frames (first + off) with
    | some (f, p) => some (f.phys, f.size, p, f.swz, some f)
    | none => none

/-- The swizzle code of a scratchpad entry's allocation: PARTW.SWZ of its kernel (R153). -/
def State.entrySwz (s : State) (e : PetEntry) : Nat :=
  match NMap.get s.kernels e.kid with
  | some k => pwSwz k.partw
  | none => 0

/-- The row part of positions `lo` to `hi - 1` of a page (R153, R171): as stored, in units of 16 bytes where a swizzle moves them. -/
def rowAt (base code lo hi : Nat) : Row :=
  if code = 0 ∨ code = 7 then [(base + lo, base + hi)]
  else (List.range ((hi + 15) / 16 - lo / 16)).map (fun j =>
    let a := max lo (16 * (lo / 16 + j))
    (base + swizzle code a, base + swizzle code a + (min hi (16 * (lo / 16 + j) + 16) - a)))

/-- Bytes `off` to `off + n - 1` of an extent split at rows of the token and at pages (R171): index in the access counts from `i`. -/
def PetEntry.pieces (e : PetEntry) (swz : Nat) : Nat → Nat → Nat → List Piece
  | 0, _, _ => []
  | n + 1, off, i =>
    let rest := PetEntry.pieces e swz n (off + 1) (i + 1)
    match e.locate swz off with
    | none => rest
    | some (base, size, p, code, _) =>
      -- the row part of this byte within its page
      let lo := p - min p (off % 256)
      let hi := min size (lo + (if off % 256 ≤ p then 256 else 256 - (off % 256 - p)))
      let row := rowAt base code lo hi
      let byte := (i, base + swizzle code p)
      match rest with
      | r :: rs => if r.row = row then ⟨row, byte :: r.bytes⟩ :: rs else ⟨row, [byte]⟩ :: r :: rs
      | [] => [⟨row, [byte]⟩]

/-- The pieces of an access through an entry. -/
def State.pieces (s : State) (ctx i off n : Nat) : List Piece :=
  let e := s.entry ctx i
  e.pieces (s.entrySwz e) n off 0

/-- Whether two row parts share a stored byte, whatever the swizzles of their pages (R153, R173) (log 26). -/
def sameRow (r q : Row) : Bool := r.any (fun x => q.any (fun y => decide (x.1 < y.2) && decide (y.1 < x.2)))

/-- The graph of a partition that a wake register is bound to (R306, R315). -/
def State.boundGraph (s : State) (part r : Nat) : Option (Nat × Graph) :=
  match NMap.get s.wakeRegs r with
  | none => none
  | some gi =>
    match NMap.get s.graphs gi with
    | some g => if g.part = part then some (gi, g) else none
    | none => none

/-- Code of a state in a PET entry (R161). -/
def PetState.code : PetState → Nat
  | .free => 0
  | .active => 1
  | .quiescing => 2
  | .held => 3
  | .dead => 4
  | .freeing => 5
  | .quarantined => 6

/-- Code of an origin in a PET entry (R161). -/
def Origin.code : Origin → Nat
  | .translated => 0
  | .anonymous => 1
  | .scratchpad => 2

/-- The FLIST field of an entry (R161): its frame list's address, its first granule's, or its offset in the pool. -/
def PetEntry.flist (e : PetEntry) (listAt : Nat) : Nat :=
  match e.origin with
  | .translated => listAt + 8 * e.base
  | .anonymous => e.base
  | .scratchpad => e.base - poolBase e.core

/-- The 32 bytes of a PET entry as a number (R161). -/
def PetEntry.word (e : PetEntry) (listAt : Nat) : Nat :=
  let flag (b : Bool) : Nat := if b then 1 else 0
  let w0 := e.state.code + 2 ^ 3 * e.origin.code + 2 ^ 5 * flag e.r + 2 ^ 6 * flag e.w + 2 ^ 7 * flag e.priv + 2 ^ 8 * flag e.cmp
    + 2 ^ 9 * e.cls + 2 ^ 11 * e.tier + 2 ^ 13 * e.gen.toNat + 2 ^ 25 * (e.kid % 2 ^ 20) + 2 ^ 45 * e.infl
  w0 + 2 ^ 64 * e.len + 2 ^ 128 * e.flist listAt + 2 ^ 192 * e.va.toNat

/-- FRAME of a page as a leaf or a frame list names it (R158, R161): its physical address, or the index of its window or of its host memory,
0 for this package's wake window (log 4). -/
def Frame.index (f : Frame) : Nat :=
  if Config.wakeBase ≤ f.phys then 0
  else if Config.remoteBase ≤ f.phys then (f.phys - Config.remoteBase) / 65536 % 2 ^ 32
  else if Config.hostBase ≤ f.phys then (f.phys - Config.hostBase) / 65536 + 2 ^ 31
  else f.phys / 65536 % 2 ^ 32

/-- A word of a frame list (R161): FRAME, SWZ and DTE. -/
def Frame.word (f : Frame) : Nat := 65536 * f.index + 4 * f.swz + (if f.dte then 2 else 0)

/-- Word `i` of a context's frame-list area (R193): that of the entry whose run holds it. -/
def Context.listWord (x : Context) (i : Nat) : Nat :=
  match x.pet.findSome? (fun y => if y.2.origin = .translated ∧ y.2.state ≠ .free ∧ y.2.base ≤ i then y.2.frames[i - y.2.base]? else none) with
  | some f => f.word
  | none => 0

/-- A byte of the table or the frame-list area of a context, where the address lies in one (R161, R193). -/
def Context.tableByte (x : Context) (a : Nat) : Option Byte :=
  if x.petAt ≤ a ∧ a < x.petAt + 32 * x.petSize then
    let o := a - x.petAt
    some (BitVec.ofNat 8 ((x.entry (o / 32)).word x.listAt / 2 ^ (8 * (o % 32))))
  else if x.listAt ≤ a ∧ a < x.listAt + 8 * x.listCap then
    let o := a - x.listAt
    some (BitVec.ofNat 8 (x.listWord (o / 8) / 2 ^ (8 * (o % 8))))
  else none

/-- Whether an address lies in the wake window of another package (R306, log 4). -/
def inPeerWindow (a : Nat) : Bool := decide (Config.remoteBase + 65536 ≤ a) && decide (a < Config.remoteBase + windowEnd)

/-- The byte at home: of a pinned extent table or a frame-list area (R161, R193), in this package's wake window of the number of wakes
pending for the graph bound to the register (R306), or of memory; in a peer's wake window of what that package has last told of its count,
bits [63:32] zero (R306, log 4). -/
def State.homeByte (s : State) (a : Nat) : Byte :=
  if Config.wakeBase ≤ a then
    let o := a - Config.wakeBase
    let n := match s.boundGraph (o / 65536) (o % 65536 / 8) with
      | some (_, g) => g.wakes
      | none => 0
    BitVec.ofNat 8 (n / 2 ^ (8 * (o % 8)))
  else if inPeerWindow a && decide (4 ≤ a % 8) then 0#8
  else
    match s.contexts.findSome? (fun x => x.2.tableByte a) with
    | some b => b
    | none => s.mem.read a

/-- The value a task's load sees of a byte: the newest pending entry that covers it, else home (R175). -/
def State.seenByte (s : State) : List Store → Nat → Byte
  | [], a => s.homeByte a
  | st :: l, a =>
    -- the list is oldest first, so a later entry wins
    if l.any (fun x => x.cells.any (fun c => c.1 == a)) then s.seenByte l a
    else
      match st.cells.find? (fun c => c.1 == a) with
      | some c => c.2
      | none => s.homeByte a

/-- The bytes of a piece as a task sees them, placed in an image at their index (R175). -/
def State.readPiece (s : State) (stores : List Store) (p : Piece) (img : Image) : Image :=
  p.bytes.foldl (fun x b => x ||| BitVec.ofNat 32768 ((s.seenByte stores b.2).toNat * 2 ^ (8 * b.1))) img

/-- A wake of a graph by a handle (R301, R306, R309): discarded and counted where the handle is not the graph's or its wake queue of 64
is full. `queue` is the command queue whose packet it is (R303). -/
def State.wakeGraph (s : State) (gi : Nat) (h : BitVec 32) (queue : Option Nat) : State :=
  match NMap.get s.graphs gi with
  | none => s
  | some g =>
    if g.registered && h == handleOf g.gen gi && decide (g.wakes < 64) then
      { s with graphs := NMap.set s.graphs gi { g with wakes := g.wakes + 1, sources := g.sources ++ [queue] } }
    else { s with graphs := NMap.set s.graphs gi { g with wakeErrors := g.wakeErrors + 1 } }

/-- A write of a wake register in a partition's security domain (R306, R315): a wake of the bound graph; discarded without a count where a
reserved bit is set or the graph is another partition's. -/
def State.wakeWrite (s : State) (part r : Nat) (v : BitVec 64) : State :=
  match s.boundGraph part r with
  | none => s
  | some (gi, _) => if fld v 32 32 ≠ 0#32 then s else s.wakeGraph gi (v.setWidth 32) none

/-- Puts a message into the outbox. -/
def State.send (s : State) (m : Msg) : State := { s with outbox := s.outbox ++ [m] }

/-- The partition that a context belongs to. -/
def State.partOfContext (s : State) (ctx : Nat) : Nat :=
  match NMap.get s.contexts ctx with
  | some x => x.part
  | none => 0

/-- A wake that goes home (R306, R307): to a register of this package, or as a message to a peer (R288). -/
def State.wakeHome (s : State) (part r : Nat) (v : BitVec 64) : State :=
  if r < 8192 then s.wakeWrite part r v else s.send (.wake part (r / 8192 - 1) (r % 8192) v)

/-- Drains one pending entry of a list home (R174): memory written or a wake made, INFL lowered once the access's last entry is home. -/
def State.drainStore (s : State) (rest : List Store) (e : Store) : State :=
  let s := match e.wake with
    | some (r, v) => s.wakeHome (s.partOfContext e.ctx) r v
    | none => s.writeCells e.cells
  if rest.any (fun x => x.acc == e.acc && x.ent == e.ent && x.ctx == e.ctx) then s else s.lowerInfl e.ctx e.ent

/-- The entries that drain, and those that stay, when a test selects entries: an entry takes the older entries of its row with it
(R174), and a wake entry every older one (R307). -/
def drainSplit (p : Store → Bool) : List Store → List Store × List Store
  | [] => ([], [])
  | e :: l =>
    let r := drainSplit p l
    if p e || r.1.any (fun x => x.wake.isSome || sameRow x.row e.row) then (e :: r.1, r.2) else (r.1, e :: r.2)

/-- Drains entries home one after another; `keep` stays pending. -/
def State.drainList (s : State) (keep : List Store) : List Store → State
  | [] => s
  | e :: l => (s.drainStore (l ++ keep) e).drainList keep l

/-- Drains every entry of a core's task that a test selects, in order (R174, R176, R181). -/
def State.drainWhere (s : State) (c : Nat) (p : Store → Bool) : State :=
  let r := drainSplit p (s.task c).stores
  (s.modTask c (fun t => { t with stores := r.2 })).drainList r.2 r.1

/-- Drains the whole pending set of a core's task (R180, R181). -/
def State.drainAll (s : State) (c : Nat) : State := s.drainWhere c (fun _ => true)

end Sys2Proof.Machine
end

