-- ==== Sys2Proof/Machine/Flags.lean ====
section
/-! DEFINITION. The sticky status registers: STAT (R273), TKS (R163), VST (R100), ZST (R106), and the flag counts of R223. -/
namespace Sys2Proof.Machine

/-- SLOW of STAT. -/
def statSLOW : BitVec 7 := 1#7
/-- QDROP of STAT. -/
def statQDROP : BitVec 7 := 2#7
/-- DQFULL of STAT. -/
def statDQFULL : BitVec 7 := 4#7
/-- JNEG of STAT. -/
def statJNEG : BitVec 7 := 8#7
/-- SUND of STAT. -/
def statSUND : BitVec 7 := 16#7
/-- PBOV of STAT. -/
def statPBOV : BitVec 7 := 32#7
/-- HCAN of STAT. -/
def statHCAN : BitVec 7 := 64#7

/-- Events set bits of STAT (R273). -/
def Task.raiseStat (t : Task) (b : BitVec 7) : Task :=
  { t with stat := t.stat ||| b, raised := { t.raised with stat := t.raised.stat ||| b } }
/-- Events set bits of TKS (R163). -/
def Task.raiseTks (t : Task) (b : BitVec 6) : Task :=
  { t with tks := t.tks ||| b, raised := { t.raised with tks := t.raised.tks ||| b } }
/-- Events set bits of VST (R100, R101). -/
def Task.raiseVst (t : Task) (b : BitVec 3) : Task :=
  { t with vst := t.vst ||| b, raised := { t.raised with vst := t.raised.vst ||| b } }
/-- Events set bits of ZST (R106). -/
def Task.raiseZst (t : Task) (b : BitVec 16) : Task :=
  { t with zst := t.zst ||| b, raised := { t.raised with zst := t.raised.zst ||| b } }

/-- Sets bits of STAT (R273). -/
def State.addStat (s : State) (c : Nat) (b : BitVec 7) : State := s.modTask c (·.raiseStat b)
/-- Sets bits of TKS (R163). -/
def State.addTks (s : State) (c : Nat) (b : BitVec 6) : State := s.modTask c (·.raiseTks b)
/-- Sets the VST bits of an event (R100, R101). -/
def State.addVst (s : State) (c : Nat) (e : Num.Ev) : State := s.modTask c (·.raiseVst e.toBits)
/-- Sets the SAT bit of a tile in ZST (R106). -/
def State.addZsat (s : State) (c z : Nat) (p : Bool) : State :=
  if p then s.modTask c (·.raiseZst (BitVec.ofNat 16 (2 ^ z))) else s
/-- Sets the NAN bit of a tile in ZST (R106). -/
def State.addZnan (s : State) (c z : Nat) (p : Bool) : State :=
  if p then s.modTask c (·.raiseZst (BitVec.ofNat 16 (2 ^ (8 + z)))) else s

/-- The counts of a flag; all zero before any setter (R223). -/
def Task.flag (t : Task) (f : BitVec 8) : Flag := NMap.getD t.flags f.toNat ⟨0#32, 0#32, 0#32⟩
/-- Replaces the counts of a flag. -/
def Task.setFlag (t : Task) (f : BitVec 8) (x : Flag) : Task := { t with flags := NMap.set t.flags f.toNat x }

/-- `done ≥ target`, judged on the difference modulo 2^32 as a signed number (R239). -/
def reached (done target : BitVec 32) : Bool := !(done - target).msb

end Sys2Proof.Machine
end

