-- ==== Sys2Proof/Machine/Operands.lean ====
section
/-! DEFINITION. Operand forms: the registers of each side with their scoreboards (R21, R22, R65), queues and their conversions
(R23 to R28), vector operands under masks (R124), and tokens (R85, R195). -/
namespace Sys2Proof.Machine

/-! Registers. -/

/-- An a-register as it stands; a0 is zero (R21). -/
def Task.areg (t : Task) (n : Nat) : Word64 := if n = 0 then 0#64 else t.a[n]?.getD 0#64
/-- An s-register; s0 is zero (R21). -/
def Task.sreg (t : Task) (n : Nat) : Word64 := if n = 0 then 0#64 else t.sr[n]?.getD 0#64
/-- A mask register; m0 is all ones (R21). -/
def Task.mask (t : Task) (n : Nat) : Mask := if n = 0 then BitVec.allOnes 1024 else t.m[n]?.getD 0#1024
/-- Writes an a-register; a write to a0 is discarded (R21). -/
def Task.setAreg (t : Task) (n : Nat) (x : Word64) : Task :=
  if n = 0 then t else { t with a := t.a.setIfInBounds n x, aAwait := t.aAwait.setIfInBounds n .none }
/-- Writes an s-register; a write to s0 is discarded (R21). -/
def Task.setSreg (t : Task) (n : Nat) (x : Word64) : Task :=
  if n = 0 then t else { t with sr := t.sr.setIfInBounds n x }
/-- Writes a mask register; a write to m0 is discarded (R21). -/
def Task.setMask (t : Task) (n : Nat) (x : Mask) : Task :=
  if n = 0 then t else { t with m := t.m.setIfInBounds n x }
/-- The scoreboard of an a-register. -/
def Task.await (t : Task) (n : Nat) : Await := if n = 0 then .none else t.aAwait[n]?.getD .none
/-- Marks an a-register on the scoreboard; a0 awaits nothing (R200, R237) (log 69). -/
def Task.setAwait (t : Task) (n : Nat) (w : Await) : Task :=
  if n = 0 then t else { t with aAwait := t.aAwait.setIfInBounds n w }

/-- Reads an a-register: stalls while it awaits a write (R22, R87), and raises 0x31 where it holds an error word (R183). -/
def State.readA (s : State) (c n : Nat) : Except Stop Word64 :=
  match (s.task c).await n with
  | .none => .ok ((s.task c).areg n)
  | .load | .engine => .error (.stall false)
  | .error => .error (.trap 0x31#8 none)

/-- Waits until an a-register may be written: a write of an awaiting register stalls until that write arrives (R213, log 19). -/
def State.readyA (s : State) (c n : Nat) : Except Stop Unit :=
  match (s.task c).await n with
  | .none | .error => .ok ()
  | .load | .engine => .error (.stall false)

/-! Queues (R23 to R28). -/

/-- A queue's control state. -/
def Task.queue (t : Task) (n : Nat) : QState := t.q[n]?.getD QState.reset
/-- Replaces a queue's control state. -/
def Task.setQueue (t : Task) (n : Nat) (x : QState) : Task := { t with q := t.q.setIfInBounds n x }
/-- SRC format of a queue (R26). -/
def Task.qsrc (t : Task) (n : Nat) : Num.Fmt := (Num.Fmt.ofCode (fld (t.qfmt[n]?.getD 0#8) 0 4).toNat).getD .raw32
/-- SINK format of a queue (R26). -/
def Task.qsink (t : Task) (n : Nat) : Num.Fmt := (Num.Fmt.ofCode (fld (t.qfmt[n]?.getD 0#8) 4 4).toNat).getD .raw32
/-- The narrowing factor g of R27, 1 where the pop does not narrow. -/
def Task.narrow (t : Task) (n : Nat) : Nat := (t.qsrc n).size / (t.qsink n).size |> max 1

/-- Elements that may be popped: in order from the head, up to the first slot still awaiting data (R198), and none pushed in this
cycle or filled in it (R24, R87). -/
def QState.ready (x : QState) (depth : Nat) : Nat :=
  ((List.range (x.occ - x.fresh)).takeWhile (fun i => !x.awaiting.contains ((x.head + i) % depth) && !x.arrived.contains ((x.head + i) % depth))).length

/-- Whether a slot is free for a push; one freed in this cycle is not (R24). -/
def QState.hasRoom (x : QState) (depth : Nat) : Bool := decide (x.occ + x.freed < depth)

/-- A queue at the start of a cycle (R24, R87). -/
def QState.newCycle (x : QState) : QState := { x with fresh := 0, freed := 0, arrived := [] }

/-- Retires `n` elements from the head (R25, R27). -/
def QState.retire (x : QState) (depth n : Nat) : QState :=
  { x with occ := x.occ - n, head := (x.head + n) % depth, p := 0, freed := x.freed + n }

/-- The image of the element `i` places behind the head. -/
def State.qelem (s : State) (c n i : Nat) : Image :=
  let t := s.task c
  s.poolLine c (slotOff t.partw n (((t.queue n).head + i) % pwDepth t.partw))

/-- A scalar pop (R25). -/
def State.popScalar (s : State) (c n : Nat) : Except Stop (Word64 × State) := do
  let t := s.task c
  let x := t.queue n
  waitBlocked (decide (1 ≤ x.ready (pwDepth t.partw)))
  let v : Word64 := BitVec.ofNat 64 ((s.qelem c n 0).toNat / 2 ^ (8 * x.p))
  return (v, s.setTask c (t.setQueue n (x.retire (pwDepth t.partw) 1)))

/-- How many elements a vector pop needs present (R27). -/
def Task.popNeeds (t : Task) (n : Nat) : Nat := t.narrow n

/-- The sink image of a vector pop and what it does to the queue (R27); the elements needed are present. -/
def State.vpop (s : State) (c n : Nat) : Image × State :=
  let t := s.task c
  let x := t.queue n
  let d := pwDepth t.partw
  let ss := (t.qsrc n).size
  let sk := (t.qsink n).size
  -- source bytes from P of the head on, then whole elements (narrowing); what is missing reads zero
  let g := t.narrow n
  let src := ((List.range g).foldl (fun a i => a + (s.qelem c n i).toNat * 2 ^ (32768 * i)) 0) / 2 ^ (8 * x.p)
  let r := packEv (8 * sk) (logCount sk) 0 (fun j =>
    if x.p + ss * (j + 1) ≤ 4096 * g then Num.convert (t.qsrc n) (t.qsink n) (elem (8 * ss) src j) else (0, .none))
  let take := 4096 * ss / sk
  let x' := if ss < sk ∧ x.p + take < 4096 then { x with p := x.p + take } else x.retire d g
  (BitVec.ofNat 32768 r.1, (s.setTask c (t.setQueue n x')).addVst c r.2)

/-- A vector pop, stalling until its elements are present (R24, R27). -/
def State.popVector (s : State) (c n : Nat) : Except Stop (Image × State) := do
  let t := s.task c
  waitBlocked (decide (t.popNeeds n ≤ (t.queue n).ready (pwDepth t.partw)))
  return s.vpop c n

/-- Enters an element at the tail, into a slot that is free (R24, R25, R28). -/
def State.enqueue (s : State) (c n : Nat) (img : Image) : State :=
  let t := s.task c
  let x := t.queue n
  let d := pwDepth t.partw
  let s := s.setPoolLine c (slotOff t.partw n ((x.head + x.occ) % d)) img
  s.modTask c (fun t => t.setQueue n { x with occ := x.occ + 1, fresh := x.fresh + 1, g := (x.g + 1) % t.narrow n })

/-- Whether a push has a free slot. -/
def State.qroom (s : State) (c n : Nat) : Bool := ((s.task c).queue n).hasRoom (pwDepth (s.task c).partw)

/-- A vector push (R24, R25). -/
def State.pushVector (s : State) (c n : Nat) (img : Image) : Except Stop State := do
  waitBlocked (s.qroom c n)
  return s.enqueue c n img

/-- A scalar push: bytes 0 to 7, and zeros (R25). -/
def State.pushScalar (s : State) (c n : Nat) (x : Word64) : Except Stop State := s.pushVector c n (x.setWidth 32768)

/-- Reserves a slot for a load's data (R87, R189): the slot and the state. -/
def State.reserve (s : State) (c n : Nat) : Nat × State :=
  let t := s.task c
  let x := t.queue n
  let i := (x.head + x.occ) % pwDepth t.partw
  (i, s.setTask c (t.setQueue n { x with occ := x.occ + 1, awaiting := x.awaiting ++ [i], g := (x.g + 1) % t.narrow n }))

/-- Fills a reserved slot, whose element can be popped from the next cycle on (R24, R87, R198). -/
def State.fillSlot (s : State) (c n i : Nat) (img : Image) : State :=
  let s := s.setPoolLine c (slotOff (s.task c).partw n i) img
  s.modTask c (fun t => t.setQueue n { t.queue n with awaiting := (t.queue n).awaiting.filter (fun j => j != i), arrived := (t.queue n).arrived ++ [i] })

/-! Scalar operands (R65). -/

/-- ReadOp of a side (R65). -/
def State.readOp (s : State) (c : Nat) (d : Side) (f : BitVec 6) : Except Stop (Word64 × State) :=
  if f.toNat < 32 then
    match d with
    | .a => (s.readA c f.toNat).map (·, s)
    | .x => .ok ((s.task c).sreg f.toNat, s)
  else s.popScalar c (f.toNat - 32)

/-- WriteOp of a side (R65). -/
def State.writeOp (s : State) (c : Nat) (d : Side) (f : BitVec 6) (x : Word64) : Except Stop State :=
  if f.toNat < 32 then
    match d with
    | .a => do s.readyA c f.toNat; return s.modTask c (·.setAreg f.toNat x)
    | .x => .ok (s.modTask c (·.setSreg f.toNat x))
  else s.pushScalar c (f.toNat - 32) x

/-- CondHolds of R41 and R65. -/
def condHolds (cc : BitVec 6) (x : Word64) : Bool :=
  match cc.toNat with
  | 0 => x == 0#64
  | 1 => x != 0#64
  | 2 => x.msb
  | 3 => !x.msb
  | 4 => !x.msb && x != 0#64
  | 5 => x.msb || x == 0#64
  | _ => false

/-- An instruction's own fields are legal, else 0x01 (R48). -/
def legal (i : Instr) : Except Stop Unit := require (wellFormed i) 0x01#8

/-! Vector operands (R22, R124, R126). -/

/-- A vector register that PARTW grants, or any queue (R22). -/
def Task.granted (t : Task) (f : BitVec 6) : Bool := decide (32 ≤ f.toNat) || decide (f.toNat < pwVregs t.partw)
/-- Raises 0x01 where PARTW does not grant every register named (R22). -/
def State.grants (s : State) (c : Nat) (fs : List (BitVec 6)) : Except Stop Unit :=
  require (fs.all (s.task c).granted) 0x01#8
/-- SrcV (R124). -/
def State.srcV (s : State) (c : Nat) (f : BitVec 6) : Except Stop (Image × State) :=
  if f.toNat < 32 then .ok (s.vreg c f.toNat, s) else s.popVector c (f.toNat - 32)
/-- The mask word of a 3-bit field: all ones for field 0 (R124). -/
def State.act (s : State) (c : Nat) (m : BitVec 3) : Mask := (s.task c).mask m.toNat
/-- Spreads a mask over the 32 bits of each lane. -/
def maskImage (m : Mask) : Image := imageOf (fun i => if m.getLsbD i then 2 ^ 32 - 1 else 0)
/-- DstV (R124): active lanes take `img`; the others keep the register's value, or are zero in a pushed element. -/
def State.dstV (s : State) (c : Nat) (f : BitVec 6) (m : BitVec 3) (img : Image) : Except Stop State :=
  let sel := if m = 0#3 then BitVec.allOnes 32768 else maskImage (s.act c m)
  if f.toNat < 32 then
    .ok (s.setVreg c f.toNat ((img &&& sel) ||| (s.vreg c f.toNat &&& ~~~sel)))
  else s.pushVector c (f.toNat - 32) (img &&& sel)
/-- Writes a whole image to a vector register, or pushes it. -/
def State.dstAll (s : State) (c : Nat) (f : BitVec 6) (img : Image) : Except Stop State := s.dstV c f 0#3 img

/-! Tokens (R22, R85, R195). -/

/-- A k-register as it stands. -/
def Task.kreg (t : Task) (k : BitVec 4) : Word32 := t.k[k.toNat]?.getD 0#32
/-- The k-register that a pending write names. -/
def NameWrite.reg : NameWrite → BitVec 4
  | .value k _ _ => k
  | .nst k _ _ => k
/-- Whether a write of a k-register is still to come (R195). -/
def Task.awaitsName (t : Task) (k : BitVec 4) : Bool :=
  t.names.any (fun n => n.reg == k)
/-- Reads a k-register, waiting for every earlier write of it (R85, R195). -/
def State.readK (s : State) (c : Nat) (k : BitVec 4) : Except Stop Word32 := do
  waitFor (!(s.task c).awaitsName k)
  return (s.task c).kreg k

/-- Whether a write behind `l` still waits: for any earlier write of its register, and a name for any earlier name (R195, R203). -/
def NameWrite.waits (l : List NameWrite) (k : BitVec 4) (ordered : Bool) : Bool :=
  l.any (fun m => m.reg == k || (ordered && (match m with | .value _ _ o => o | .nst .. => true)))

/-- Applies the writes of k-registers that nothing earlier holds back (R195): `l` holds those that still wait. -/
def Task.settleFrom (t : Task) (l : List NameWrite) : List NameWrite → Task
  | [] => { t with names := l }
  | .nst k n m :: r => t.settleFrom (l ++ [NameWrite.nst k n m]) r
  | .value k h o :: r =>
    if NameWrite.waits l k o then t.settleFrom (l ++ [NameWrite.value k h o]) r
    else { t with k := t.k.setIfInBounds k.toNat h }.settleFrom l r

/-- Applies the writes of k-registers that nothing earlier holds back (R195). -/
def Task.settleNames (t : Task) : Task := t.settleFrom [] t.names

/-- Writes a k-register after every earlier name of it (R195). -/
def Task.writeK (t : Task) (k : BitVec 4) (h : Word32) (ordered : Bool := false) : Task :=
  { t with names := t.names ++ [NameWrite.value k h ordered] }.settleNames

end Sys2Proof.Machine
end

