-- ==== Sys2Proof/Machine/Fetch.lean ====
section
/-! DEFINITION. How a sequencer comes to its next word: the word itself (R14 to R16), the slip comparison (R20), decoding (R48),
and what holds a sequencer before any word (R87, R192, R32). -/
namespace Sys2Proof.Machine

/-- What an attempt to issue finds. -/
inductive Fetched where
  /-- Nothing issues: no running task, or A stalls on a slow access. -/
  | idle
  /-- Held by the slip comparison (R20). -/
  | slip (s : State)
  /-- A word executes, the program counter on it. -/
  | run (i : Instr) (s : State)

/-- Whether A stalls on a CLASS 2 or 3 access until its data arrives, or its rows are accepted (R87, R192). -/
def Task.heldSlow (t : Task) : Bool :=
  t.loads.any (·.slow) || t.atomics.any (·.slow) || (match t.vatom with | some v => v.slow | none => false)
    || (match t.port with | some n => t.stores.any (·.acc == n) | none => false)

/-- The slip comparison of R20: own count minus the other's equals or exceeds LEAD, as a signed difference modulo 2^32. -/
def Task.slips (t : Task) (d : Side) : Bool :=
  decide ((t.slipw.toNat : Int) ≤ ((t.seq d).marks - (t.seq d.other).seenMarks).toInt)

/-- Whether the task on a core has issued an ending word: both sequencers wait at it (R270, R280). -/
def State.endIssued (s : State) (c : Nat) : Bool :=
  let t := s.task c
  t.seqA.waiting && t.seqX.waiting
    && (match decode (s.curWord c .a) with
        | .ok .tend | .ok .halt | .ok (.yield ..) => true
        | _ => false)

/-- Cycles since the task's pending yield request (R265); none where no request is pending. -/
def State.yieldAge (s : State) (c : Nat) : Option Nat :=
  let y := (s.task c).yreq
  if y.getLsbD 0 then some (s.cyc.setWidth 40 - y.extractLsb' 2 40 : BitVec 40).toNat else none

/-- Whether the deadline of a task's yield request has come (R265). -/
def State.deadlineDue (s : State) (c : Nat) : Bool :=
  match s.yieldAge c with
  | some n => decide ((s.partOf (s.task c).part).ydl.toNat ≤ n)
  | none => false

/-- Whether the cycle of the deadline is over: no word issues in a later one, but an ending word issued goes on (R265, R270). -/
def State.deadlineOver (s : State) (c : Nat) : Bool :=
  match s.yieldAge c with
  | some n => decide ((s.partOf (s.task c).part).ydl.toNat < n) && !s.endIssued c
  | none => false

/-- Whether a sequencer's word in execution still goes on while the task is being saved: a QFLUSH with zero elements to push and room for
them (R28, R150). -/
def State.flushes (s : State) (c : Nat) (d : Side) : Bool :=
  match (s.seq c d).flushing with
  | some n => s.qroom c n
  | none => false

/-- What every ending word waits for: loads, atomics, SPAWN and JOIN, stores home (R145, R282). -/
def State.accessesDone (s : State) (c : Nat) : Bool :=
  let t := s.task c
  t.loads.isEmpty && t.atomics.isEmpty && t.vatom.isNone && t.stores.isEmpty

/-- Whether steps 1 to 3 of a save are done on a core: its words in execution are at an end, its accesses and stores home (R150, R262). -/
def State.accessesSettled (s : State) (c : Nat) : Bool :=
  s.accessesDone c && (s.task c).push.isNone && (s.task c).owed.isNone && !s.flushes c .a && !s.flushes c .x

/-- Whether a side of a core issues words: its task runs, short of a deadline that is over; or the other side has raised a trap in this
cycle, in which it has yet to issue (R32); or, while the task is being saved, its word in execution goes on: a write that A owes
(R189, R322, R323), a QFLUSH, which goes on after a trap of the other side too. -/
def State.issues (s : State) (c : Nat) (d : Side) : Bool :=
  let late := (s.seq c d.other).issued && !(s.seq c d).issued
  match (s.core c).mode with
  | .run => !s.deadlineOver c || (d == .a && (s.task c).owed.isSome) || s.flushes c d
  | .save susp => (d == .a && (s.task c).owed.isSome) || s.flushes c d || (susp && d == .x && late)
  | .stopped => late || s.flushes c d
  | .idle | .restore => false

/-- The next word of a side (R15, R16, R20, R48) (log 27). -/
def State.fetch (s : State) (c : Nat) (d : Side) : Fetched :=
  if !s.issues c d then .idle
  else if d = .a ∧ (s.task c).heldSlow then .idle
  else
    match s.kernel (s.task c).kid with
    | none => .idle
    | some k =>
      let q := s.seq c d
      if !k.executable q.pc.toNat then .run .executeData s
      else
        let j := s.ownFrom k d q.pc.toNat
        let s := s.setSeq c d { q with pc := BitVec.ofNat 32 j }
        if k.textLen ≤ j then .run .executeData s
        else
          let w := s.textWord k j
          if fld w 30 2 = 2#2 ∧ !q.waiting ∧ (s.task c).slips d then .slip s
          else
            match decode w with
            | .ok i => .run i s
            | .error _ => .run .illegalInstruction s

/-- Whether a step is one that another agent takes in its turn, and no word of a sequencer (R35, R48). -/
def isEvent (i : Instr) : Bool :=
  (encode i).isNone && i != .illegalInstruction && i != .executeData

end Sys2Proof.Machine
end

