-- ==== Sys2Proof/Machine/Access.lean ====
section
/-! DEFINITION. Accesses through tokens (R85, R174, R175, R189, R190): the hold test, dirty logging (R170, R321, R322), stores
into the pending set, loads in flight, and reads made in one step. -/
namespace Sys2Proof.Machine

/-- The page of one byte of an extent, where it has one. -/
def State.pageAt (s : State) (ctx i off : Nat) : List Frame :=
  let e := s.entry ctx i
  match e.locate (s.entrySwz e) off with
  | some (_, _, _, _, some f) => [f]
  | _ => []

/-- The pages that bytes `off` to `off + n - 1` of an extent touch; an access of at most one page's length touches two at most. -/
def State.pagesOf (s : State) (ctx i off n : Nat) : List Frame :=
  if n = 0 then []
  else if s.pageAt ctx i off = s.pageAt ctx i (off + n - 1) then s.pageAt ctx i off
  else s.pageAt ctx i off ++ s.pageAt ctx i (off + n - 1)

/-- The pinned pages of a leaf count as dirty from now on (R170). -/
def PetEntry.markLeaf (e : PetEntry) (leaf : Nat) : PetEntry :=
  { e with frames := e.frames.map (fun f => if f.leaf = some leaf then { f with dirty := true } else f) }

/-- Every pinned page of a leaf counts as dirty from now on. -/
def State.markLeaf (s : State) (leaf : Nat) : State :=
  { s with contexts := NMap.mapv s.contexts (fun _ x => { x with pet := NMap.mapv x.pet (fun _ e => e.markLeaf leaf) }) }

/-- Logs the first write to a clean page (R170): appends to the ring, sets DIRTY. Held where the ring is full or other writers
were held before (R322); `who` names the writer (log 31). -/
def State.logPage (s : State) (part who : Nat) (f : Frame) : Except Stop State :=
  match f.leaf with
  | none => .ok s
  | some leaf =>
    let p := s.partOf part
    let log := (fld p.dlb 0 5).toNat
    if !f.dte || log = 0 || f.dirty then .ok s
    else if p.dirtyFull || !(p.dirtyHeld.headD who == who) then .error (.hold part who)
    else
      let ringAt := 4096 * (fld p.dlb 12 36).toNat + 8 * (p.dlh.toNat % 2 ^ log)
      if (place s.nstr ringAt).isNone then .error (.fault (.unmapped ringAt))
      else
        let word := 65536 * f.index + (if f.size = 2 ^ 21 then 1 else 0)
        let s := s.writeRun ringAt (bytesOf 8 word)
        let s := (s.writeByte (leaf + 1) (s.mem.read (leaf + 1) ||| 4#8)).markLeaf leaf
        .ok (s.modPartition part (fun p => { p with dlh := p.dlh + 1#32 }))

/-- Takes writers out of the line at a full dirty log ring. -/
def State.unhold (s : State) (part : Nat) (who : List Nat) : State :=
  s.modPartition part (fun p => { p with dirtyHeld := p.dirtyHeld.filter (fun w => !who.contains w) })

/-- Logs pages one after another (R170): the state, and whether the writer is held at one of them. -/
def State.logPages (s : State) (part who : Nat) : List Frame → Except Stop (State × Bool)
  | [] => .ok (if (s.partOf part).dirtyHeld.contains who then s.unhold part [who] else s, false)
  | f :: fs =>
    match s.logPage part who f with
    | .ok s => s.logPages part who fs
    | .error (.hold part who) => .ok (s.holdWriter part who, true)
    | .error e => .error e

/-- Logs every page that a write of one row touches (R170); the writer is held no longer. -/
def State.logDirty (s : State) (part who ctx i off n : Nat) : Except Stop State := do
  let (s, held) ← s.logPages part who (s.pagesOf ctx i off n)
  if held then throw (.hold part who) else return s

/-- The hold test and TokenCheck of an access by the task on a core (R85, R189): the entry reached, the bytes inside, and the state
with TKS set. A held access is noted (R165), one above the in-flight bound stalls (R161). -/
def State.check (s : State) (c : Nat) (h : Word32) (off n : Nat) (wr : Bool) : Except Stop (Option Nat × Nat × State) :=
  let ctx := (s.task c).ctx
  match s.tokenCheck ctx h off n wr with
  | .held => .error (.held ctx (handleIndex h))
  | .done none _ b => .ok (none, 0, s.addTks c b)
  | .done (some i) m b =>
    if (s.entry ctx i).infl < inflMax then .ok (some i, m, s.addTks c b) else .error (.stall false)

/-- Whether an earlier load of the task, through the entry `ent` or through any, still has a step to take on a row. -/
def Task.loadsBusy (t : Task) (ent : Option Nat) (r : Row) (before : Nat) : Bool :=
  t.loads.any (fun l => decide (l.acc < before) && (ent.isNone || l.ent == ent) && l.todo.any (fun p => sameRow p.row r))

/-- Whether an earlier access of the task still has a step to take on a row that a later load or atomic waits for: a load through the same
entry (R190), or an atomic through any, since program order orders the later access after its step (R178, R253). -/
def Task.rowBusy (t : Task) (ent : Nat) (r : Row) (before : Nat) : Bool :=
  t.loadsBusy (some ent) r before
    || t.atomics.any (fun a => decide (a.acc < before) && a.parts.any (fun p => sameRow p.row r))
    || (match t.vatom with
        | some v => decide (v.acc < before) && v.lanes.any (fun l => l.1.any (fun p => sameRow p.row r))
        | none => false)

/-- Waits until no earlier access of the task that counts has a step to take on a row of the parts (R190, R253). -/
def State.rowsFree (s : State) (c e : Nat) (ps : List Piece) : Except Stop Unit :=
  waitFor (ps.all (fun p => !(s.task c).rowBusy e p.row s.fresh))

/-- Waits as `rowsFree` does, and for loads of the rows through any token, since a load sees no later store of its task (R88). A store
waits here before it counts or pops, and repeats its hold test (R189) (log 87). -/
def State.storeFree (s : State) (c e : Nat) (ps : List Piece) : Except Stop Unit := do
  s.rowsFree c e ps
  waitFor (ps.all (fun p => !(s.task c).loadsBusy none p.row s.fresh))

/-- The pending entry of a piece of a store, its data taken from an image by index. -/
def storeOf (ctx ent acc : Nat) (priv : Bool) (data : Nat) (p : Piece) : Store where
  row := p.row
  cells := p.bytes.map (fun b => (b.2, BitVec.ofNat 8 (data / 2 ^ (8 * b.1))))
  priv := priv
  ctx := ctx
  ent := ent
  acc := acc
  wake := none

/-- Whether an access of the task older than a number has a step still to take (R307). -/
def Task.busyBefore (t : Task) (n : Nat) : Bool :=
  t.loads.any (fun l => decide (l.acc < n)) || t.atomics.any (fun a => decide (a.acc < n))
    || (match t.vatom with | some v => decide (v.acc < n) | none => false)

/-- Waits until the whole pending set may drain: every access before a wake entry has taken its steps (R307). -/
def State.drainReady (s : State) (c : Nat) : Except Stop Unit :=
  waitFor ((s.task c).stores.all (fun e => e.wake.isNone || !(s.task c).busyBefore e.acc))

/-! Writes that dirty logging may hold (R170, R189, R322). -/

/-- Logs the pages of byte ranges one after another, as far as the ring takes them: what is still to log, the writer then held. -/
def State.logRanges (s : State) (part who ctx ent : Nat) : List (Nat × Nat) → Except Stop (State × List (Nat × Nat))
  | [] => .ok (s, [])
  | (off, n) :: l =>
    match s.logPages part who (s.pagesOf ctx ent off n) with
    | .ok (s, false) => s.logRanges part who ctx ent l
    | .ok (s, true) => .ok (s, (off, n) :: l)
    | .error e => .error e

/-- An atomic goes into flight, its register awaiting the old value (R200). -/
def Task.startAtomic (t : Task) (f : AtomicFlight) : Task := { t with atomics := t.atomics ++ [f] }.setAwait f.d .load

/-- The word's write is logged and takes its place: the pending set, or an atomic in flight; a JOIN makes its step by itself. -/
def Task.makeWrite (t : Task) : OwedWrite → Task
  | .stores es => { t with stores := t.stores ++ es }
  | .atomic f => t.startAtomic f
  | .vatom f => { t with vatom := some f }
  | .join _ => t

/-- Goes on with the write that A's word owes (R189): logs what it can, and makes the write once everything is logged. -/
def State.payOwed (s : State) (c : Nat) (o : Owed) : Except Stop State := do
  let t := s.task c
  let (s, left) ← s.logRanges t.part c t.ctx o.ent o.todo
  if left.isEmpty then return s.modTask c (fun t => { t with owed := none }.makeWrite o.write)
  else return s.modTask c (fun t => { t with owed := some { o with todo := left } })

/-- Steps 4 and 5 of R189 for a write of the word under A's program counter: it counts in INFL, and its pages are logged, or owed. The
access takes the number `s.fresh`. -/
def State.owe (s : State) (c ent : Nat) (todo : List (Nat × Nat)) (w : OwedWrite) : Except Stop State :=
  ({ s with fresh := s.fresh + 1 }.raiseInfl (s.task c).ctx ent).payOwed c ⟨s.fresh, ent, todo, w⟩

/-- The word completes once it owes nothing; else A stays at it (R189). -/
def State.afterWrite (s : State) (c : Nat) : State :=
  if (s.task c).owed.isNone then s.retire c .a else s.setSeq c .a { s.seq c .a with blocked := false }

/-- A word of A that writes: it goes on with what it owes, or does `run` (R189). -/
def writeWord (i : Instr) (s : State) (run : Run) : Host.Outcome State Fault Refusal :=
  settle s.cur .a s (do
    legal i
    match (s.task s.cur).owed with
    | some o => return (← s.payOwed s.cur o).afterWrite s.cur
    | none => run)

/-- Appends a store's entries to the pending set (R174): one for each row part, counted in INFL as one access. It waits for earlier
accesses of the same row (R190, R253). `data` is the number whose byte `i` goes to offset `off + i`. -/
def State.store (s : State) (c ent off n data : Nat) : Except Stop State := do
  let t := s.task c
  let ps := s.pieces t.ctx ent off n
  s.storeFree c ent ps
  if ps.isEmpty then return s
  else s.owe c ent [(off, n)] (.stores (ps.map (storeOf t.ctx ent s.fresh (s.entry t.ctx ent).priv data)))

/-- Whether an access's bytes lie in a wake window (R306). -/
def State.inWakeWindow (s : State) (c ent off n : Nat) : Bool :=
  (s.pagesOf (s.task c).ctx ent off n).any (·.wake)

/-- The hold test of an access that names bytes lane by lane (R189, step 3): the state of the entry and the in-flight bound. -/
def State.holdTest (s : State) (c : Nat) (h : Word32) : Except Stop Unit :=
  let ctx := (s.task c).ctx
  let e := s.entry ctx (handleIndex h)
  if handleIndex h = 0 ∨ !s.inTable ctx (handleIndex h) ∨ e.gen ≠ handleGen h then .ok ()
  else if e.state = .quiescing ∨ e.state = .held then .error (.held ctx (handleIndex h))
  else waitFor (decide (e.infl < inflMax))

/-- Starts a load of the bytes inside (R175): a flight whose steps are still to come. -/
def State.startLoad (s : State) (c : Nat) (ent : Option Nat) (todo : List Piece) (dest : LoadDest) (slow : Bool) : State :=
  let f : LoadFlight := ⟨s.fresh, ent, todo, 0#32768, dest, slow⟩
  let s := s.modTask c (fun t => { t with loads := t.loads ++ [f] })
  let s := { s with fresh := s.fresh + 1 }
  match ent with
  | some i => s.raiseInfl (s.task c).ctx i
  | none => s

/-- Reads `n` bytes through a checked entry in one step for each row, as the task sees them (R175). -/
def State.readNow (s : State) (c ent off n : Nat) : Image :=
  let t := s.task c
  (s.pieces t.ctx ent off n).foldl (fun img p => s.readPiece t.stores p img) 0#32768

/-- A store of CLASS 3 sets STAT.SLOW and, where it appends anything, holds A until the port has accepted its rows (R192): `n` is its
number. -/
def State.slowStore (s : State) (c n : Nat) (slow appends : Bool) : State :=
  if slow then (s.addStat c statSLOW).modTask c (fun t => { t with port := if appends then some n else t.port }) else s

/-- Whether an entry's frames lie on another package (R289). -/
def PetEntry.elsewhere (e : PetEntry) : Bool :=
  match e.origin with
  | .translated => e.frames.any (fun f => decide (Config.remoteBase ≤ f.phys))
  | .anonymous => decide (Config.remoteBase ≤ e.base)
  | .scratchpad => false

/-- The class that an entry's accesses are timed as: 3 where its frames lie on another package (R289). -/
def PetEntry.timedAs (e : PetEntry) : Nat := if e.elsewhere then 3 else e.cls

/-- Whether an entry's accesses are slow: CLASS 2 or 3 (R192, R289). -/
def State.isSlow (s : State) (c : Nat) (ent : Option Nat) : Bool :=
  match ent with
  | some i => decide (2 ≤ (s.entry (s.task c).ctx i).timedAs)
  | none => false

/-- Whether a write through an entry is slow: CLASS 3 (R192, R289). -/
def State.slowWrite (s : State) (c e : Nat) : Bool := (s.entry (s.task c).ctx e).timedAs == 3

/-- A issues no memory access while a vector atomic has lanes to step (R202). -/
def State.noVatom (s : State) (c : Nat) : Except Stop Unit := waitFor (s.task c).vatom.isNone

/-- The 64-bit offset of an access: register value plus a displacement, modulo 2^64. -/
def offsetOf (o : Word64) (d : Nat) : Nat := (o.toNat + d) % 2 ^ 64

/-- The wake register at an address of a wake window (R306), those of peer packages counted on from 8,192. -/
def wakeRegister (a : Nat) : Nat :=
  if Config.wakeBase ≤ a then (a - Config.wakeBase) % 65536 / 8 else (a - Config.remoteBase) / 8

/-- Appends a store of `n` bytes as `store` does, unless it lies in a wake window: there an 8-byte scalar store is a wake, and any
other write is suppressed with TKS.PERM (R306). `off` is the offset and `m` the bytes inside. -/
def State.storeOrWake (s : State) (c ent off m data : Nat) (scalar : Bool) : Except Stop State :=
  if s.inWakeWindow c ent off m then
    match s.pieces (s.task c).ctx ent off m with
    | p :: _ =>
      if scalar && decide (m = 8) then
        let a := (p.bytes.headD (0, 0)).2
        let e : Store := { storeOf (s.task c).ctx ent s.fresh false data p with
                           cells := [], wake := some (wakeRegister a, BitVec.ofNat 64 data) }
        do
          s.storeFree c ent [p]
          s.owe c ent [(off, m)] (.stores [e])
      else .ok (s.addTks c tksPERM)
    | [] => .ok s
  else s.store c ent off m data

/-- The lanes of a gather, scatter or vector atomic that take part: lane and offset, SKIP lanes left out (R191). -/
def lanesOf (offs : Image) : List (Nat × Nat) :=
  (List.range 1024).filterMap (fun i =>
    let p := lane offs i
    if p = 0xFFFFFFFF then none else some (i, p / 4 * 4))

/-- What TokenCheck finds of each lane: lane, offset, bytes inside, entry; and the TKS bits together (R199, R201). -/
def State.checkLanes (s : State) (c : Nat) (h : Word32) (wr : Bool) (l : List (Nat × Nat)) :
    List (Nat × Nat × Nat × Nat) × BitVec 6 :=
  l.foldr (fun (x : Nat × Nat) r =>
    match s.tokenCheck (s.task c).ctx h x.2 4 wr with
    | .held => r
    | .done (some e) m b => ((x.1, x.2, m, e) :: r.1, r.2 ||| b)
    | .done none _ b => (r.1, r.2 ||| b)) ([], 0#6)

end Sys2Proof.Machine
end

