-- ==== Sys2Proof/Machine/Scalar.lean ====
section
/-! DEFINITION. The scalar block that both sequencers share (R65 to R73), and QMOV and QFLUSH (R83, R84). -/
namespace Sys2Proof.Machine

/-- The outcome of every instruction. -/
abbrev Out := Host.Outcome State Fault Refusal

/-- An instruction with two scalar sources (R65): check, pops in the order a, b, result, write or push. -/
def scalarRR (i : Instr) (d : Side) (fd fa fb : BitVec 6) (f : Word64 → Word64 → Word64) (s : State) : Out :=
  settle s.cur d s do
    legal i
    let (x, t) ← s.readOp s.cur d fa
    let (y, t) ← t.readOp s.cur d fb
    let t ← t.writeOp s.cur d fd (f x y)
    return t.retire s.cur d

/-- An instruction with one scalar source (R65). -/
def scalarR (i : Instr) (d : Side) (fd fa : BitVec 6) (f : Word64 → Word64) (s : State) : Out :=
  settle s.cur d s do
    legal i
    let (x, t) ← s.readOp s.cur d fa
    let t ← t.writeOp s.cur d fd (f x)
    return t.retire s.cur d

/-! Results of the ALU group (R68). -/

/-- A truth value as 1 or 0. -/
def bit64 (p : Bool) : Word64 := if p then 1#64 else 0#64
/-- Shift count of SLL, SRL and SRA. -/
def shCount (y : Word64) : Nat := (fld y 0 6).toNat
/-- MULH: high half of the signed product. -/
def mulhS (x y : Word64) : Word64 := BitVec.ofInt 64 ((x.toInt * y.toInt) / 2 ^ 64)
/-- MULHU: high half of the unsigned product. -/
def mulhU (x y : Word64) : Word64 := BitVec.ofNat 64 (x.toNat * y.toNat / 2 ^ 64)
/-- CLZ: leading zeros, 64 for zero. -/
def clz64 (x : Word64) : Word64 := if x = 0#64 then 64#64 else BitVec.ofNat 64 (63 - Nat.log2 x.toNat)
/-- BFX and BFXS: the field of `len` bits from bit `lo` (R71). -/
def field64 (signed : Bool) (x : Word64) (lo len : Nat) : Word64 :=
  let f := x.extractLsb' lo len
  if signed then f.signExtend 64 else f.setWidth 64

/-- ADD (R68). -/
def execAdd (d : Side) (fd fa fb : BitVec 6) (s : State) : Out :=
  scalarRR (.add d fd fa fb) d fd fa fb (fun x y => x + y) s
/-- SUB (R68). -/
def execSub (d : Side) (fd fa fb : BitVec 6) (s : State) : Out :=
  scalarRR (.sub d fd fa fb) d fd fa fb (fun x y => x - y) s
/-- AND (R68). -/
def execAnd (d : Side) (fd fa fb : BitVec 6) (s : State) : Out :=
  scalarRR (.and d fd fa fb) d fd fa fb (fun x y => x &&& y) s
/-- OR (R68). -/
def execOr (d : Side) (fd fa fb : BitVec 6) (s : State) : Out :=
  scalarRR (.or d fd fa fb) d fd fa fb (fun x y => x ||| y) s
/-- XOR (R68). -/
def execXor (d : Side) (fd fa fb : BitVec 6) (s : State) : Out :=
  scalarRR (.xor d fd fa fb) d fd fa fb (fun x y => x ^^^ y) s
/-- SLL (R68). -/
def execSll (d : Side) (fd fa fb : BitVec 6) (s : State) : Out :=
  scalarRR (.sll d fd fa fb) d fd fa fb (fun x y => x <<< shCount y) s
/-- SRL (R68). -/
def execSrl (d : Side) (fd fa fb : BitVec 6) (s : State) : Out :=
  scalarRR (.srl d fd fa fb) d fd fa fb (fun x y => x >>> shCount y) s
/-- SRA (R68). -/
def execSra (d : Side) (fd fa fb : BitVec 6) (s : State) : Out :=
  scalarRR (.sra d fd fa fb) d fd fa fb (fun x y => x.sshiftRight (shCount y)) s
/-- MUL (R68). -/
def execMul (d : Side) (fd fa fb : BitVec 6) (s : State) : Out :=
  scalarRR (.mul d fd fa fb) d fd fa fb (fun x y => x * y) s
/-- MULH (R68). -/
def execMulh (d : Side) (fd fa fb : BitVec 6) (s : State) : Out :=
  scalarRR (.mulh d fd fa fb) d fd fa fb (fun x y => mulhS x y) s
/-- MULHU (R68). -/
def execMulhu (d : Side) (fd fa fb : BitVec 6) (s : State) : Out :=
  scalarRR (.mulhu d fd fa fb) d fd fa fb (fun x y => mulhU x y) s
/-- SLT (R68). -/
def execSlt (d : Side) (fd fa fb : BitVec 6) (s : State) : Out :=
  scalarRR (.slt d fd fa fb) d fd fa fb (fun x y => bit64 (x.slt y)) s
/-- SLTU (R68). -/
def execSltu (d : Side) (fd fa fb : BitVec 6) (s : State) : Out :=
  scalarRR (.sltu d fd fa fb) d fd fa fb (fun x y => bit64 (x.ult y)) s
/-- SEQ (R68). -/
def execSeq (d : Side) (fd fa fb : BitVec 6) (s : State) : Out :=
  scalarRR (.seq d fd fa fb) d fd fa fb (fun x y => bit64 (x == y)) s
/-- SNE (R68). -/
def execSne (d : Side) (fd fa fb : BitVec 6) (s : State) : Out :=
  scalarRR (.sne d fd fa fb) d fd fa fb (fun x y => bit64 (x != y)) s
/-- MIN (R68). -/
def execMin (d : Side) (fd fa fb : BitVec 6) (s : State) : Out :=
  scalarRR (.min d fd fa fb) d fd fa fb (fun x y => if x.slt y then x else y) s
/-- MAX (R68). -/
def execMax (d : Side) (fd fa fb : BitVec 6) (s : State) : Out :=
  scalarRR (.max d fd fa fb) d fd fa fb (fun x y => if x.slt y then y else x) s
/-- MINU (R68). -/
def execMinu (d : Side) (fd fa fb : BitVec 6) (s : State) : Out :=
  scalarRR (.minu d fd fa fb) d fd fa fb (fun x y => if x.ult y then x else y) s
/-- MAXU (R68). -/
def execMaxu (d : Side) (fd fa fb : BitVec 6) (s : State) : Out :=
  scalarRR (.maxu d fd fa fb) d fd fa fb (fun x y => if x.ult y then y else x) s
/-- CLZ (R68). -/
def execClz (d : Side) (fd fa : BitVec 6) (s : State) : Out := scalarR (.clz d fd fa) d fd fa clz64 s
/-- SEL (R68): reads its destination, after a and b, as the condition. -/
def execSel (d : Side) (fd fa fb : BitVec 6) (s : State) : Out :=
  settle s.cur d s do
    legal (.sel d fd fa fb)
    let (x, t) ← s.readOp s.cur d fa
    let (y, t) ← t.readOp s.cur d fb
    let (c, t) ← t.readOp s.cur d fd
    let t ← t.writeOp s.cur d fd (if c ≠ 0#64 then x else y)
    return t.retire s.cur d

/-- ADDI (R69). -/
def execAddi (d : Side) (fd fa : BitVec 6) (i : BitVec 12) (s : State) : Out :=
  scalarR (.addi d fd fa i) d fd fa (fun x => x + i.signExtend 64) s
/-- ANDI (R69). -/
def execAndi (d : Side) (fd fa : BitVec 6) (i : BitVec 12) (s : State) : Out :=
  scalarR (.andi d fd fa i) d fd fa (fun x => x &&& i.signExtend 64) s
/-- ORI (R69). -/
def execOri (d : Side) (fd fa : BitVec 6) (i : BitVec 12) (s : State) : Out :=
  scalarR (.ori d fd fa i) d fd fa (fun x => x ||| i.signExtend 64) s
/-- XORI (R69). -/
def execXori (d : Side) (fd fa : BitVec 6) (i : BitVec 12) (s : State) : Out :=
  scalarR (.xori d fd fa i) d fd fa (fun x => x ^^^ i.signExtend 64) s
/-- SLTI (R69). -/
def execSlti (d : Side) (fd fa : BitVec 6) (i : BitVec 12) (s : State) : Out :=
  scalarR (.slti d fd fa i) d fd fa (fun x => bit64 (x.slt (i.signExtend 64))) s
/-- SLTIU (R69). -/
def execSltiu (d : Side) (fd fa : BitVec 6) (i : BitVec 12) (s : State) : Out :=
  scalarR (.sltiu d fd fa i) d fd fa (fun x => bit64 (x.ult (i.signExtend 64))) s
/-- SLLI (R70). -/
def execSlli (d : Side) (fd fa : BitVec 6) (n : BitVec 6) (s : State) : Out :=
  scalarR (.slli d fd fa n) d fd fa (fun x => x <<< n.toNat) s
/-- SRLI (R70). -/
def execSrli (d : Side) (fd fa : BitVec 6) (n : BitVec 6) (s : State) : Out :=
  scalarR (.srli d fd fa n) d fd fa (fun x => x >>> n.toNat) s
/-- SRAI (R70). -/
def execSrai (d : Side) (fd fa : BitVec 6) (n : BitVec 6) (s : State) : Out :=
  scalarR (.srai d fd fa n) d fd fa (fun x => x.sshiftRight n.toNat) s
/-- BFX (R71): lowest bit l, length n + 1. -/
def execBfx (d : Side) (fd fa l n : BitVec 6) (s : State) : Out :=
  scalarR (.bfx d fd fa l n) d fd fa (fun x => field64 false x l.toNat (n.toNat + 1)) s
/-- BFXS (R71): lowest bit l, length n + 1. -/
def execBfxs (d : Side) (fd fa l n : BitVec 6) (s : State) : Out :=
  scalarR (.bfxs d fd fa l n) d fd fa (fun x => field64 true x l.toNat (n.toNat + 1)) s

/-- MOVI (R72). -/
def execMovi (d : Side) (fd : BitVec 6) (i : BitVec 18) (s : State) : Out :=
  settle s.cur d s do
    legal (.movi d fd i)
    let t ← s.writeOp s.cur d fd (i.signExtend 64)
    return t.retire s.cur d

/-- MOVHI (R72): replaces 16-bit chunk h of the destination. -/
def execMovhi (d : Side) (fd : BitVec 6) (h : BitVec 2) (v : BitVec 16) (s : State) : Out :=
  settle s.cur d s do
    legal (.movhi d fd h v)
    let (x, t) ← s.readOp s.cur d fd
    let sh := 16 * h.toNat
    let t ← t.writeOp s.cur d fd ((x &&& ~~~(0xffff#64 <<< sh)) ||| (v.setWidth 64 <<< sh))
    return t.retire s.cur d

/-! Queue instructions. -/

/-- QMOV (R83): under tag A a converting pop of q4 to q7 pushed to q0 to q3, under tag X an image moved between registers and queues. -/
def execQmov (d : Side) (fd fa : BitVec 6) (s : State) : Out :=
  settle s.cur d s do
    legal (.qmov d fd fa)
    match d with
    | .a => do
      let (img, t) ← s.popVector s.cur (fa.toNat - 32)
      let t ← t.pushVector s.cur (fd.toNat - 32) img
      return t.retire s.cur d
    | .x => do
      s.grants s.cur [fd, fa]
      let (img, t) ← s.srcV s.cur fa
      let t ← t.dstAll s.cur fd img
      return t.retire s.cur d

/-- Whether a side is the producer of a queue (R23, R84). -/
def produces (d : Side) (n : Nat) : Bool :=
  match d with
  | .a => decide (n < 4)
  | .x => decide (4 ≤ n)

/-- QFLUSH (R28, R84): a producer pads its group with zero elements, one for each step in which a slot is free, until G as it then stands is
0 (log 97); a consumer retires a partly read head. -/
def execQflush (d : Side) (fa : BitVec 6) (s : State) : Out :=
  settle s.cur d s do
    legal (.qflush d fa)
    let n := fa.toNat - 32
    let x := (s.task s.cur).queue n
    if produces d n then
      if x.g = 0 then return s.retire s.cur d
      else do
        let t ← s.pushVector s.cur n 0#32768
        -- the last zero element brings the group count back to zero and completes the word
        if ((t.task s.cur).queue n).g = 0 then return t.retire s.cur d
        else return t.progress s.cur d n
    else if x.p = 0 then return s.retire s.cur d
    else do
      return (s.modTask s.cur (fun t => t.setQueue n (x.retire (pwDepth t.partw) 1))).retire s.cur d

end Sys2Proof.Machine
end

