-- ==== Sys2Proof/Machine/Control.lean ====
section
/-! DEFINITION. Private branches, the control words of both sequencers, return stacks and hardware loops (R74 to R82), and YCHK (R279). -/
namespace Sys2Proof.Machine

/-- Target of a branch: word offset from the branch (R38). -/
def branchTarget (pc : BitVec 32) {n : Nat} (off : BitVec n) : Nat := (pc + off.signExtend 32).toNat

/-- A private conditional branch (R74). -/
def privateBranch (i : Instr) (d : Side) (fd cc : BitVec 6) (off : BitVec 12) (s : State) : Out :=
  settle s.cur d s do
    legal i
    let (x, t) ← s.readOp s.cur d fd
    if condHolds cc x then return t.retireTo s.cur d (branchTarget (s.seq s.cur d).pc off)
    else return t.retire s.cur d

/-- BPA (R74). -/
def execBpa (fd cc : BitVec 6) (off : BitVec 12) (s : State) : Out := privateBranch (.bpa fd cc off) .a fd cc off s
/-- BPX (R74). -/
def execBpx (fd cc : BitVec 6) (off : BitVec 12) (s : State) : Out := privateBranch (.bpx fd cc off) .x fd cc off s

/-- JMPI (R75): 0x03 outside the mark interval, 0x02 on a data word. -/
def execJmpi (d : Side) (fa : BitVec 6) (off : BitVec 12) (s : State) : Out :=
  settle s.cur d s do
    legal (.jmpi d fa off)
    let (x, t) ← s.readOp s.cur d fa
    let g := (x + off.signExtend 64).toNat
    match s.kernel (s.task s.cur).kid with
    | none => throw (.stall false)
    | some k => do
      require (decide (g < k.textLen) && k.interval g == k.interval (s.seq s.cur d).pc.toNat) 0x03#8
      require (k.executable g) 0x02#8
      return t.retireTo s.cur d g

/-- B (R76). -/
def execB (off : BitVec 24) (s : State) : Out :=
  settle s.cur s.side s do
    legal (.b off)
    return s.retireTo s.cur s.side (branchTarget (s.seq s.cur s.side).pc off) true

/-! Branch-outcome queues (R29). -/

/-- Pushes an entry to a side's own branch-outcome queue, of 64 entries (R29). -/
def State.pushOutcome (s : State) (c : Nat) (d : Side) (v : BitVec 32) : Except Stop State := do
  let q := s.seq c d
  waitBlocked (decide (q.bq.length < 64))
  return s.setSeq c d { q with bq := q.bq ++ [v], bqFresh := q.bqFresh + 1 }

/-- Pops the oldest entry of the other side's branch-outcome queue; one pushed in this cycle is not visible (R24, R29). -/
def State.popOutcome (s : State) (c : Nat) (d : Side) : Except Stop (BitVec 32 × State) := do
  let q := s.seq c d.other
  waitBlocked (decide (q.bqFresh < q.bq.length))
  return (q.bq.headD 0#32, s.setSeq c d.other { q with bq := q.bq.drop 1 })

/-- The value that the owner of a shared condition or count reads: an a-register for A, an s-register for X (R77). -/
def State.ownerReg (s : State) (c : Nat) (owner : Side) (r : BitVec 6) : Except Stop Word64 :=
  match owner with
  | .a => s.readA c r.toNat
  | .x => .ok ((s.task c).sreg r.toNat)

/-- What both sides learn of a value that one side computes: the owner computes and pushes it, the other pops it (R29, R77). -/
def State.shared (s : State) (c : Nat) (d owner : Side) (v : Except Stop (BitVec 32)) : Except Stop (BitVec 32 × State) :=
  if d = owner then do
    let v ← v
    let t ← s.pushOutcome c d v
    return (v, t)
  else s.popOutcome c d

/-- A conditional branch that both sides follow (R77). -/
def sharedBranch (i : Instr) (owner : Side) (fd cc : BitVec 6) (off : BitVec 12) (s : State) : Out :=
  settle s.cur s.side s do
    legal i
    let (v, t) ← s.shared s.cur s.side owner do
      let x ← s.ownerReg s.cur owner fd
      return if condHolds cc x then 1#32 else 0#32
    if v = 1#32 then return t.retireTo s.cur s.side (branchTarget (s.seq s.cur s.side).pc off) true
    else return t.retire s.cur s.side true

/-- BRX (R77): X owns the condition. -/
def execBrx (fd cc : BitVec 6) (off : BitVec 12) (s : State) : Out := sharedBranch (.brx fd cc off) .x fd cc off s
/-- BRA (R77): A owns the condition. -/
def execBra (fd cc : BitVec 6) (off : BitVec 12) (s : State) : Out := sharedBranch (.bra fd cc off) .a fd cc off s

/-- YCHK (R279): A owns the condition, which is YREQ.PEND; one set in cycle t is seen from t + 1. -/
def execYchk (off : BitVec 24) (s : State) : Out :=
  settle s.cur s.side s do
    legal (.ychk off)
    let (v, t) ← s.shared s.cur s.side .a (return if (s.task s.cur).yreq.getLsbD 0 && (s.task s.cur).yseen then 1#32 else 0#32)
    if v = 1#32 then return t.retireTo s.cur s.side (branchTarget (s.seq s.cur s.side).pc off) true
    else return t.retire s.cur s.side true

/-! Return stacks (R78, R79, R154). -/

/-- Where spilled entry `n` of a side lies: the return area, or an offset through SPK (R154). -/
inductive SpillAt where
  | area (addr : Nat)
  | overflow (off : Nat)

/-- Place of spilled entry `n` (R154). -/
def Task.spillAt (t : Task) (c : Nat) (d : Side) (n : Nat) : SpillAt :=
  let held := if pwSpill t.partw = 0 then 0 else 2048
  if n < held then .area (poolBase c + returnArea d + 4 * n)
  else .overflow (t.spov.toNat / 8 * 8 + 8 * (n - held) + (match d with | .a => 0 | .x => 4))

/-- Checks an overflow access (R154): every byte inside, else 0x06; TKS is left as it is; a held access stalls, and so does one at the
in-flight bound (R161). -/
def State.checkOverflow (s : State) (c off : Nat) (wr : Bool) : Except Stop Nat :=
  match s.tokenCheck (s.task c).ctx (s.task c).spk off 4 wr with
  | .held => .error (.held (s.task c).ctx (handleIndex (s.task c).spk))
  | .done (some i) 4 _ => if (s.entry (s.task c).ctx i).infl < inflMax then .ok i else .error (.stall false)
  | .done .. => .error (.trap 0x06#8 none)

/-- Moves an entry out of a full return stack (R79, R154) (log 24); one that would go into a wake window is suppressed (R306). -/
def State.spill (s : State) (c : Nat) (d : Side) (v : BitVec 22) : Except Stop State := do
  let t := s.task c
  match t.spillAt c d (t.seq d).spilled with
  | .area a => return s.writeRun a (bytesOf 4 v.toNat)
  | .overflow off => do
    let i ← s.checkOverflow c off true
    if s.inWakeWindow c i off 4 then return s.addTks c tksPERM
    let s ← s.logDirty t.part c t.ctx i off 4
    return s.writeCells ((s.pieces t.ctx i off 4).flatMap (fun p => p.bytes.map (fun b => (b.2, BitVec.ofNat 8 (v.toNat / 2 ^ (8 * b.1))))))

/-- Reads the newest spilled entry back (R79, R154). -/
def State.refill (s : State) (c : Nat) (d : Side) : Except Stop (BitVec 22) := do
  let t := s.task c
  match t.spillAt c d ((t.seq d).spilled - 1) with
  | .area a => return BitVec.ofNat 22 (s.readNat a 4)
  | .overflow off => do
    let i ← s.checkOverflow c off false
    return BitVec.ofNat 22 ((s.readNow c i off 4).toNat % 2 ^ 32)

/-- Pushes a return address, moving the oldest entry out of a full stack (R78, R79). The entry of a CALL at the last word of the largest text is
0 (log 79). -/
def State.pushReturn (s : State) (c : Nat) (d : Side) : Except Stop State :=
  let q := s.seq c d
  let back : BitVec 22 := (q.pc + 1#32).setWidth 22
  if q.ret.length < 16 then .ok (s.setSeq c d { q with ret := back :: q.ret })
  else do
    let t ← s.spill c d (q.ret.getLastD 0#22)
    return t.setSeq c d { q with ret := back :: q.ret.dropLast, spilled := q.spilled + 1 }

/-- CALL (R78, R79). -/
def execCall (off : BitVec 24) (s : State) : Out :=
  settle s.cur s.side s do
    legal (.call off)
    let t ← s.pushReturn s.cur s.side
    return t.retireTo s.cur s.side (branchTarget (s.seq s.cur s.side).pc off) true

/-- RET (R78, R79): goes on as though the word before the entry had just completed, word 0 for an
entry of 0 (log 79). -/
def execRet (s : State) : Out :=
  settle s.cur s.side s do
    legal .ret
    let q := s.seq s.cur s.side
    match q.ret with
    | e :: r => return ((s.setSeq s.cur s.side { q with ret := r }).completed s.cur s.side true).fallFrom s.cur s.side (e.toNat - 1)
    | [] => do
      require (decide (0 < q.spilled)) 0x07#8
      let e ← s.refill s.cur s.side
      return ((s.setSeq s.cur s.side { q with spilled := q.spilled - 1 }).completed s.cur s.side true).fallFrom s.cur s.side (e.toNat - 1)

/-! Loops (R80 to R82). -/

/-- Sets up a loop of `n` passes of the body that ends `e` words on, and goes on (R81). Later passes begin at the word behind the LOOP, a DATA
header too (log 80). -/
def State.startLoop (s : State) (c : Nat) (d : Side) (l : Nat) (n : BitVec 32) (e : Nat) : State :=
  let q := s.seq c d
  let last := q.pc.toNat + e
  let empty := match s.kernel (s.task c).kid with
    | some k => decide (last < s.ownFrom k d (q.pc.toNat + 1))
    | none => false
  if n = 0#32 then ((s.setSeq c d (q.dropLoops [l])).completed c d true).fallFrom c d last
  else if empty then (s.setSeq c d (q.dropLoops [l])).retire c d true
  else
    (s.setSeq c d { q with lc := q.lc.setIfInBounds l ⟨n, q.pc + 1#32, BitVec.ofNat 32 last, true⟩,
                           order := l :: q.order.filter (fun m => m != l) }).retire c d true

/-- LOOP with an immediate count (R80, R81). -/
def execLoop (l n : BitVec 6) (e : BitVec 12) (s : State) : Out :=
  settle s.cur s.side s do
    legal (.loop l n e)
    return s.startLoop s.cur s.side l.toNat (n.setWidth 32 + 1#32) e.toNat

/-- The trip count of a register, read as signed and held between 0 and 2^32 - 1 (R81). -/
def tripCount (v : Word64) : BitVec 32 :=
  if v.toInt ≤ 0 then 0#32 else if v.toInt > 2 ^ 32 - 1 then BitVec.allOnes 32 else v.setWidth 32

/-- LOOP with a register count (R80, R81). -/
def registerLoop (i : Instr) (owner : Side) (l r : BitVec 6) (e : BitVec 12) (s : State) : Out :=
  settle s.cur s.side s do
    legal i
    let (n, t) ← s.shared s.cur s.side owner do
      let x ← s.ownerReg s.cur owner r
      return tripCount x
    return t.startLoop s.cur s.side l.toNat n e.toNat

/-- LOOP with an s-register count, owner X. -/
def execLoopS (l r : BitVec 6) (e : BitVec 12) (s : State) : Out := registerLoop (.loopS l r e) .x l r e s
/-- LOOP with an a-register count, owner A. -/
def execLoopA (l r : BitVec 6) (e : BitVec 12) (s : State) : Out := registerLoop (.loopA l r e) .a l r e s

end Sys2Proof.Machine
end

