-- ==== Sys2Proof/Machine/Stream.lean ====
section
/-! DEFINITION. Engine transactions at home (R182), stream registers and descriptors (R219 to R222), the Accord histogram (R108),
and the lease of the quad's array (R224, R225). -/
namespace Sys2Proof.Machine

/-! Engine transactions. -/

/-- What a step of an engine comes to: a stall leaves the state, a write held on a full dirty log ring is noted (R322), and so is an
access held at an entry under revocation (R165), in the place that `note` names (log 16). -/
def settleEvent (s : State) (note : Held → State) : Run → Host.Outcome State Fault Refusal
  | .ok t => .next t
  | .error (.stall _) => .next s
  | .error (.hold part who) => .next (s.holdWriter part who)
  | .error (.held ctx ent) => .next (note (some (ctx, ent)))
  | .error (.trap ..) => .next s
  | .error (.fault f) => .fault f

/-- Which of bytes `off` to `off + n - 1` of an extent take effect in an engine's transaction: the entry, first byte inside (counted from
`off`), bytes inside, TKS bits. A byte at a negative offset is outside (R215, R221). It is held at the in-flight bound (R161). -/
def State.engineCheck (s : State) (ctx : Nat) (h : Word32) (off : Int) (n : Nat) (wr : Bool) :
    Except Stop (Option (Nat × Nat × Nat) × BitVec 6) :=
  let neg := min n (-off).toNat
  match s.tokenCheck ctx h (off + neg).toNat (n - neg) wr with
  | .held => .error (.held ctx (handleIndex h))
  | .done none _ b => .ok (none, b)
  | .done (some i) m b =>
    if (s.entry ctx i).infl < inflMax then .ok (some (i, neg, m), if 0 < neg then b ||| tksOOB else b) else .error (.stall false)

/-- Reads `n` bytes at home through a token, little-endian, bytes outside as zero (R182, R221). -/
def State.engineRead (s : State) (ctx : Nat) (h : Word32) (off : Int) (n : Nat) : Except Stop (Nat × BitVec 6) := do
  let (r, b) ← s.engineCheck ctx h off n false
  match r with
  | none => return (0, b)
  | some (i, neg, m) =>
    let ps := s.pieces ctx i (off + neg).toNat m
    return (natOf (ps.flatMap (fun p => p.bytes.map (fun x => s.homeByte x.2))) * 2 ^ (8 * neg), b)

/-- Writes the low `n` bytes of a number at home through a token, bytes outside dropped (R182): the state, TKS bits, bytes written.
`who` names the writer to the dirty log (R170). -/
def State.engineWrite (s : State) (who part ctx : Nat) (h : Word32) (off : Int) (n data : Nat) :
    Except Stop (State × BitVec 6 × Nat) := do
  let (r, b) ← s.engineCheck ctx h off n true
  match r with
  | none => return (s, b, 0)
  | some (i, neg, m) =>
    if m = 0 then return (s, b, 0)
    else if (s.pagesOf ctx i (off + neg).toNat m).any (·.wake) then return (s, b ||| tksPERM, 0)
    else do
      let s ← s.logDirty part who ctx i (off + neg).toNat m
      let ps := s.pieces ctx i (off + neg).toNat m
      let cells := ps.flatMap (fun p => p.bytes.map (fun x => (x.2, BitVec.ofNat 8 (data / 2 ^ (8 * (neg + x.1))))))
      return (s.writeCells cells, b, m)

/-- Leading bytes of an access that lie in one row of one page: one row transaction (R171, R182). -/
def State.rowPart (s : State) (ctx : Nat) (h : Word32) (off : Int) (n : Nat) : Nat :=
  if off < 0 then min n (-off).toNat
  else
    match (s.pieces ctx (handleIndex h) off.toNat n).head? with
    | some p => p.bytes.length
    | none => n

/-- The row of one page that the byte at an offset lies in (R171); none before the extent. -/
def State.rowOf (s : State) (ctx : Nat) (h : Word32) (off : Int) : Row :=
  if off < 0 then []
  else
    match (s.pieces ctx (handleIndex h) off.toNat 1).head? with
    | some p => p.row
    | none => []

/-- The reads of a list, numbered from `i` on. -/
def readParts : Nat → List (Int × Nat) → List (Nat × Nat × Int × Nat)
  | _, [] => []
  | i, r :: l => (i, 0, r.1, r.2) :: readParts (i + 1) l

/-- Reads to make, none made yet. -/
def RowReads.begin_ (l : List (Int × Nat)) : RowReads := ⟨readParts 0 l, l.map (fun _ => 0), 0#6⟩

/-- A part that is still to read is read as far as its row reaches: what is left of it comes later (R171, R182). -/
def RowReads.part (r : RowReads) (s : State) (ctx : Nat) (h : Word32) (p : Nat × Nat × Int × Nat) : Except Stop RowReads := do
  let (i, d, off, n) := p
  let k := s.rowPart ctx h off n
  let (v, b) ← s.engineRead ctx h off k
  return ⟨r.todo ++ (if k < n then [(i, d + k, off + k, n - k)] else []), modifyAt r.got i (· + v * 2 ^ (8 * d)), r.tks ||| b⟩

/-- The next row transaction of an engine's reads (R182): every part that lies in the row of the first is read in this one step. -/
def RowReads.step (r : RowReads) (s : State) (ctx : Nat) (h : Word32) : Except Stop RowReads :=
  match r.todo with
  | [] => .ok r
  | p0 :: _ =>
    r.todo.foldlM (fun w p =>
      if s.rowOf ctx h p.2.2.1 = s.rowOf ctx h p0.2.2.1 then w.part s ctx h p else .ok { w with todo := w.todo ++ [p] }) { r with todo := [] }

/-! Descriptors (R219, R220). -/

/-- A stream descriptor's fields (R219). -/
structure StreamDesc where
  base : Nat
  ebase : Nat
  bounds : List Nat
  strides : List Int
  estride : Int
  fmt : Nat
  /-- Block width: W + 1. -/
  width : Nat
  hist : Bool
  share : Bool
  dir : Bool
  sparse : Bool
  moff : Nat
  smask : BitVec 4
  win : Nat

/-- Byte `i` of a descriptor. -/
def descByte (d : BitVec 512) (i : Nat) : BitVec 8 := d.extractLsb' (8 * i) 8
/-- The fields of 64 descriptor bytes (R219). -/
def StreamDesc.ofBits (d : BitVec 512) : StreamDesc where
  base := (d.extractLsb' 0 32).toNat
  ebase := (d.extractLsb' 32 32).toNat
  bounds := (List.range 6).map (fun j => (d.extractLsb' (64 + 16 * j) 16).toNat)
  strides := (List.range 6).map (fun j => (d.extractLsb' (160 + 32 * j) 32).toInt)
  estride := (d.extractLsb' 352 16).toInt
  fmt := (d.extractLsb' 368 4).toNat
  width := (d.extractLsb' 372 4).toNat + 1
  hist := d.getLsbD 376
  share := d.getLsbD 377
  dir := d.getLsbD 378
  sparse := d.getLsbD 379
  moff := (d.extractLsb' 384 32).toNat
  smask := d.extractLsb' 416 4
  win := (d.extractLsb' 424 8).toNat

/-- Whether a descriptor passes R220 for a core at a quad position. -/
def descOk (d : BitVec 512) (qpos : Nat) : Bool :=
  let x := StreamDesc.ofBits d
  let bfp := x.fmt == 9
  d.extractLsb' 380 4 == 0#4 && d.extractLsb' 420 4 == 0#4 && d.extractLsb' 432 80 == 0#80
    && decide (1 ≤ x.fmt) && decide (x.fmt ≤ 9) && (if bfp then decide (2 ≤ x.width) else x.width == 1)
    && (!bfp || (x.strides.headD 0 == 0 && x.bounds.headD 0 % 32 == 0))
    && (!x.sparse || (!x.dir && bfp))
    && (!x.share || (!x.dir && decide (1 ≤ x.win) && decide (x.win ≤ 16) && x.smask.getLsbD qpos))
    && (x.sparse || x.moff == 0) && (x.share || (x.smask == 0#4 && x.win == 0))

/-- Elements of a stream: the product of its bounds (R221). -/
def StreamDesc.total (x : StreamDesc) : Nat := x.bounds.foldl (· * ·) 1
/-- Format of a stream's elements. -/
def StreamDesc.format (x : StreamDesc) : Num.Fmt := (Num.Fmt.ofCode x.fmt).getD .raw32
/-- Bits that an element takes in the stream's data: the width for BFP, else the format's size. -/
def StreamDesc.elemBits (x : StreamDesc) : Nat := if x.fmt = 9 then x.width else x.format.bits

/-- Offset of an index tuple, dimension 0 left to the caller: the sum over the outer dimensions of an element number (R221). -/
def outerOff : List Nat → List Int → Nat → Int
  | b :: bs, st :: sts, q => (q % b : Nat) * st + outerOff bs sts (q / b)
  | _, _, _ => 0
/-- Byte offset of element `p`, or for BFP of the byte string of its row of dimension 0 (R221). -/
def StreamDesc.offset (x : StreamDesc) (p : Nat) : Int :=
  (x.base : Int) + (if x.fmt = 9 then outerOff (x.bounds.drop 1) (x.strides.drop 1) (p / x.bounds.headD 1) else outerOff x.bounds x.strides p)

/-! Stream registers. -/

/-- A stream register. -/
def Task.stream (t : Task) (n : Nat) : StreamReg := t.streams[n]?.getD StreamReg.reset
/-- Replaces a stream register. -/
def Task.setStream (t : Task) (n : Nat) (r : StreamReg) : Task := { t with streams := t.streams.setIfInBounds n r }

/-- Position of a core in its quad (R110). -/
def quadPos (c : Nat) : Nat := (c % 64 / 8 % 2) * 2 + c % 2
/-- Package quad of a core (R2). -/
def quadOf (c : Nat) : Nat := 16 * (c / 64) + (c % 64 / 16) * 4 + c % 8 / 2
/-- The core at a position of a package quad. -/
def coreAt (q pos : Nat) : Nat := 64 * (q / 16) + 8 * (2 * (q % 16 / 4) + pos / 2) + 2 * (q % 4) + pos % 2

/-- Takes a core out of a share group; a group without members is gone (R222). -/
def State.leaveShare (s : State) (c n : Nat) (g : Nat) : State :=
  match NMap.get s.shares g with
  | none => s
  | some x =>
    let l := x.members.filter (fun m => !(m.1 == c && m.2 == n))
    if l.isEmpty then { s with shares := NMap.del s.shares g } else { s with shares := NMap.set s.shares g { x with members := l } }

/-- Ends a stream's binding, and its part in a share group (R222, R236). -/
def State.dropStream (s : State) (c n : Nat) : State :=
  let r := (s.task c).stream n
  let s := match r.share with
    | some g => s.leaveShare c n g
    | none => s
  s.modTask c (·.setStream n StreamReg.reset)

/-- Leaves every share group of a task that ends, dies or is saved; its streams stay bound, unshared (R222, R267). -/
def State.leaveShares (s : State) (c : Nat) : State :=
  (List.range 16).foldl (fun s n =>
    match ((s.task c).stream n).share with
    | some g => (s.leaveShare c n g).modTask c (fun t => t.setStream n { t.stream n with share := none })
    | none => s) s

/-- Joins the open share group of the same quad, address space, handle and descriptor, or forms one; it starts when every core of
SMASK has bound (R222). -/
def State.joinShare (s : State) (c n : Nat) (h : Word32) (d : BitVec 512) : State :=
  let q := quadOf c
  let ctx := (s.task c).ctx
  let fits (x : ShareGroup) := !x.started && x.quad == q && x.ctx == ctx && x.handle == h && x.desc == d && !x.members.any (fun m => m.1 == c)
  let (id, x) := match s.shares.find? (fun e => fits e.2) with
    | some (i, x) => (i, x)
    | none => (s.fresh, ⟨q, ctx, h, d, [], false, s.cyc, [], none⟩)
  let ms := x.members ++ [(c, n)]
  let mask := (StreamDesc.ofBits d).smask
  let all := (List.range 4).all (fun p => !mask.getLsbD p || ms.any (fun m => quadPos m.1 == p))
  let s := { s with fresh := s.fresh + 1, shares := NMap.set s.shares id { x with members := ms, started := all } }
  s.modTask c (fun t => t.setStream n { t.stream n with share := some id })

/-! Delivery of blocks of 32 elements (R221). -/

/-- Byte offset and length of the reads that block `b` of a stream takes, in stream order (R97, R219, R221). -/
def StreamDesc.reads (x : StreamDesc) (b : Nat) : List (Int × Nat) :=
  let real := min 32 (x.total - 32 * b)
  if x.fmt = 9 then
    if real = 0 then []
    else [(x.offset (32 * b) + (4 * x.width * (32 * b % x.bounds.headD 1 / 32) : Nat), 4 * x.width), (x.ebase + b * x.estride, 1)]
  else (List.range real).map (fun j => (x.offset (32 * b + j), x.format.size))

/-- Block `b` of a stream from what its reads have found; elements beyond the end are zeros. -/
def StreamDesc.block (x : StreamDesc) (b : Nat) (got : List Nat) : Block :=
  if x.fmt = 9 then
    match got with
    | m :: e :: _ => ⟨(List.range 32).map (fun j => elem x.width m j), e, 32⟩
    | _ => ⟨List.replicate 32 0, 0, 0⟩
  else ⟨got ++ List.replicate (32 - got.length) 0, 0, min 32 (x.total - 32 * b)⟩

/-- Blocks that a member may take: none before its group has started, and no further than WIN units of 4 KiB ahead of the slowest member;
`m` where the stream is not shared (R222) (log 33). -/
def State.shareRoom (s : State) (c n m : Nat) : Nat :=
  let r := (s.task c).stream n
  match r.share with
  | none => m
  | some g =>
    match NMap.get s.shares g with
    | none => m
    | some x =>
      let d := StreamDesc.ofBits x.desc
      if x.started then
        x.members.foldl (fun k y => min k ((((s.task y.1).stream y.2).pos * d.elemBits + 32768 * d.win - r.pos * d.elemBits) / (32 * d.elemBits))) m
      else 0

/-- Whether a member may take its next block (R222). -/
def State.shareReady (s : State) (c n : Nat) : Bool := decide (0 < s.shareRoom c n 1)

/-- One bin of Accord gains one, held at its maximum (R108). -/
def Task.count1 (t : Task) (bin : Nat) : Task :=
  let v := t.bins[bin]?.getD 0#32
  { t with bins := t.bins.setIfInBounds bin (if v = BitVec.allOnes 32 then v else v + 1#32) }

/-- The bin of an element of a format (R108). -/
def binOf (f : Num.Fmt) (p : Nat) : Nat :=
  match f with
  | .fp32 => p / 2 ^ 23 % 256
  | .bf16 => p / 2 ^ 7 % 256
  | f => (Num.convert f .fp32 p).1 / 2 ^ 23 % 256

/-- Counts a delivered block: each element, one that lies outside the extent and reads zero too, or once in bin E for BFP (R108, log 82). -/
def Task.countBlock (t : Task) (f : Num.Fmt) (b : Block) : Task :=
  if b.real = 0 then t
  else if f = .bfp then t.count1 b.ex
  else (b.pats.take b.real).foldl (fun t p => t.count1 (binOf f p)) t

/-- What a share group's distributor has already read of a block (R222). -/
def State.sharedBlock (s : State) (r : StreamReg) (b : Nat) : Option Block :=
  match r.share with
  | some g => (match NMap.get s.shares g with | some y => NMap.get y.kept b | none => none)
  | none => none

/-- Reads of `m` blocks of a stream from block `b` on, none made yet. -/
def StreamDesc.begin_ (x : StreamDesc) (b m : Nat) : BlockReads := ⟨b, m, RowReads.begin_ ((List.range m).flatMap (fun j => x.reads (b + j)))⟩

/-- Block `b` of a stream, once every read of it has been made. -/
def BlockReads.block (y : BlockReads) (x : StreamDesc) (b : Nat) : Option Block :=
  let lo := ((List.range (b - y.first)).map (fun j => (x.reads (y.first + j)).length)).sum
  let len := (x.reads b).length
  if y.first ≤ b ∧ b < y.first + y.count ∧ y.reads.todo.all (fun p => decide (p.1 < lo) || decide (lo + len ≤ p.1)) then
    some (x.block b ((y.reads.got.drop lo).take len))
  else none

/-- Blocks from block `b` to the end of its 4 KiB of the pattern, which a distributor reads together (R222) (log 88). -/
def StreamDesc.unitLeft (x : StreamDesc) (b : Nat) : Nat :=
  let u := max 1 (1024 / x.elemBits)
  u - b % u

/-- The reads under way of a stream of the task on a core: the distributor's, where it is shared (R222). -/
def State.readsOf (s : State) (c n : Nat) : Option BlockReads :=
  match ((s.task c).stream n).share with
  | some g => (NMap.get s.shares g).bind (·.reads)
  | none => (s.task c).mwork.reads

/-- Replaces them, block `b` being the last that has been delivered; a distributor keeps every block that it has read (R222). -/
def State.setReads (s : State) (c n b : Nat) (y : BlockReads) : State :=
  match ((s.task c).stream n).share with
  | some g => (match NMap.get s.shares g with
    | some z =>
      let x := StreamDesc.ofBits z.desc
      let kept := (List.range y.count).foldl (fun m j => match y.block x (y.first + j) with
        | some blk => NMap.set m (y.first + j) blk
        | none => m) z.kept
      { s with shares := NMap.set s.shares g { z with kept := kept, reads := if y.reads.todo.isEmpty then none else some y } }
    | none => s)
  | none => s.modTask c (fun t => { t with mwork := { t.mwork with reads := if y.first + y.count ≤ b then none else some y } })

/-- Delivers a block of a stream to the task on a core (R221): position, SUND and histogram. -/
def Task.deliverBlock (t : Task) (n : Nat) (blk : Block) : Task :=
  let r := t.stream n
  let x := StreamDesc.ofBits r.desc
  let t := if blk.real < 32 then t.raiseStat statSUND else t
  let t := if x.hist then t.countBlock x.format blk else t
  t.setStream n { r with pos := r.pos + 32 }

/-- Blocks of a stream from its next block on that are read together, of the `m` that the command takes in its step: all of them, so that each
row is read in one step (R182); by a distributor those of one 4 KiB of the pattern, as far as WIN allows (R222) (log 88). -/
def State.blocksAhead (s : State) (c n m : Nat) : Nat :=
  let r := (s.task c).stream n
  max 1 (if r.share.isNone then m else min (s.shareRoom c n m) ((StreamDesc.ofBits r.desc).unitLeft (r.pos / 32)))

/-- One row transaction of the next blocks of a stream of the task on a core, of which its command takes `m` more (R182, R221): the next
block, once it is there. A share group reads each block once (R222) (log 35). -/
def State.stepBlock (s : State) (c n m : Nat) : Except Stop (Option Block × State) := do
  let t := s.task c
  let r := t.stream n
  let x := StreamDesc.ofBits r.desc
  let b := r.pos / 32
  match s.sharedBlock r b with
  | some blk => return (some blk, s.modTask c (·.deliverBlock n blk))
  | none => do
    let y := (s.readsOf c n).getD (x.begin_ b (s.blocksAhead c n m))
    match y.block x b with
    | some blk => return (some blk, (s.setReads c n (b + 1) y).modTask c (·.deliverBlock n blk))
    | none => do
      let w ← y.reads.step s t.ctx r.handle
      let y := { y with reads := { w with tks := 0#6 } }
      let s := s.addTks c w.tks
      match y.block x b with
      | some blk => return (some blk, (s.setReads c n (b + 1) y).modTask c (·.deliverBlock n blk))
      | none => return (none, s.setReads c n b y)

/-- The FP32 patterns of a block's elements with the events of their conversion (R98, R228). -/
def Block.fp32 (b : Block) (x : StreamDesc) : List Nat × Num.Ev :=
  if x.fmt = 9 then
    (b.pats.map (fun m => (Num.fpEnc Num.binary32 (Num.fromBfp b.ex x.width m)).1), ⟨false, false, b.ex == 255⟩)
  else
    b.pats.foldr (fun p r => let y := Num.convert x.format .fp32 p; (y.1 :: r.1, y.2.or r.2)) ([], .none)

/-! The lease (R224, R225). -/

/-- A quad's array. -/
def State.quad (s : State) (q : Nat) : Quad := NMap.getD s.quads q Quad.reset
/-- Replaces a quad's array. -/
def State.setQuad (s : State) (q : Nat) (x : Quad) : State := { s with quads := NMap.set s.quads q x }
/-- LBUD of the partition of the task on a core. -/
def State.budgetOf (s : State) (c : Nat) : Int := ((s.partOf (s.task c).part).lbud.toNat : Int)

/-- The next WAITING core of a quad after a position, wrapping (R224). -/
def State.nextWaiting (s : State) (q pos : Nat) : Option Nat :=
  (((List.range 4).map (fun i => coreAt q ((pos + 1 + i) % 4))).filter (fun c => (s.task c).lease == .waiting && (s.core c).mode == .run)).head?

/-- Gives the array to a core with a fresh budget (R224). -/
def State.grantLease (s : State) (c : Nat) : State :=
  (s.setQuad (quadOf c) ⟨some c, s.budgetOf c⟩).modTask c (fun t => { t with lease := .holding })

/-- Gives up a core's lease, if it holds or waits for one, and passes the array on (R224). -/
def State.releaseLease (s : State) (c : Nat) : State :=
  let held := (s.quad (quadOf c)).holder == some c
  let s := s.modTask c (fun t => { t with lease := .none })
  if held then
    match s.nextWaiting (quadOf c) (quadPos c) with
    | some w => s.grantLease w
    | none => s.setQuad (quadOf c) ⟨none, 0⟩
  else s

end Sys2Proof.Machine
end

