-- ==== Sys2Proof/Machine/System.lean ====
section
/-! DEFINITION. The system register space, RDS, WRS, CYCRD and TRAP (R271 to R278). -/
namespace Sys2Proof.Machine

/-- The system registers of R272. -/
inductive SysReg where
  | partw | slipw | stat | tks | vst | zst | cyc | self | yreq | ydl | age | migt | colt | anqt | lbud | mprog | doms
  | dqb | dql | dqc | spk | spov | cxva | cxlen
  | hmask (j : Nat)
  | qfmt (n : Nat)
  | zpw (n : Nat)
  | zexp (n : Nat)
deriving DecidableEq, Repr

/-- The map of R272. -/
def SysReg.ofNumber (r : Nat) : Option SysReg :=
  match r with
  | 0x000 => some .partw | 0x001 => some .slipw | 0x002 => some .stat | 0x003 => some .tks | 0x004 => some .vst
  | 0x005 => some .zst | 0x006 => some .cyc | 0x007 => some .self | 0x008 => some .yreq | 0x009 => some .ydl
  | 0x00A => some .age | 0x00B => some .migt | 0x00C => some .colt | 0x00D => some .anqt | 0x00E => some .lbud
  | 0x00F => some .mprog | 0x010 => some .doms | 0x011 => some .dqb | 0x012 => some .dql | 0x013 => some .dqc
  | 0x014 => some .spk | 0x015 => some .spov | 0x016 => some .cxva | 0x017 => some .cxlen
  | _ =>
    if 0x018 ≤ r ∧ r ≤ 0x01D then some (.hmask (r - 0x018))
    else if 0x020 ≤ r ∧ r ≤ 0x027 then some (.qfmt (r - 0x020))
    else if 0x028 ≤ r ∧ r ≤ 0x02F then some (.zpw (r - 0x028))
    else if 0x030 ≤ r ∧ r ≤ 0x037 then some (.zexp (r - 0x030))
    else none

/-- Whether a side may write a register (R271, R272). -/
def SysReg.writable (d : Side) : SysReg → Bool
  | .slipw | .stat | .tks | .vst | .zst | .spk | .spov | .zexp _ => true
  | .dqc => d == .x
  | .qfmt n => if n < 4 then d == .x else d == .a
  | _ => false

/-- The value a task reads (R275); reserved bits read 0, a tile beyond PARTW.TILES reads 0 (R272). -/
def State.sysRead (s : State) (c : Nat) (r : SysReg) : Word64 :=
  let t := s.task c
  let p := s.partOf t.part
  match r with
  | .partw => t.partw.setWidth 64
  | .slipw => t.slipw.setWidth 64
  | .stat => t.stat.setWidth 64
  | .tks => t.tks.setWidth 64
  | .vst => t.vst.setWidth 64
  | .zst => t.zst.setWidth 64
  | .cyc => s.cyc
  | .self => (fld t.record.w0 0 62).setWidth 64
  | .yreq => t.yreq.setWidth 64
  | .ydl => p.ydl.setWidth 64
  | .age => p.age.setWidth 64
  | .migt => p.migt.setWidth 64
  | .colt => p.colt.setWidth 64
  | .anqt => p.anqt.setWidth 64
  | .lbud => p.lbud.setWidth 64
  | .mprog => t.mprog.setWidth 64
  | .doms => t.doms.setWidth 64
  | .dqb => t.dqb.setWidth 64
  | .dql => t.dql.setWidth 64
  | .dqc => (t.dqHead.setWidth 32 ++ t.dqCount.setWidth 32 : BitVec 64)
  | .spk => t.spk.setWidth 64
  | .spov => t.spov.setWidth 64
  | .cxva => match s.kernel t.kid with
    | some k => k.constVa
    | none => 0#64
  | .cxlen => match s.kernel t.kid with
    | some k => BitVec.ofNat 64 k.constLen
    | none => 0#64
  | .hmask j => ((s.hmask[c / 64]?.getD hmaskDefault)[j]?.getD 0#64)
  | .qfmt n => (t.qfmt[n]?.getD 0#8).setWidth 64
  | .zpw n => if n < pwTiles t.partw then (t.zpw[n]?.getD 0#9).setWidth 64 else 0#64
  | .zexp n => if n < pwTiles t.partw then (t.zexp[n]?.getD 0#16).setWidth 64 else 0#64

/-- The value SLIPW stores of a value written (R19). -/
def clampSlip (x : Word64) : BitVec 7 := if x = 0#64 then 1#7 else if 64 < x.toNat then 64#7 else x.setWidth 7

/-- Whether a QFMT value is legal: no reserved code, RAW32 paired with itself alone (R26). -/
def qfmtOk (x : Word64) : Bool :=
  let src := (fld x 0 4).toNat
  let sink := (fld x 4 4).toNat
  decide (src ≤ 8) && decide (sink ≤ 8) && ((src == 0) == (sink == 0))

/-- Whether a DQC value is legal (R122). -/
def dqcOk (w : BitVec 22) (x : Word64) : Bool :=
  let head := (fld x 32 17).toNat
  (if dqCap w = 0 then head == 0 else decide (head < dqCap w)) && decide ((fld x 0 17).toNat ≤ dqCap w)

/-- Whether a value passes the register's own check (R26, R122); the others make none. -/
def valueOk (w : BitVec 22) (x : Word64) : SysReg → Bool
  | .qfmt _ => qfmtOk x
  | .dqc => dqcOk w x
  | _ => true

/-- Writes the RW fields and applies the W1C fields of a register (R271). -/
def Task.sysWrite (t : Task) (x : Word64) : SysReg → Task
  | .slipw => { t with slipw := clampSlip x }
  | .stat => { t with stat := t.stat &&& ~~~(x.setWidth 7) }
  | .tks => { t with tks := t.tks &&& ~~~(x.setWidth 6) }
  | .vst => { t with vst := t.vst &&& ~~~(x.setWidth 3) }
  | .zst => { t with zst := t.zst &&& ~~~(x.setWidth 16) }
  | .dqc => { t with dqHead := fld x 32 17, dqCount := fld x 0 17 }
  | .spk => { t with spk := x.setWidth 32 }
  | .spov => { t with spov := x.setWidth 32 }
  | .qfmt n => { t with qfmt := t.qfmt.setIfInBounds n (x.setWidth 8) }.setQueue n { t.queue n with g := 0 }
  | .zexp n => if n < pwTiles t.partw then { t with zexp := t.zexp.setIfInBounds n (x.setWidth 16) } else t
  | _ => t

/-- The WRS of a side in this cycle takes its place (R276). -/
def Task.commitSide (t : Task) (d : Side) : Task :=
  match (t.seq d).wrs with
  | some (r, x) =>
    match SysReg.ofNumber r with
    | some g => (t.sysWrite x g).setSeq d { t.seq d with wrs := none }
    | none => t.setSeq d { t.seq d with wrs := none }
  | none => t
/-- What the WRS of this cycle leave in the registers, A's and then X's: both clears apply, X's value stands in a field that both wrote,
and a bit that an event set in the cycle reads 1 (R276). A WRS of QFMT zeroes G here, after the pushes of its cycle (R26, log 78). -/
def Task.commit (t : Task) : Task :=
  let u := (t.commitSide .a).commitSide .x
  { u with
    stat := u.stat ||| t.raised.stat, tks := u.tks ||| t.raised.tks, vst := u.vst ||| t.raised.vst, zst := u.zst ||| t.raised.zst,
    raised := ⟨0#7, 0#6, 0#3, 0#16⟩ }

/-- The tile that a matrix command acts on, where it has one (R103). -/
def MOp.tile : MOp → Option Nat
  | .mmul _ z .. | .mld z _ | .mst z .. | .mstQ z .. | .prec z .. | .mclr z => some z
  | .histClr | .histRd _ => none
/-- Whether a queued matrix command acts on a tile (R103). -/
def MOp.onTile (z : Nat) (op : MOp) : Bool := op.tile == some z

/-- Waits where the register's rule says: ZEXPn until every earlier command on its tile has completed (R103). -/
def State.sysWait (s : State) (c : Nat) : SysReg → Except Stop Unit
  | .zexp n => waitFor (decide (pwTiles (s.task c).partw ≤ n) || !(s.task c).mq.any (fun m => m.op.onTile n))
  | _ => .ok ()

/-- RDS (R275). -/
def execRds (fs : Side) (d : BitVec 6) (r : BitVec 12) (s : State) : Out :=
  settle s.cur fs s do
    legal (.rds fs d r)
    match SysReg.ofNumber r.toNat with
    | none => throw (.trap 0x01#8 none)
    | some g => do
      let t ← s.writeOp s.cur fs d (s.sysRead s.cur g)
      return t.retire s.cur fs

/-- WRS (R275, R276): the value stands from the next cycle on; 0x05 leaves the pop standing. -/
def execWrs (fs : Side) (a : BitVec 6) (r : BitVec 12) (s : State) : Out :=
  settle s.cur fs s do
    legal (.wrs fs a r)
    match SysReg.ofNumber r.toNat with
    | none => throw (.trap 0x01#8 none)
    | some g => do
      require (g.writable fs) 0x01#8
      s.sysWait s.cur g
      let (x, t) ← s.readOp s.cur fs a
      if valueOk (t.task s.cur).partw x g then return (t.setSeq s.cur fs { t.seq s.cur fs with wrs := some (r.toNat, x) }).retire s.cur fs
      else throw (.trap 0x05#8 (some t))

/-- CYCRD (R277). -/
def execCycrd (fs : Side) (d : BitVec 6) (s : State) : Out :=
  settle s.cur fs s do
    legal (.cycrd fs d)
    let t ← s.writeOp s.cur fs d s.cyc
    return t.retire s.cur fs

/-- TRAP (R278): a code below 0x80 is an illegal instruction. -/
def execTrap (fs : Side) (fc : BitVec 8) (s : State) : Out :=
  settle s.cur fs s do
    legal (.trap fs fc)
    require (fc.msb) 0x01#8
    throw (.trap fc none)

end Sys2Proof.Machine
end

