-- ==== Sys2Proof/Machine/Engine.lean ====
section
/-! DEFINITION. The instructions that hand work to the engines: streams, copies, collectives, flags, the lease and the matrix queue
(R213, R233 to R250). -/
namespace Sys2Proof.Machine

/-! Streams (R236). -/

/-- Whether a queued matrix command names a stream (R236). -/
def MOp.usesStream (n : Nat) : MOp → Bool
  | .mmul _ _ a b _ => n == a || n == b
  | .mld _ st | .mst _ st _ => n == st
  | .mstQ .. | .prec .. | .mclr _ | .histClr | .histRd _ => false

/-- Waits until every matrix command that names a stream has completed (R236). -/
def State.streamIdle (s : State) (c n : Nat) : Except Stop Unit := waitFor (!(s.task c).mq.any (fun m => m.op.usesStream n))

/-- SBIND (R236): reads the descriptor in one step, checks it, binds. -/
def execSbind (u v : BitVec 4) (a : BitVec 6) (s : State) : Out :=
  settle s.cur .a s do
    legal (.sbind u v a)
    s.noVatom s.cur
    let h ← s.readK s.cur v
    let x ← s.readA s.cur a.toNat
    s.streamIdle s.cur u.toNat
    let off := x.toNat / 64 * 64
    let (ent, m, t) ← s.check s.cur ((s.task s.cur).kreg 0#4) off 64 false
    match ent with
    | some e => s.rowsFree s.cur e (s.pieces (s.task s.cur).ctx e off m)
    | none => pure ()
    let desc : BitVec 512 := match ent with
      | some e => BitVec.ofNat 512 (t.readNow s.cur e off m).toNat
      | none => 0#512
    if descOk desc (quadPos s.cur) then
      let t := (t.dropStream s.cur u.toNat).modTask s.cur (fun t => t.setStream u.toNat ⟨true, h, desc, 0, none⟩)
      let t := if (StreamDesc.ofBits desc).share then t.joinShare s.cur u.toNat h desc else t
      return t.retire s.cur .a
    else throw (.trap 0x22#8 (some t))

/-- SDROP (R236). -/
def execSdrop (u : BitVec 4) (s : State) : Out :=
  settle s.cur .a s do
    legal (.sdrop u)
    s.streamIdle s.cur u.toNat
    return (s.dropStream s.cur u.toNat).retire s.cur .a

/-! Copies and collectives (R213, R237, R238). -/

/-- The chains of a task, on its core and, where a save has left some running, on cores that it ran on before (R213, R223, R262). -/
def State.chainsOf (s : State) (uid : Nat) : List Chain := s.cores.flatMap (fun x => x.2.chains.filter (fun h => h.uid == uid))

/-- COPY (R237): releases the pending set, marks the completion register, appends the chain. -/
def execCopy (a b : BitVec 6) (s : State) : Out :=
  settle s.cur .a s do
    legal (.copy a b)
    let x ← s.readA s.cur a.toNat
    s.readyA s.cur b.toNat
    let t := s.task s.cur
    waitFor (decide ((s.chainsOf t.uid).length < 16))
    s.drainReady s.cur
    let u := (s.drainAll s.cur).modTask s.cur (·.setAwait b.toNat .engine)
    let h : Chain := ⟨u.fresh, t.uid, t.kid, t.ctx, t.kreg 0#4, x &&& ~~~0x1F#64, b.toNat, false, false, 0, [], [], none, none, false, none⟩
    let u := { u.setCore s.cur { u.core s.cur with chains := (u.core s.cur).chains ++ [h] } with fresh := u.fresh + 1 }
    return u.retire s.cur .a

/-- The scope of a code (R146). -/
def Scope.ofCode : Nat → Scope
  | 0 => .q
  | 1 => .t
  | 2 => .d
  | 3 => .p
  | _ => .x
/-- Place of a scope among the five. -/
def Scope.index : Scope → Nat
  | .q => 0
  | .t => 1
  | .d => 2
  | .p => 3
  | .x => 4

/-- COLL (R238): kind 0 reduce, 1 all-reduce, 2 gather, 3 broadcast. -/
def pushColl (i : Instr) (kind : Nat) (u : BitVec 4) (a b : BitVec 6) (s : State) : Out :=
  settle s.cur .a s do
    legal i
    let x ← s.readA s.cur a.toNat
    s.readyA s.cur b.toNat
    waitFor (decide ((s.task s.cur).cq.length < 4))
    s.drainReady s.cur
    let t := (s.drainAll s.cur).modTask s.cur (·.setAwait b.toNat .engine)
    let k : CollCmd := ⟨t.fresh, Scope.ofCode u.toNat, kind, (s.task s.cur).kreg 0#4, x &&& ~~~0x3F#64, b.toNat, none, false, none⟩
    let t := { t.modTask s.cur (fun t => { t with cq := t.cq ++ [k] }) with fresh := t.fresh + 1 }
    return t.retire s.cur .a

/-- COLL_RED (R238). -/
def execCollRed (u : BitVec 4) (a b : BitVec 6) (s : State) : Out := pushColl (.collRed u a b) 0 u a b s
/-- COLL_AR (R238). -/
def execCollAr (u : BitVec 4) (a b : BitVec 6) (s : State) : Out := pushColl (.collAr u a b) 1 u a b s
/-- COLL_GAT (R238). -/
def execCollGat (u : BitVec 4) (a b : BitVec 6) (s : State) : Out := pushColl (.collGat u a b) 2 u a b s
/-- COLL_BC (R238). -/
def execCollBc (u : BitVec 4) (a b : BitVec 6) (s : State) : Out := pushColl (.collBc u a b) 3 u a b s

/-! Flags (R223, R239). -/

/-- A hold of an EWAIT on a flag: when it began, and the chains it counts. -/
def Seq.holds (q : Seq) (f : BitVec 8) : Option Nat :=
  match q.ewait with
  | .holding f' _ n => if f' = f then some n else none
  | _ => none

/-- The side that holds for the next setter of a flag, the earlier of two (R223). -/
def Task.holder (t : Task) (f : BitVec 8) : Option Side :=
  match t.seqA.holds f, t.seqX.holds f with
  | some m, some n => if m < n then some .a else some .x
  | some _, none => some .a
  | none, some _ => some .x
  | none, none => none

/-- Claims the oldest unclaimed setter of a flag: the target (R223). -/
def Task.claim (t : Task) (f : BitVec 8) : BitVec 32 × Task :=
  let x := t.flag f
  (x.claimed + 1#32, t.setFlag f { x with claimed := x.claimed + 1#32 })

/-- Pushes a setter of a flag, to take effect once the commands `deps` have completed; an EWAIT that holds claims it (R223). -/
def Task.pushSetter (t : Task) (f : BitVec 8) (deps : List Nat) : Task :=
  let x := t.flag f
  let t := { t.setFlag f { x with pushed := x.pushed + 1#32 } with setters := t.setters ++ [Setter.mk f deps] }
  match t.holder f with
  | some d =>
    let (n, t) := t.claim f
    t.setSeq d { t.seq d with ewait := .claimed f n }
  | none => t

/-- ESIG (R239): a setter behind the copy and collective queues. -/
def execEsig (f : BitVec 8) (s : State) : Out :=
  settle s.cur .a s do
    legal (.esig f)
    let t := s.task s.cur
    let deps := (s.chainsOf t.uid).map (·.id) ++ t.cq.map (·.id)
    return (s.modTask s.cur (·.pushSetter f deps)).retire s.cur .a

/-- ESIG_X (R239): a setter behind the matrix queue. -/
def execEsigX (f : BitVec 8) (s : State) : Out :=
  settle s.cur .x s do
    legal (.esigX f)
    return (s.modTask s.cur (fun t => t.pushSetter f (t.mq.map (·.id)))).retire s.cur .x

/-- EWAIT of a side (R223, R239): claims a setter, holds while a chain runs, or is forward; then stalls until DONE reaches the target. -/
def waitFlag (i : Instr) (d : Side) (f : BitVec 8) (s : State) : Out :=
  settle s.cur d s do
    legal i
    let t := s.task s.cur
    let x := t.flag f
    match (t.seq d).ewait with
    | .claimed _ n => if reached x.done n then return s.retire s.cur d else throw (.stall false)
    | .holding .. => throw (.stall false)
    | .idle =>
      if x.claimed ≠ x.pushed then
        let (n, t) := t.claim f
        let u := s.setTask s.cur (t.setSeq d { t.seq d with ewait := .claimed f n, blocked := false })
        if reached x.done n then return u.retire s.cur d else return u
      else
        let l := (s.chainsOf t.uid).map (·.id)
        if l.isEmpty then throw (.trap 0x21#8 none)
        else return { s.setSeq s.cur d { t.seq d with ewait := .holding f l s.fresh, blocked := false } with fresh := s.fresh + 1 }

/-- EWAIT (R239). -/
def execEwait (f : BitVec 8) (s : State) : Out := waitFlag (.ewait f) .a f s
/-- EWAIT_X (R239). -/
def execEwaitX (f : BitVec 8) (s : State) : Out := waitFlag (.ewaitX f) .x f s

/-! The lease (R240, R241). -/

/-- LEASE (R240). -/
def execLease (s : State) : Out :=
  settle s.cur .x s do
    legal .lease
    match (s.task s.cur).lease with
    | .holding => return s.retire s.cur .x
    | .waiting => throw (.stall false)
    | .none =>
      if (s.quad (quadOf s.cur)).holder.isNone then return (s.grantLease s.cur).retire s.cur .x
      else return (s.modTask s.cur (fun t => { t with lease := .waiting })).setSeq s.cur .x { s.seq s.cur .x with blocked := false }

/-- Whether a queued command is an array command (R242). -/
def MOp.isArray : MOp → Bool
  | .mmul .. => true
  | _ => false

/-- UNLEASE (R241). -/
def execUnlease (s : State) : Out :=
  settle s.cur .x s do
    legal .unlease
    if (s.task s.cur).lease = .none then return s.retire s.cur .x
    else do
      waitFor (!(s.task s.cur).mq.any (fun m => m.op.isArray))
      return (s.releaseLease s.cur).retire s.cur .x

/-! The matrix queue (R242 to R250). -/

/-- The tile is granted by PARTW (R22, R233). -/
def State.grantsTile (s : State) (z : BitVec 3) : Except Stop Unit := require (decide (z.toNat < pwTiles (s.task s.cur).partw)) 0x01#8
/-- Waits for a slot of the matrix queue (R213, R242). -/
def State.roomMq (s : State) : Except Stop Unit := waitFor (decide ((s.task s.cur).mq.length < 8))
/-- Appends a command to the matrix queue, with ZEXP of its tile (R103) (log 73). -/
def State.pushM (s : State) (op : MOp) : State :=
  { s.modTask s.cur (fun t => { t with mq := t.mq ++ [⟨s.fresh, op, (op.tile.bind (fun z => t.zexp[z]?)).getD 0#16⟩] }) with fresh := s.fresh + 1 }

/-- PREC (R243). -/
def execPrec (z : BitVec 3) (a b : BitVec 4) (s : State) : Out :=
  settle s.cur .x s do
    legal (.prec z a b)
    s.grantsTile z
    s.roomMq
    return (s.pushM (.prec z.toNat a b)).retire s.cur .x

/-- MCLR (R244). -/
def execMclr (z : BitVec 3) (s : State) : Out :=
  settle s.cur .x s do
    legal (.mclr z)
    s.grantsTile z
    s.roomMq
    return (s.pushM (.mclr z.toNat)).retire s.cur .x

/-- Whether a dimension word is legal (R227). -/
def dimOk (sparse : Bool) (x : Word64) : Bool :=
  decide ((fld x 0 8).toNat ≤ 128) && decide ((fld x 8 8).toNat ≤ 128) && decide ((fld x 16 21).toNat ≤ 2 ^ 20)
    && (fld x 16 21).toNat % (if sparse then 64 else 32) == 0 && fld x 37 3 == 0#3 && fld x 41 23 == 0#23

/-- Whether a bound stream has a direction: 0x23 otherwise (R220). -/
def Task.streamDir (t : Task) (n : Nat) (write : Bool) : Bool :=
  (t.stream n).bound && (StreamDesc.ofBits (t.stream n).desc).dir == write

/-- MMUL and MMULS (R245): the pop stands when a check of step 4 fails. -/
def pushMmul (i : Instr) (sparse : Bool) (z : BitVec 3) (a b : BitVec 4) (r : BitVec 6) (s : State) : Out :=
  settle s.cur .x s do
    legal i
    s.grantsTile z
    s.roomMq
    let (x, u) ← s.readOp s.cur .x r
    let t := u.task s.cur
    let A := StreamDesc.ofBits (t.stream a.toNat).desc
    let B := StreamDesc.ofBits (t.stream b.toNat).desc
    if !(t.streamDir a.toNat false && t.streamDir b.toNat false) then throw (.trap 0x23#8 (some u))
    else if A.sparse != sparse || B.sparse || (sparse && A.fmt != 9) then throw (.trap 0x25#8 (some u))
    else if !dimOk sparse x then throw (.trap 0x32#8 (some u))
    else if t.lease = .none then throw (.trap 0x34#8 (some u))
    else do
      u.drainReady s.cur
      return ((u.drainAll s.cur).pushM (.mmul sparse z.toNat a.toNat b.toNat x)).retire s.cur .x

/-- MMUL (R245). -/
def execMmul (z : BitVec 3) (a b : BitVec 4) (fs : BitVec 6) (s : State) : Out := pushMmul (.mmul z a b fs) false z a b fs s
/-- MMULS (R245). -/
def execMmuls (z : BitVec 3) (a b : BitVec 4) (fs : BitVec 6) (s : State) : Out := pushMmul (.mmuls z a b fs) true z a b fs s

/-- MLD (R247). -/
def execMld (z : BitVec 3) (fs : BitVec 4) (s : State) : Out :=
  settle s.cur .x s do
    legal (.mld z fs)
    s.grantsTile z
    s.roomMq
    require ((s.task s.cur).streamDir fs.toNat false) 0x23#8
    require (!(StreamDesc.ofBits ((s.task s.cur).stream fs.toNat).desc).sparse) 0x25#8
    s.drainReady s.cur
    return ((s.drainAll s.cur).pushM (.mld z.toNat fs.toNat)).retire s.cur .x

/-- MST to a stream (R248). -/
def execMst (z : BitVec 3) (fs f : BitVec 4) (h : BitVec 1) (s : State) : Out :=
  settle s.cur .x s do
    legal (.mst z fs f h)
    s.grantsTile z
    s.roomMq
    require ((s.task s.cur).streamDir fs.toNat true) 0x23#8
    require ((StreamDesc.ofBits ((s.task s.cur).stream fs.toNat).desc).fmt == f.toNat) 0x25#8
    s.drainReady s.cur
    return ((s.drainAll s.cur).pushM (.mst z.toNat fs.toNat (h == 1#1))).retire s.cur .x

/-- MST to a queue (R248). -/
def execMstQ (z : BitVec 3) (f : BitVec 4) (q : BitVec 6) (h : BitVec 1) (s : State) : Out :=
  settle s.cur .x s do
    legal (.mstQ z f q h)
    s.grantsTile z
    s.roomMq
    s.drainReady s.cur
    return ((s.drainAll s.cur).pushM (.mstQ z.toNat f.toNat (q.toNat - 32) (h == 1#1) 0)).retire s.cur .x

/-- HIST_CLR (R250). -/
def execHistClr (s : State) : Out :=
  settle s.cur .x s do
    legal .histClr
    s.roomMq
    return (s.pushM .histClr).retire s.cur .x

/-- HIST_RD (R250). -/
def execHistRd (q : BitVec 6) (s : State) : Out :=
  settle s.cur .x s do
    legal (.histRd q)
    s.roomMq
    return (s.pushM (.histRd (q.toNat - 32))).retire s.cur .x

end Sys2Proof.Machine
end

