-- ==== Sys2Proof/Machine/Header.lean ====
section
/-! DEFINITION. The fields of a continuation record (R111), the context image's header (R260, R334), and its place in the frame (R259). -/
namespace Sys2Proof

/-- ENTRY of a record (R111). -/
def Rec.entry (r : Rec) : Nat := (r.w0.extractLsb' 0 22).toNat
/-- PRIO of a record. -/
def Rec.prio (r : Rec) : Nat := (r.w0.extractLsb' 22 2).toNat
/-- KID of a record. -/
def Rec.kid (r : Rec) : Nat := (r.w0.extractLsb' 24 20).toNat
/-- Team width of a record: TW + 1. -/
def Rec.width (r : Rec) : Nat := (r.w0.extractLsb' 56 3).toNat + 1
/-- Team height of a record: TH + 1. -/
def Rec.height (r : Rec) : Nat := (r.w0.extractLsb' 59 3).toNat + 1
/-- IMG of a record. -/
def Rec.isImage (r : Rec) : Bool := r.w0.getLsbD 62
/-- FTOK of a record. -/
def Rec.ftok (r : Rec) : Word32 := r.w1.extractLsb' 0 32
/-- FOFF of a record. -/
def Rec.foff (r : Rec) : Nat := (r.w1.extractLsb' 32 32).toNat
/-- JTOK of a record. -/
def Rec.jtok (r : Rec) : Word32 := r.w2.extractLsb' 0 32
/-- JOFF of a record. -/
def Rec.joff (r : Rec) : Nat := (r.w2.extractLsb' 32 32).toNat
/-- Tasks that a record starts. -/
def Rec.tasks (r : Rec) : Nat := r.width * r.height
/-- The record with IMG set or cleared. -/
def Rec.withImg (r : Rec) (p : Bool) : Rec := { r with w0 := r.w0 &&& ~~~(1#64 <<< 62) ||| (if p then 1#64 <<< 62 else 0#64) }
/-- The record with a new STAMP. -/
def Rec.stamped (r : Rec) (t : BitVec 64) : Rec := { r with w3 := (t.setWidth 40).setWidth 64 }
/-- The record with its partition id written by the hardware (R111). -/
def Rec.inPart (r : Rec) (p : Nat) : Rec := { r with w0 := r.w0 &&& ~~~(0xFFF#64 <<< 44) ||| ((BitVec.ofNat 12 p).setWidth 64 <<< 44) }

/-- Record `i` of a launch: FOFF raised by `i` strides (R305). -/
def Rec.strided (r : Rec) (i : Nat) (stride : BitVec 32) : Rec :=
  { r with w1 := BitVec.ofNat 32 ((r.w1.toNat / 2 ^ 32 + i * stride.toNat) % 2 ^ 32) ++ r.w1.setWidth 32 }

end Sys2Proof

namespace Sys2Proof.Machine

/-! The header (R260, R334). -/

/-- The kernel of a record. -/
def RingRec.key (r : RingRec) : Nat := kernelKey r.ctx r.record.kid

/-- Bytes of one task's image (R260). -/
def imageSize : Nat := 6307840
/-- A number laid at a byte offset. -/
def atByte (off x : Nat) : Nat := x * 2 ^ (8 * off)
/-- Values of `k` bytes each, from a byte offset up. -/
def row (off k : Nat) (l : List Nat) : Nat := atByte off (l.foldr (fun v a => v % 2 ^ (8 * k) + 2 ^ (8 * k) * a) 0)

/-- A loop counter's 8 bytes (log 9). -/
def LoopCtr.image (l : LoopCtr) : Nat := l.count.toNat + 2 ^ 32 * (l.last.toNat % 2 ^ 22) + (if l.active then 2 ^ 63 else 0)
/-- The loop order byte of a sequencer (R334): innermost first, 3 where no loop is active. -/
def Seq.orderByte (q : Seq) : Nat := (q.order ++ [3, 3, 3]).take 3 |>.foldr (fun n a => n % 4 + 4 * a) 0
/-- The 128 bytes of a stream register (R334). -/
def StreamReg.image (r : StreamReg) : Nat :=
  if r.bound then r.handle.toNat + atByte 8 r.desc.toNat + atByte 72 (r.pos % 2 ^ 64) + atByte 80 (1 + (if r.share.isSome then 2 else 0)) else 0
/-- The 16 bytes of a queue's state (R334). -/
def QState.image (x : QState) : Nat := row 0 2 [x.occ] + row 2 1 [x.head] + row 3 1 [x.awaiting.length] + row 4 2 [x.p] + row 6 1 [x.g]
/-- Bit mask of the positions of a list where a test holds. -/
def bitsOf {α : Type} (p : α → Bool) (l : List α) : Nat := l.foldr (fun x a => (if p x then 1 else 0) + 2 * a) 0
/-- The k-registers that await an NST's name. -/
def Task.namesAwaited (t : Task) : Nat :=
  bitsOf (fun k => t.names.any (fun n => match n with | .nst k' _ _ => k'.toNat == k | .value .. => false)) (List.range 16)
/-- Code of a lease state (R260). -/
def Lease.code : Lease → Nat
  | .none => 0
  | .waiting => 1
  | .holding => 2

/-- The control words (R260): `m` holds the member's barrier and collective counts. -/
def Task.controlWords (t : Task) (m : Member) (susp : Bool) : Nat :=
  row 0x00 4 [t.seqA.pc.toNat % 2 ^ 22, t.seqX.pc.toNat % 2 ^ 22, t.seqA.marks.toNat, t.seqX.marks.toNat]
  + row 0x10 8 [t.partw.toNat,
      2 * t.lease.code + (if susp then 8 else 0) + 2 ^ 16 * t.namesAwaited
        + 2 ^ 32 * bitsOf (· == Await.engine) t.aAwait.toList, t.doms.toNat, t.pb.toNat]
  + row 0x30 8 ([Scope.q, .t, .d, .p, .x].zip m.joined.toList |>.map (fun x => x.2.toNat + (if m.arrived = some x.1 then 2 ^ 32 else 0)))
  + row 0x58 8 (m.colls.toList.map (·.toNat))

/-- Register slots of the tiles; one beyond PARTW.TILES is zero, as the register reads (R272) (log 66). -/
def tileSlots (w : BitVec 22) (l : List Nat) : List Nat := l.take (pwTiles w) ++ List.replicate (8 - pwTiles w) 0

/-- The system-register slots at 0x0A00 (R260). -/
def Task.slots (t : Task) : List Nat :=
  [t.slipw.toNat] ++ t.qfmt.toList.map (·.toNat) ++ tileSlots t.partw (t.zpw.toList.map (·.toNat)) ++ tileSlots t.partw (t.zexp.toList.map (·.toNat))
    ++ [t.tks.toNat, t.vst.toNat, t.zst.toNat, t.stat.toNat, 2 ^ 32 * t.dqHead.toNat + t.dqCount.toNat, t.spk.toNat, t.spov.toNat, t.mprog.toNat]

/-- Column offset, row offset of member `j` of a team of width `w`, with its ENDED bit (R266). -/
def teamWord (w j : Nat) (ended : Bool) : Nat := j % w + 8 * (j / w) + (if ended then 64 else 0)

/-- The team block (R266): the members' ENDED bits in TIDX order, the parities of the origin. -/
def teamBlock (w : Nat) (ended : List Bool) (px py : Nat) : Nat :=
  row 0x2C00 2 ((List.range ended.length).map (fun j => teamWord w j (ended[j]?.getD false))) + row 0x2C80 2 [px + 2 * py]

/-- The header of a task's image without its team block (R260, R334); `priv` gives the device-private bytes (log 12). -/
def Task.header (t : Task) (m : Member) (susp : Bool) (written : BitVec 1536) (priv : Nat → Byte) : Nat :=
  t.controlWords m susp
  + row 0x100 8 (t.a.toList.map (·.toNat)) + row 0x200 8 (t.sr.toList.map (·.toNat)) + row 0x300 4 (t.k.toList.map (·.toNat))
  + atByte 0x340 written.toNat + row 0x400 128 (t.m.toList.map (·.toNat))
  + row 0x800 4 (t.seqX.bq.map (·.toNat)) + row 0x900 4 (t.seqA.bq.map (·.toNat))
  + row 0xA00 8 t.slots
  + row 0xC00 16 (t.q.toList.map (·.image)) + row 0xC80 2 [t.seqX.bq.length] + row 0xC90 2 [t.seqA.bq.length]
  + row 0xD00 8 ((t.seqA.lc.toList ++ t.seqX.lc.toList).map (·.image))
  + row 0xD30 1 [t.seqA.orderByte, t.seqX.orderByte]
  + row 0xD80 4 (t.seqA.ret.reverse.map (·.toNat)) + row 0xDC0 4 (t.seqX.ret.reverse.map (·.toNat))
  + row 0xE00 1 [t.seqA.ret.length, t.seqX.ret.length] + row 0xE04 4 [t.seqA.spilled, t.seqX.spilled]
  + row 0x1000 128 (t.streams.toList.map (·.image))
  + row 0x1800 4 (t.bins.toList.map (·.toNat))
  + row 0x1C00 1 ((List.range 1024).map (fun j => (priv j).toNat))
  + row 0x2000 12 ((List.range 256).map (fun f =>
      let x := NMap.getD t.flags f ⟨0#32, 0#32, 0#32⟩
      x.pushed.toNat + 2 ^ 32 * x.claimed.toNat + 2 ^ 64 * x.done.toNat))

/-! Reading a header (R267). -/

/-- The number in `n` bytes of a header from an offset on. -/
def field (h off n : Nat) : Nat := h / 2 ^ (8 * off) % 2 ^ (8 * n)

/-- A loop counter of a header; the body's first word is the one it had (log 9). -/
def LoopCtr.ofImage (l : LoopCtr) (x : Nat) : LoopCtr :=
  { l with count := BitVec.ofNat 32 x, last := BitVec.ofNat 32 (x / 2 ^ 32 % 2 ^ 22), active := x / 2 ^ 63 % 2 == 1 }
/-- A stream register of a header, unshared (R267). -/
def StreamReg.ofImage (x : Nat) : StreamReg :=
  if field x 80 1 % 2 = 1 then ⟨true, BitVec.ofNat 32 x, BitVec.ofNat 512 (field x 8 64), field x 72 8, none⟩ else StreamReg.reset
/-- A queue's state of a header; a save has settled every load. -/
def QState.ofImage (x : Nat) : QState := ⟨field x 0 2, field x 2 1, [], field x 4 2, field x 6 1, 0, 0, []⟩
/-- The lease state of a code. -/
def Lease.ofCode : Nat → Lease
  | 1 => .waiting
  | 2 => .holding
  | _ => .none

/-- A sequencer of a header (R260, R334): what the header does not hold stays; a branch queue has 64 entries at most and a return stack 16
(R29, R78). -/
def Seq.ofHeader (q : Seq) (d : Side) (h : Nat) : Seq :=
  let i := match d with | .a => 0 | .x => 1
  let marks := BitVec.ofNat 32 (field h (8 + 4 * i) 4)
  let order := field h (0xD30 + i) 1
  -- bqa is what A pushes
  let bq := match d with | .a => (0xC90, 0x900) | .x => (0xC80, 0x800)
  { q with
    pc := BitVec.ofNat 32 (field h (4 * i) 4 % 2 ^ 22), marks := marks, seenMarks := marks
    lc := Vector.ofFn (fun n => (q.lc[n.val]?.getD LoopCtr.reset).ofImage (field h (0xD00 + 24 * i + 8 * n.val) 8))
    order := [order % 4, order / 4 % 4, order / 16 % 4].filter (fun n => n != 3)
    ret := ((List.range (min 16 (field h (0xE00 + i) 1))).map (fun n => BitVec.ofNat 22 (field h (0xD80 + 64 * i + 4 * n) 4))).reverse
    spilled := field h (0xE04 + 4 * i) 4
    bq := (List.range (min 64 (field h bq.1 2))).map (fun n => BitVec.ofNat 32 (field h (bq.2 + 4 * n) 4)) }

/-- Flags of a header: those with a count. -/
def flagsOfHeader (h : Nat) : NMap Flag :=
  (List.range 256).filterMap (fun f =>
    let x := field h (0x2000 + 12 * f) 12
    if x = 0 then none else some (f, ⟨BitVec.ofNat 32 x, BitVec.ofNat 32 (x / 2 ^ 32), BitVec.ofNat 32 (x / 2 ^ 64)⟩))

/-- The task of an image (R260, R267, R334): the registers as the header holds them; the matrix queue and the setters, which lie in its
device-private bytes, and what else it does not hold stay as the save left them (log 10). -/
def Task.ofHeader (t : Task) (h : Nat) : Task :=
  let slot (i : Nat) : Nat := field h (0xA00 + 8 * i) 8
  let tile {w : Nat} (i : Nat) (n : Fin 8) (old : BitVec w) : BitVec w := if n.val < pwTiles t.partw then BitVec.ofNat w (slot (i + n.val)) else old
  let state := field h 0x18 8
  { t with
    seqA := t.seqA.ofHeader .a h
    seqX := t.seqX.ofHeader .x h
    lease := Lease.ofCode (state / 2 % 4)
    aAwait := Vector.ofFn (fun n => if state / 2 ^ (32 + n.val) % 2 = 1 then .engine else
      match t.aAwait[n] with
      | .error => .error
      | .none | .load | .engine => .none)
    pb := BitVec.ofNat 28 (field h 0x28 8)
    a := Vector.ofFn (fun n => BitVec.ofNat 64 (field h (0x100 + 8 * n.val) 8))
    sr := Vector.ofFn (fun n => BitVec.ofNat 64 (field h (0x200 + 8 * n.val) 8))
    k := Vector.ofFn (fun n => BitVec.ofNat 32 (field h (0x300 + 4 * n.val) 4))
    m := Vector.ofFn (fun n => BitVec.ofNat 1024 (field h (0x400 + 128 * n.val) 128))
    slipw := BitVec.ofNat 7 (slot 0)
    qfmt := Vector.ofFn (fun n => BitVec.ofNat 8 (slot (1 + n.val)))
    zpw := Vector.ofFn (fun n => tile 9 n t.zpw[n])
    zexp := Vector.ofFn (fun n => tile 17 n t.zexp[n])
    tks := BitVec.ofNat 6 (slot 25)
    vst := BitVec.ofNat 3 (slot 26)
    zst := BitVec.ofNat 16 (slot 27)
    stat := BitVec.ofNat 7 (slot 28)
    dqHead := BitVec.ofNat 17 (slot 29 / 2 ^ 32)
    dqCount := BitVec.ofNat 17 (slot 29)
    spk := BitVec.ofNat 32 (slot 30)
    spov := BitVec.ofNat 32 (slot 31)
    mprog := BitVec.ofNat 36 (slot 32)
    q := Vector.ofFn (fun n => QState.ofImage (field h (0xC00 + 16 * n.val) 16))
    streams := Vector.ofFn (fun n => StreamReg.ofImage (field h (0x1000 + 128 * n.val) 128))
    bins := Vector.ofFn (fun n => BitVec.ofNat 32 (field h (0x1800 + 4 * n.val) 4))
    flags := flagsOfHeader h }

/-- The pool lines that a header marks written (R260, R261). -/
def writtenOf (h : Nat) : BitVec 1536 := BitVec.ofNat 1536 (field h 0x340 192)

/-- A member of a team before its first barrier: kernel, partition, team, TIDX, width and height, launch group, core of its first start. -/
def Member.first (kid part team tidx w h : Nat) (group : Option Nat) (core : Nat) : Member where
  kid := kid
  part := part
  team := team
  tidx := tidx
  width := w
  height := h
  group := group
  core := core
  joined := Vector.replicate 5 0#32
  arrived := none
  released := false
  colls := Vector.replicate 5 0#32
  ended := false
  away := false
  flags := []
  setters := []
  pkg := none
  halted := none
  told := false

/-- A member that no task is known of. -/
def Member.none_ : Member := Member.first 0 0 0 0 1 1 none 0

/-- The header of a member that had ended: STATE.ENDED; the registers, of which the spec says nothing more, hold any values that the
layout admits, and what the layout makes zero is zero (R260, R266, R334, log 12). -/
def endedHeader (open_ : Nat → Byte) : Nat :=
  let h := row 0 1 ((List.range 0x3000).map (fun j => (open_ j).toNat))
  let t := { Task.reset.ofHeader h with partw := BitVec.ofNat 22 (field h 0x10 8), doms := BitVec.ofNat 52 (field h 0x20 8) }
  let m := { Member.none_ with
    joined := Vector.ofFn (fun n => BitVec.ofNat 32 (field h (0x30 + 8 * n.val) 8))
    colls := Vector.ofFn (fun n => BitVec.ofNat 32 (field h (0x58 + 8 * n.val) 8)) }
  t.header m false (writtenOf h) open_ + atByte 0x18 1

/-! Frames (R259). -/

/-- Whether a handle is valid (R194): its generation matches a live entry of the table. -/
def State.validHandle (s : State) (ctx : Nat) (h : Word32) : Bool :=
  let e := s.entry ctx (handleIndex h)
  handleIndex h != 0 && s.inTable ctx (handleIndex h) && e.gen == handleGen h
    && (e.state == .active || e.state == .quiescing || e.state == .held)

/-- Whether a record's frame is usable (R259). -/
def State.frameUsable (s : State) (ctx : Nat) (r : Rec) : Bool :=
  let e := s.entry ctx (handleIndex r.ftok)
  s.validHandle ctx r.ftok && e.w && e.cls == 1 && r.foff % 4096 == 0 && decide (r.foff + r.tasks * imageSize ≤ e.len)

/-- Parities of a saved team's origin, from the place of its first member that has not ended (R266). -/
def originParity (w : Nat) (img : List SavedTask) : Nat × Nat :=
  match img.find? (fun x => !x.ended) with
  | some x =>
    let j := (x.task.doms.extractLsb' 0 6).toNat
    (((x.task.doms.extractLsb' 12 3).toNat + j % w) % 2, ((x.task.doms.extractLsb' 15 3).toNat + j / w) % 2)
  | none => (0, 0)

/-- What a member's header holds (R260, R266); that of a single task has no team block (log 108). -/
def State.headerOf (s : State) (r : Rec) (img : List SavedTask) (susp : Bool) (x : SavedTask) : Nat :=
  let p := originParity r.width img
  let team := if r.tasks = 1 then 0 else teamBlock r.width (img.map (·.ended)) p.1 p.2
  if x.ended then endedHeader (Config.privateImageByte s.free) + team
  else x.task.header (NMap.getD s.members x.task.uid Member.none_) susp x.written (Config.privateImageByte s.free) + team

/-- Writes a header that a record's frame already holds again, with what has reached the image since (R263); not while the frame's entry
is under revocation. -/
def State.rewriteHeader (s : State) (ctx : Nat) (r : Rec) (img : List SavedTask) (susp : Bool) (j : Nat) (x : SavedTask) : State :=
  match s.tokenCheck ctx r.ftok (r.foff + imageSize * j) 16384 true with
  | .done (some i) m _ =>
    let e := s.entry ctx i
    let v := s.headerOf r img susp x
    s.writeCells ((e.pieces (s.entrySwz e) m (r.foff + imageSize * j) 0).flatMap
      (fun p => p.bytes.map (fun b => (b.2, BitVec.ofNat 8 (v / 2 ^ (8 * b.1))))))
  | _ => s

end Sys2Proof.Machine
end

