-- ==== Sys2Proof/Machine/Where.lean ====
section
/-! DEFINITION. Tasks wherever they are (R263): on a core, or in the image of a record; what reaches a task from an engine or a peer
(PB, TKS, completion words, flags), and how a kernel dies by a cause that no sequencer raises (R268). -/
namespace Sys2Proof.Machine

/-- Applies a function to the saved task of a number among saved members; `owes` where the frame cannot be written now. -/
def modSaved (uid : Nat) (f : Task → Task) (owes : Bool) (l : List SavedTask) : List SavedTask :=
  l.map (fun x => if x.task.uid = uid ∧ !x.ended then { x with task := f x.task, owes := x.owes || owes } else x)

/-- Whether the entry of a record's frame is under revocation (R164). -/
def State.frameRevoked (s : State) (r : RingRec) : Bool :=
  s.tokenCheck r.ctx r.record.ftok r.record.foff 0 true == .held

/-- Writes the header of a saved task anew in the frame of the record that holds it (R263). -/
def State.reimage (s : State) (uid : Nat) (r : RingRec) : State :=
  let susp := match r.place with
    | .fault .. => true
    | _ => false
  (List.range r.img.length).foldl (fun s j =>
    match r.img[j]? with
    | some x => if x.task.uid = uid ∧ !x.ended then s.rewriteHeader r.ctx r.record r.img susp j x else s
    | none => s) s

/-- Applies a function to the task of a number: in a core's registers while the core holds it, or in its image (R263). -/
def State.modTaskOf (s : State) (uid : Nat) (f : Task → Task) : State :=
  let cores := NMap.mapv s.cores (fun _ (x : Core) =>
    let x := if x.holdsTask ∧ x.task.uid = uid then { x with task := f x.task } else x
    match x.shadow with
    | some r => { x with shadow := some { r with img := modSaved uid f (s.frameRevoked r) r.img } }
    | none => x)
  let s : State := { s with cores := cores, records := s.records.map (fun r => { r with img := modSaved uid f (s.frameRevoked r) r.img }) }
  let held := s.records ++ s.cores.filterMap (fun x => x.2.shadow)
  held.foldl (fun s r => if r.img.isEmpty then s else s.reimage uid r) s

/-- What a record's images still owe to their frame goes into it, once its entry has been refreshed (R165, R263). -/
def State.payImages (s : State) (r : RingRec) : State := r.img.foldl (fun s x => if x.owes then s.reimage x.task.uid r else s) s

/-- The record owes its frame nothing more. -/
def RingRec.paid (r : RingRec) : RingRec := { r with img := r.img.map (fun x => { x with owes := false }) }

/-- What images owe to frames in an entry that has been refreshed goes into them (R165, R263). -/
def State.payFrames (s : State) (ctx entry : Nat) : State :=
  let due (r : RingRec) : Bool := r.ctx == ctx && handleIndex r.record.ftok == entry && r.img.any (·.owes)
  let s := (s.records ++ s.cores.filterMap (fun x => x.2.shadow)).foldl (fun s r => if due r then s.payImages r else s) s
  { s with
    records := s.records.map (fun r => if due r then r.paid else r)
    cores := NMap.mapv s.cores (fun _ x => { x with shadow := x.shadow.map (fun r => if due r then r.paid else r) }) }

/-- The core that holds a task in its registers. -/
def State.coreOf (s : State) (uid : Nat) : Option Nat :=
  (s.cores.find? (fun x => x.2.holdsTask && x.2.task.uid == uid)).map (·.1)

/-- The task of a number, where there is one. -/
def State.taskOf (s : State) (uid : Nat) : Option Task :=
  match s.coreOf uid with
  | some c => some (s.task c)
  | none =>
    let imgs := s.records.flatMap (·.img) ++ s.cores.flatMap (fun x => match x.2.shadow with | some r => r.img | none => [])
    (imgs.find? (fun x => x.task.uid == uid && !x.ended)).map (·.task)

/-- Adds bytes to PB, held at its maximum with STAT.PBOV (R185). -/
def Task.addPb (t : Task) (n : Nat) : Task :=
  if t.pb.toNat + n < 2 ^ 28 then { t with pb := BitVec.ofNat 28 (t.pb.toNat + n) }
  else { t with pb := BitVec.allOnes 28 }.raiseStat statPBOV

/-- Written bytes are counted in PB of a task (R185): it runs here, or waits in an image, or a peer package runs it and gets a count (R288,
R295). -/
def State.countBytes (s : State) (uid n : Nat) : State :=
  match NMap.get s.members uid with
  | some m =>
    match m.pkg with
    | some p => s.send (.count m.part p uid n)
    | none => s.modTaskOf uid (·.addPb n)
  | none => s.modTaskOf uid (·.addPb n)

/-- Writes an engine's completion word; an error word raises 0x31 when it is read (R183, R217, R218). Register 0 discards it. -/
def Task.deliver (t : Task) (r : Nat) (w : Word64) (err : Bool) : Task :=
  if r = 0 then t else { t with a := t.a.setIfInBounds r w, aAwait := t.aAwait.setIfInBounds r (if err then .error else .none) }

/-- The member of a number's team at an index (R185, R214). -/
def State.teamMember (s : State) (uid idx : Nat) : Option Nat :=
  match NMap.get s.members uid with
  | none => none
  | some m => (s.members.find? (fun x => x.2.team == m.team && x.2.tidx == idx)).map (·.1)

/-- Members of a number's team. -/
def State.teamSize (s : State) (uid : Nat) : Nat :=
  match NMap.get s.members uid with
  | some m => m.width * m.height
  | none => 1

/-- Begins the death of a kernel by a cause that no word of a running task raises (R264, R268, R270): the trap record names the
core and holds the program counters of the saved task that the cause concerns (R257), or the cause is absorbed. -/
def State.killKernel (s : State) (kid core : Nat) (cause : BitVec 8) (pcs : BitVec 64) : State :=
  match s.kernel kid with
  | none => s
  | some k =>
    match k.dying with
    | some x => s.modKernel kid (fun k => { k with dying := some { x with absorbed := x.absorbed + 1 } })
    | none =>
      (s.postRecord kid ⟨recWord 2#8 cause kid core 0, pcs, 0#64, s.cyc⟩).modKernel kid
        (fun k => { k with dying := some ⟨core, cause, false, 0, 0, 0, false, [], s.cyc⟩ })

/-- The program counters of the task of a number, as a trap record holds them (R257). -/
def State.pcsOf (s : State) (uid : Nat) : BitVec 64 :=
  match s.taskOf uid with
  | some t => t.pcWord
  | none => 0#64

/-- Raises a cause of fate Kill in the task of a number: as a trap where a core holds it, else against its kernel. -/
def State.killTask (s : State) (uid kid core : Nat) (cause : BitVec 8) : State :=
  match s.coreOf uid with
  | some c => s.takeKill c .a cause 0#32
  | none => s.killKernel kid core cause (s.pcsOf uid)

/-! What an ended task leaves to its chains (R145, R223). -/

/-- A task that holds the flags and setters that a member has left. -/
def Member.rest (m : Member) : Task := { Task.reset with flags := m.flags, setters := m.setters }

/-- The core that a trap has stopped with a task, until the death of its kernel discards it (R32, R268): its chains still go on. -/
def State.stoppedOn (s : State) (uid : Nat) : Option Nat :=
  (s.cores.find? (fun x => x.2.mode == .stopped && x.2.task.uid == uid)).map (·.1)

/-- The task whose flags a chain acts on: the task itself, stopped by a trap or not, or what it has left. -/
def State.flagTask (s : State) (uid : Nat) : Task :=
  match s.taskOf uid, s.stoppedOn uid, NMap.get s.members uid with
  | some t, _, _ => t
  | none, some c, _ => s.task c
  | none, none, some m => m.rest
  | none, none, none => Task.reset

/-- Changes the flags and setters of the task of a number, or those that it has left (R263). -/
def State.modFlags (s : State) (uid : Nat) (f : Task → Task) : State :=
  match s.taskOf uid, s.stoppedOn uid with
  | some _, _ => s.modTaskOf uid f
  | none, some c => s.modTask c f
  | none, none => s.modMember uid (fun m => { m with flags := (f m.rest).flags, setters := (f m.rest).setters })

end Sys2Proof.Machine
end

