-- ==== Sys2Proof/Machine/Copy.lean ====
section
/-! DEFINITION. The copy engine (R213 to R218, R223, R237): a core's chains, one at a time, entry by entry. -/
namespace Sys2Proof.Machine

/-! Entries (R214, R218). -/

/-- Bytes `i` to `i + n - 1` of an entry as a number. -/
def entryNat (e : BitVec 256) (i n : Nat) : Nat := (e.extractLsb' (8 * i) (8 * n)).toNat
/-- A signed 32-bit field of an entry. -/
def entryInt (e : BitVec 256) (i : Nat) : Int := (e.extractLsb' (8 * i) 32).toInt
/-- KIND of an entry. -/
def entryKind (e : BitVec 256) : Nat := (e.extractLsb' 0 4).toNat

/-- Whether the reserved bytes and bits of an entry of a kind are zero (R214); a COND needs a SKIP. -/
def entryClean (e : BitVec 256) : Bool :=
  let z (lo len : Nat) : Bool := (e.extractLsb' lo len).toNat == 0
  match entryKind e with
  | 0 => z 4 252
  | 1 => z 7 1 && z 16 16 && z 192 64
  | 2 => z 4 28 && z 224 32
  | 3 => z 4 4 && z 16 16 && z 128 128
  | 4 => z 4 4 && z 17 7 && z 32 224 && entryNat e 3 1 != 0
  | 5 | 6 => z 4 4 && z 16 240
  | _ => true

/-- How an entry of a chain is read: as it is, past the k0 extent with the TKS bits of its TokenCheck (R85), or not now, held at an entry under
revocation (R165). -/
inductive EntryRead where
  | entry (e : BitVec 256) (s : State)
  | beyond (tks : BitVec 6)
  | held (at_ : Held)

/-- What a stop of a read says of the hold. -/
def Stop.heldAt : Stop → Held
  | .held ctx ent => some (ctx, ent)
  | .stall _ | .hold .. | .trap .. | .fault _ => none

/-- Entry `i` of a core's first chain: the kept copy, or read at home once and kept (R217, R237). -/
def State.chainEntry (s : State) (core : Nat) (h : Chain) (i : Nat) : EntryRead :=
  match NMap.get h.kept i with
  | some e => .entry e s
  | none =>
    match s.engineCheck h.ctx h.k0 ((h.head.toNat + 32 * i : Nat) : Int) 32 false with
    | .error e => .held e.heldAt
    | .ok (some (_, _, 32), _) =>
      match s.engineRead h.ctx h.k0 ((h.head.toNat + 32 * i : Nat) : Int) 32 with
      | .ok (v, _) =>
        let e : BitVec 256 := BitVec.ofNat 256 v
        .entry e (s.setCore core { s.core core with
          chains := (s.core core).chains.map (fun x => if x.id = h.id then { x with kept := NMap.set x.kept i e } else x) })
      | .error e => .held e.heldAt
    | .ok (_, b) => .beyond b

/-- Replaces a core's first chain, which has gone on. -/
def State.setChain (s : State) (core : Nat) (h : Chain) : State :=
  s.setCore core { s.core core with chains := (s.core core).chains.map (fun x => if x.id = h.id then { h with held := none } else x) }
/-- Notes that the next access of a chain is held (R165). -/
def State.noteChain (s : State) (core : Nat) (h : Chain) (p : Held) : State :=
  s.setCore core { s.core core with chains := (s.core core).chains.map (fun x => if x.id = h.id then { x with held := p } else x) }
/-- The first chain of a core as it stands; those of a virtual device that is PAUSED stand still (R318) (log 95). -/
def State.firstChain (s : State) (core : Nat) : Option Chain :=
  (s.core core).chains.find? (fun h => (s.partOf (s.partOfContext h.ctx)).vstate != .paused)

/-- Ends the holds of a sequencer that a completed chain was the last to justify (R223): whether 0x21 is due. -/
def Seq.chainDone (q : Seq) (id : Nat) : Seq × Bool :=
  match q.ewait with
  | .holding f l n =>
    let l' := l.filter (fun i => i != id)
    ({ q with ewait := .holding f l' n }, l'.isEmpty)
  | _ => (q, false)

/-- Entries that a transaction under way counts in. -/
def CopyTx.ents (x : CopyTx) : List Nat := x.src.toList.map (·.1) ++ x.dst.toList.map (·.1)

/-- Takes a chain out of its core: its transaction counts no longer (R161), and its write waits for the dirty log no longer (R322). -/
def State.dropChain (s : State) (core : Nat) (h : Chain) : State :=
  let s := s.setCore core { s.core core with chains := (s.core core).chains.filter (fun x => x.id != h.id) }
  let s := (h.run.bind (·.tx)).toList.foldl (fun s x => x.ents.foldl (fun s e => s.lowerInfl h.ctx e) s) s
  if (s.core core).chains.isEmpty || h.run.isSome then s.unhold (s.partOfContext h.ctx) [512 + core] else s

/-- A chain completes (R217, R218): its word to the completion register, and 0x21 where an EWAIT held for its last chain (R223). -/
def State.finishChain (s : State) (core : Nat) (h : Chain) (word : Option (Word64 × Bool)) : State :=
  let s := s.dropChain core h
  let s := match word with
    | some (w, err) => s.modTaskOf h.uid (fun t => t.deliver h.rb w err)
    | none => s
  match s.coreOf h.uid with
  | none => s
  | some c =>
    let a := (s.seq c .a).chainDone h.id
    let x := (s.seq c .x).chainDone h.id
    let s := (s.setSeq c .a a.1).setSeq c .x x.1
    if a.2 then s.takeTrap c .a 0x21#8 else if x.2 then s.takeTrap c .x 0x21#8 else s

/-- The error word of a copy chain (R218). -/
def copyErrorWord (code i : Nat) : Word64 := BitVec.ofNat 64 (2 ^ 63 + 2 ^ 32 + 2 ^ 16 * code + i % 2 ^ 16)

/-- Halts a chain with a code (R218): the error record, then the error word (log 65). -/
def State.chainError (s : State) (core : Nat) (h : Chain) (code : Nat) : State :=
  let w := copyErrorWord code h.at_
  let it (n : Nat) : Nat := match h.loops[n]? with
    | some l => l.iter % 2 ^ 32
    | none => 0
  let s := s.postRecord h.kid ⟨recWord 3#8 0#8 h.kid core (h.head.toNat / 32 % 2 ^ 18), w,
    BitVec.ofNat 64 (it 0 + it 1 * 2 ^ 32), BitVec.ofNat 64 (it 2 + it 3 * 2 ^ 32)⟩
  s.finishChain core h (some (w, true))

/-- What the entry under a core's running chain is: nothing to do, the chain halted or held, or a sound entry (R165, R218). -/
inductive AtEntry where
  | nothing
  | halted (s : State)
  | entry (e : BitVec 256) (h : Chain) (s : State)

/-- Reads the entry under a core's running chain. -/
def State.atEntry (s : State) (core : Nat) : AtEntry :=
  match s.firstChain core with
  | none => .nothing
  | some h =>
    if !h.started || h.run.isSome then .nothing
    else
      match s.chainEntry core h h.at_ with
      | .held p => .halted (s.noteChain core h p)
      | .beyond b => .halted ((s.modTaskOf h.uid (·.raiseTks b)).chainError core h 6)
      | .entry e s =>
        let h := (s.firstChain core).getD h
        if 7 ≤ entryKind e then .halted (s.chainError core h 1)
        else if !entryClean e then .halted (s.chainError core h 2)
        else if entryKind e = 2 then .halted (s.chainError core h 3)
        else .entry e h s

/-- CHAIN_START (R214): the first chain of a core begins. -/
def execChainStart (core : Nat) (s : State) : Out :=
  match s.firstChain core with
  | some h => .next (s.setChain core { h with started := true })
  | none => .next s

/-! COPY entries (R215, R216). -/

/-- Dimensions of a COPY from the SHAPE entries behind it (R214): the dimensions, or the code and index of the fault. -/
def State.shapes (s : State) (core : Nat) (h : Chain) (nd : Nat) : Nat → List (Nat × Int × Int) → EntryRead × List (Nat × Int × Int) × Option (Nat × Nat)
  | 0, l => (.entry 0#256 s, l.take nd, none)
  | k + 1, l =>
    let i := h.at_ + 1 + ((nd + 1) / 2 - (k + 1))
    match s.chainEntry core h i with
    | .held p => (.held p, l, none)
    | .beyond b => (.entry 0#256 (s.modTaskOf h.uid (·.raiseTks b)), l, some (6, i))
    | .entry e s =>
      let h := (s.firstChain core).getD h
      if entryKind e ≠ 2 then (.entry 0#256 s, l, some (3, h.at_))
      else
        let d1 := (entryNat e 4 4, entryInt e 8, entryInt e 12)
        let d2 := (entryNat e 16 4, entryInt e 20, entryInt e 24)
        let bad := !entryClean e || (l.length + 1 == nd && (e.extractLsb' 128 96).toNat != 0)
        let r := State.shapes s core h nd k (l ++ [d1, d2])
        -- a missing SHAPE entry makes the COPY itself ill-formed and comes first
        match r.2.2 with
        | some (3, j) => (r.1, r.2.1, some (3, j))
        | o => if bad then (r.1, r.2.1, some (2, i)) else (r.1, r.2.1, o)

/-- Whether a token's extent lies in a core's pool. -/
def State.tokenInPool (s : State) (ctx core : Nat) (h : Word32) : Bool :=
  let e := s.entry ctx (handleIndex h)
  if handleIndex h = 0 ∨ e.gen ≠ handleGen h then false
  else
    match e.origin with
    | .scratchpad => e.core == core
    | .anonymous => false
    | .translated => e.frames.any (fun f => decide (poolBase core ≤ f.phys) && decide (f.phys < poolBase core + poolSize))

/-- CHAIN_COPY (R214, R215, R218): reads a COPY entry and its SHAPE entries, or halts the chain at an ill-formed entry. -/
def execChainCopy (core : Nat) (s : State) : Out :=
  match s.atEntry core with
  | .nothing => .next s
  | .halted s => .next s
  | .entry e h s' =>
    if entryKind e ≠ 1 then .next s
    else
      let nd := (e.extractLsb' 4 3).toNat
      let len := entryNat e 20 4
      let rcv := entryNat e 1 1
      if 5 < nd then .next (s'.chainError core h 3)
      else
        match s'.shapes core h nd ((nd + 1) / 2) [] with
        | (.held p, _, _) => .next (s.noteChain core h p)
        | (.beyond _, _, _) => .next s
        | (.entry _ s', dims, bad) =>
          let h := (s'.firstChain core).getD h
          match bad with
          | some (3, _) => .next (s'.chainError core h 3)
          | _ =>
            if 2 ^ 24 < len then .next (s'.chainError core h 4)
            else if rcv ≠ 255 ∧ s'.teamSize h.uid ≤ rcv then .next (s'.chainError core h 7)
            else
              match bad with
              | some (code, i) => .next (s'.chainError core { h with at_ := i } code)
              | none =>
                let inside := h.loops.filter (fun l => decide (l.index - l.back ≤ h.at_) && decide (h.at_ < l.index))
                let sadd := inside.foldl (fun a l => a + (l.iter : Int) * l.sadv) (0 : Int)
                let dadd := inside.foldl (fun a l => a + (l.iter : Int) * l.dadv) (0 : Int)
                let span := 1 + (nd + 1) / 2
                let run : CopyRun := ⟨BitVec.ofNat 32 (entryNat e 4 4), BitVec.ofNat 32 (entryNat e 12 4),
                  entryNat e 8 4 + sadd, entryNat e 16 4 + dadd, len, rcv, dims, dims.map (fun _ => 0), 0, span, none⟩
                let pooled := h.pooled || s'.tokenInPool h.ctx core run.stok || s'.tokenInPool h.ctx core run.dtok
                if len = 0 ∨ dims.any (fun d => d.1 == 0) then .next (s'.setChain core { h with at_ := h.at_ + span, pooled := pooled })
                else .next (s'.setChain core { h with run := some run, pooled := pooled })

/-- The next index tuple, dimension 1 fastest; none after the last (R215). -/
def nextTuple : List (Nat × Int × Int) → List Nat → Option (List Nat)
  | d :: ds, i :: is => if i + 1 < d.1 then some ((i + 1) :: is) else (nextTuple ds is).map (0 :: ·)
  | _, _ => none

/-- The sum of index times stride over the dimensions (R215). -/
def tupleOff (f : Nat × Int × Int → Int) : List (Nat × Int × Int) → List Nat → Int
  | d :: ds, i :: is => (i : Int) * f d + tupleOff f ds is
  | _, _ => 0

/-- A side of a transaction as TokenCheck leaves it, counted in INFL (R161, R216): none where no byte is inside. -/
def State.openSide (s : State) (ctx : Nat) (x : Option (Nat × Nat × Nat)) : State × Option (Nat × Nat × Nat) :=
  match x with
  | some (e, neg, m) => if m = 0 then (s, none) else (s.raiseInfl ctx e, some (e, neg, m))
  | none => (s, none)

/-- The first row part of what is left of a side of a transaction at an offset (R171). -/
def State.sidePart (s : State) (ctx ent : Nat) (off : Int) (n : Nat) : Piece :=
  ((s.pieces ctx ent off.toNat n).head?).getD ⟨[], []⟩

/-- A transaction begins (R216): TokenCheck on both tokens, the source counted in INFL before the destination is checked (R161); a write into a wake window is suppressed with TKS.PERM (R306). -/
def State.openTx (s : State) (core : Nat) (h : Chain) (r : CopyRun) (so d : Int) : Run := do
  let n := min (r.len - r.x) (256 - (d % 256).toNat)
  let (a, k1) ← s.engineCheck h.ctx r.stok so n false
  let (u, src) := s.openSide h.ctx a
  let (b, k2) ← u.engineCheck h.ctx r.dtok d n true
  let wake := match b with
    | some (e, neg, m) => (s.pagesOf h.ctx e (d + neg).toNat m).any (·.wake)
    | none => false
  let u := u.modTaskOf h.uid (·.raiseTks (k1 ||| k2 ||| (if wake then tksPERM else 0#6)))
  let (u, dst) := u.openSide h.ctx (if wake then none else b)
  return u.setChain core { h with run := some { r with tx := some ⟨src, dst, n, 0, 0, 0⟩ } }

/-- A transaction reads its next source row (R216). -/
def State.readTx (s : State) (core : Nat) (h : Chain) (r : CopyRun) (x : CopyTx) (so : Int) (e neg m : Nat) : State :=
  let p := s.sidePart h.ctx e (so + neg + x.got) (m - x.got)
  let k := max 1 p.bytes.length
  let v := natOf (p.bytes.map (fun y => s.homeByte y.2))
  s.setChain core { h with run := some { r with tx := some { x with got := x.got + k, data := x.data + v * 2 ^ (8 * (neg + x.got)) } } }

/-- A transaction writes its destination row, or the part of it in its next page (R171, R216), and adds to PB (R185). -/
def State.writeTx (s : State) (core : Nat) (h : Chain) (r : CopyRun) (x : CopyTx) (d : Int) (e neg m : Nat) : Run := do
  let off := (d + neg + x.put).toNat
  let p := s.sidePart h.ctx e off (m - x.put)
  let k := max 1 p.bytes.length
  let u ← s.logDirty (s.partOfContext h.ctx) (512 + core) h.ctx e off k
  let u := u.writeCells (p.bytes.map (fun y => (y.2, BitVec.ofNat 8 (x.data / 2 ^ (8 * (neg + x.put + y.1))))))
  let u := if r.rcv = 255 then u else
    match u.teamMember h.uid r.rcv with
    | some w => u.countBytes w k
    | none => u
  return u.setChain core { h with run := some { r with tx := some { x with put := x.put + k } } }

/-- A transaction is over: it counts in INFL no longer, and the run goes on, or its entry is done (R215, R216). -/
def State.closeTx (s : State) (core : Nat) (h : Chain) (r : CopyRun) (x : CopyTx) : State :=
  let u := x.ents.foldl (fun s e => s.lowerInfl h.ctx e) s
  let r := { r with tx := none }
  if r.x + x.n < r.len then u.setChain core { h with run := some { r with x := r.x + x.n } }
  else
    match nextTuple r.dims r.idx with
    | some idx => u.setChain core { h with run := some { r with x := 0, idx := idx } }
    | none => u.setChain core { h with run := none, at_ := h.at_ + r.span }

/-- COPY_TRANSACTION (R216): the next step of the run's transaction: its checks, a source row, its destination row, its end. -/
def execCopyTransaction (core : Nat) (s : State) : Out :=
  match s.firstChain core with
  | none => .next s
  | some h =>
    match h.run with
    | none => .next s
    | some r =>
      let so := r.soff + tupleOff (·.2.1) r.dims r.idx + r.x
      let d := r.doff + tupleOff (·.2.2) r.dims r.idx + r.x
      match r.tx with
      | none => settleEvent s (s.noteChain core h) (s.openTx core h r so d)
      | some x =>
        match x.src.filter (fun y => decide (x.got < y.2.2)), x.dst.filter (fun y => decide (x.put < y.2.2)) with
        | some (e, neg, m), _ => .next (s.readTx core h r x so e neg m)
        | none, some (e, neg, m) => settleEvent s (s.noteChain core h) (s.writeTx core h r x d e neg m)
        | none, none => .next (s.closeTx core h r x)

/-! Control entries (R217, R223). -/

/-- CHAIN_LOOP (R217, R218): another pass of the body, or the loop is done; at most four active, properly nested. Loops
inside it that a COND has left active end with its pass (log 99). -/
def execChainLoop (core : Nat) (s : State) : Out :=
  match s.atEntry core with
  | .nothing => .next s
  | .halted s => .next s
  | .entry e h s' =>
    if entryKind e ≠ 3 then .next s
    else
      let back := entryNat e 1 1
      let count := entryNat e 4 4
      let p := h.at_
      if back = 0 ∨ p < back then .next (s'.chainError core h 5)
      else
        match h.loops.find? (fun l => l.index == p) with
        | some l =>
          let rest := (h.loops.dropWhile (fun m => m.index != p)).drop 1
          if l.iter + 1 < l.count then
            .next (s'.setChain core { h with at_ := p - back, loops := { l with iter := l.iter + 1 } :: rest })
          else .next (s'.setChain core { h with at_ := p + 1, loops := rest })
        | none =>
          if h.loops.any (fun l => decide (p - back < l.index - l.back)) then .next (s'.chainError core h 5)
          else if count ≤ 1 then .next (s'.setChain core { h with at_ := p + 1 })
          else if 4 ≤ h.loops.length then .next (s'.chainError core h 5)
          else .next (s'.setChain core { h with at_ := p - back, loops := ⟨p, back, count, 1, entryInt e 8, entryInt e 12⟩ :: h.loops })

/-- The flag of an entry. -/
def entryFlag (e : BitVec 256) : BitVec 8 := e.extractLsb' 8 8

/-- The counts of a flag of a chain's task, which outlast the task (R145, R223). -/
def State.flagOf (s : State) (uid : Nat) (f : BitVec 8) : Flag := (s.flagTask uid).flag f

/-- CHAIN_COND (R217). A skip past the LOOP entry of an active loop leaves that loop active, counted toward four, until a LOOP outside it drops
it (log 99). -/
def execChainCond (core : Nat) (s : State) : Out :=
  match s.atEntry core with
  | .nothing => .next s
  | .halted s => .next s
  | .entry e h s' =>
    if entryKind e ≠ 4 then .next s
    else
      let x := s'.flagOf h.uid (entryFlag e)
      let skip := (x.done == x.pushed) == e.getLsbD 16
      .next (s'.setChain core { h with at_ := h.at_ + 1 + (if skip then entryNat e 3 1 else 0) })

/-- CHAIN_SIGNAL (R223): a setter behind the task's earlier chains; its chain's earlier entries have completed. -/
def execChainSignal (core : Nat) (s : State) : Out :=
  match s.atEntry core with
  | .nothing => .next s
  | .halted s => .next s
  | .entry e h s' =>
    if entryKind e ≠ 5 then .next s
    else
      let deps := ((s'.chainsOf h.uid).map (·.id)).filter (fun i => decide (i < h.id))
      .next ((s'.modFlags h.uid (fun t => t.pushSetter (entryFlag e) deps)).setChain core { h with at_ := h.at_ + 1 })

/-- CHAIN_WAIT (R218, R223): claims a setter, and holds the chain until DONE reaches the target; a forward wait kills the kernel with 0x21,
and the chain stands at it until the death cancels it (R268). -/
def execChainWait (core : Nat) (s : State) : Out :=
  match s.atEntry core with
  | .nothing => .next s
  | .halted s => .next s
  | .entry e h s' =>
    if entryKind e ≠ 6 then .next s
    else
      let f := entryFlag e
      match h.wait with
      | some (_, n) =>
        if reached (s'.flagOf h.uid f).done n then .next (s'.setChain core { h with at_ := h.at_ + 1, wait := none }) else .next s
      | none =>
        let x := s'.flagOf h.uid f
        if x.claimed = x.pushed then
          .next ((s'.setChain core { h with wait := some (f, x.claimed + 1#32) }).killTask h.uid h.kid core 0x21#8)
        else .next ((s'.modFlags h.uid (fun t => (t.claim f).2)).setChain core { h with wait := some (f, x.claimed + 1#32) })

/-- CHAIN_END (R217): 0 to the completion register. -/
def execChainEnd (core : Nat) (s : State) : Out :=
  match s.atEntry core with
  | .nothing => .next s
  | .halted s => .next s
  | .entry e h s' => if entryKind e ≠ 0 then .next s else .next (s'.finishChain core h (some (0#64, false)))

/-! Pool work (R262, step 5). -/

/-- The entry that the SKIP of entry `i` may go on at, where it is a COND (R217). -/
def skipTo (i : Nat) (e : BitVec 256) : Nat := if entryKind e = 4 then i + 1 + entryNat e 3 1 else 0

/-- Where entry `i` goes back to, where it is a LOOP that repeats its body (R217); else itself. -/
def loopStart (i : Nat) (e : BitVec 256) : Nat :=
  if entryKind e = 3 ∧ 2 ≤ entryNat e 4 4 ∧ entryNat e 1 1 ≤ i then i - entryNat e 1 1 else i

/-- A chain as it stands now on its core. -/
def State.chainNow (s : State) (core : Nat) (h : Chain) : Chain := ((s.core core).chains.find? (fun x => x.id == h.id)).getD h

/-- The farthest entry that a COND read so far, from entry `first` on, may skip to. -/
def Chain.reach (h : Chain) (first : Nat) : Nat := h.kept.foldl (fun a e => if first ≤ e.1 then max a (skipTo e.1 e.2) else a) 0

/-- The first entry that still counts as remaining (R262): the one under the chain, or, where a LOOP read so far will go back before it, the
first of that LOOP's body; a LOOP in its last pass goes back no more. -/
def Chain.firstLeft (h : Chain) : Nat :=
  h.kept.foldl (fun a e =>
    let last := h.loops.any (fun l => l.index == e.1 && decide (l.count ≤ l.iter + 1))
    if h.at_ ≤ e.1 ∧ !last then min a (loopStart e.1 e.2) else a) h.at_

/-- Reads ahead up to `n` entries of a chain from index `i` (R262, step 5): the state, and whether entries stay unread, none where the read is
held. An END and an entry that halts the chain are the last, unless a COND before them, in a body that will be repeated too, may skip past
them to `reach`. -/
def State.readAhead (s : State) (core : Nat) (h : Chain) : Nat → Nat → Nat → State × Option Bool
  | 0, _, _ => (s, some true)
  | n + 1, i, reach =>
    match s.chainEntry core h i with
    | .held p => (s.noteChain core h p, none)
    | .beyond _ => (s, some false)
    | .entry e s =>
      let h := s.chainNow core h
      let reach := max reach (max (skipTo i e) (if loopStart i e < i then h.reach (loopStart i e) else 0))
      if (entryKind e = 0 ∨ 7 ≤ entryKind e) ∧ reach ≤ i then (s, some false) else s.readAhead core h n (i + 1) reach

/-- Whether a chain holds pool work: a COPY of the run in progress or of a remaining entry that touches the core's pool, or unread
entries, none where a held read leaves that open; and the state with its entries read ahead. -/
def State.poolWork (s : State) (core : Nat) (h : Chain) : State × Option Bool :=
  let touches (a b : Word32) := s.tokenInPool h.ctx core a || s.tokenInPool h.ctx core b
  let inRun := match h.run with
    | some r => touches r.stok r.dtok
    | none => false
  let (s', more) := s.readAhead core h 64 (h.at_ + (match h.run with | some r => r.span | none => 0)) (h.reach h.firstLeft)
  let h' := s'.chainNow core h
  let left := h'.kept.filter (fun e => decide (h'.firstLeft ≤ e.1) && entryKind e.2 == 1)
  let pool := inRun || left.any (fun e => touches (BitVec.ofNat 32 (entryNat e.2 4 4)) (BitVec.ofNat 32 (entryNat e.2 12 4)))
  (s', if pool then some true else more)

/-- Chains of a task on a core. -/
def State.chainsOn (s : State) (core uid : Nat) : List Chain := (s.core core).chains.filter (fun h => h.uid == uid)

/-- Whether any chain of a task on a core holds pool work, with what was read ahead. -/
def State.anyPoolWork (s : State) (core uid : Nat) : State × Bool :=
  (s.chainsOn core uid).foldl (fun acc h =>
    let r := acc.1.poolWork core h
    (r.1, acc.2 || r.2 != some false)) (s, false)

/-- Step 5 of a save on a core (R262): entries are read ahead, every chain of the task that then holds pool work is to run to completion; and
whether one has still to, or to be read. -/
def State.endPoolWork (s : State) (core uid : Nat) : State × Bool :=
  (s.chainsOn core uid).foldl (fun acc h =>
    let r := acc.1.poolWork core h
    let ends := h.ending || r.2 == some true
    (if ends then r.1.setCore core { r.1.core core with
      chains := (r.1.core core).chains.map (fun x => if x.id = h.id then { x with ending := true } else x) } else r.1,
     acc.2 || ends || r.2.isNone)) (s, false)

end Sys2Proof.Machine
end

