-- ==== Sys2Proof/Machine/Groups.lean ====
section
/-! DEFINITION. Barrier and collective groups (R147, R148, R231): who is expected, who has arrived, ranks, and the timers of the
instances of scope .P and .X (R296). -/
namespace Sys2Proof.Machine

/-- A member of no team and no launch group: a task that the placement of a word started (log 18). -/
def Member.solo (t : Task) (core : Nat) : Member :=
  Member.first t.kid t.part t.uid 0 1 1 none core

/-- What the machine keeps of a task as a member of groups. -/
def State.member (s : State) (uid : Nat) : Member :=
  match NMap.get s.members uid with
  | some m => m
  | none => Member.solo ((s.taskOf uid).getD Task.reset) ((s.coreOf uid).getD 0)
/-- Replaces it. -/
def State.setMember (s : State) (uid : Nat) (m : Member) : State := { s with members := NMap.set s.members uid m }

/-- Whether a member belongs to the group of another at a scope (R147): by team, by team and quad, or by launch group and place at the
first start: its die, its package. -/
def sameGroup (sc : Scope) (m x : Member) : Bool :=
  match sc with
  | .q => x.team == m.team && quadOf x.core == quadOf m.core
  | .t => x.team == m.team
  | .d => m.group.isSome && x.group == m.group && x.core / 64 == m.core / 64
  | .p => m.group.isSome && x.group == m.group && x.core / 512 == m.core / 512
  | .x => m.group.isSome && x.group == m.group

/-- The expected members of a member's group at a scope, itself among them (R147). -/
def State.expected (s : State) (uid : Nat) (sc : Scope) : List Nat :=
  let l := (s.members.filter (fun x => sameGroup sc (s.member uid) x.2)).map (·.1)
  if l.contains uid then l else uid :: l

/-- Index in its partition of the package on which a member started first (R147). -/
def State.firstPackage (s : State) (m : Member) : Nat := if m.core < 512 then (s.partOf m.part).pkgIdx else m.core / 512 - 1

/-- Which group a member belongs to at a scope. -/
def State.groupKey (s : State) (uid : Nat) (sc : Scope) : GroupKey :=
  let m := s.member uid
  match sc with
  | .q => ⟨.q, m.team, quadOf m.core⟩
  | .t => ⟨.t, m.team, 0⟩
  | .d => ⟨.d, m.group.getD uid, m.core / 64⟩
  | .p => ⟨.p, m.group.getD uid, s.firstPackage m⟩
  | .x => ⟨.x, m.group.getD uid, m.part⟩

/-- The members of a group that this package knows, by its key. -/
def State.keyMembers (s : State) (k : GroupKey) : List (Nat × Member) := s.members.filter (fun x => s.groupKey x.1 k.scope == k)

/-- Whether a record is offered to another die or on its way there (R293). -/
def RingRec.migrates (r : RingRec) : Bool :=
  match r.place with
  | .offered _ | .moving .. => true
  | .ring | .held | .fault .. | .awaited .. => false

/-- A launch group, where it is known. -/
def State.groupOf (s : State) (g : Option Nat) : Option Group := g.bind (NMap.get s.groups)
/-- Applies a function to a launch group. -/
def State.modGroup (s : State) (g : Option Nat) (f : Group → Group) : State :=
  match g, s.groupOf g with
  | some n, some x => { s with groups := NMap.set s.groups n (f x) }
  | _, _ => s

/-- Whether a record of a launch group is unplaced (R147, R293), here or on another package (log 47): its tasks have not started, or it migrates. -/
def State.unplaced (s : State) (g : Nat) : Bool :=
  let waits (r : RingRec) := r.group == some g && (r.img.isEmpty || r.migrates)
  s.records.any waits || s.cores.any (fun x => match x.2.shadow with | some r => waits r | none => false)
    || (s.groupOf (some g)).any (fun x => decide (0 < x.open_))

/-- Whether the members that a scope's instances expect are known (R147). -/
def State.groupKnown (s : State) (uid : Nat) (sc : Scope) : Bool :=
  match sc, (s.member uid).group with
  | .d, some g | .p, some g | .x, some g => !s.unplaced g
  | _, _ => true

/-- Instances of BAR that a member has joined at a scope (R148). -/
def Member.joinedAt (m : Member) (sc : Scope) : BitVec 32 := m.joined[Scope.index sc]?.getD 0#32
/-- Instances of COLL that a member has joined at a scope (R231). -/
def Member.collsAt (m : Member) (sc : Scope) : BitVec 32 := m.colls[Scope.index sc]?.getD 0#32
/-- Whether a member has arrived at barrier instance `n` of a scope, an ended member at each (R148). -/
def Member.hasArrived (m : Member) (sc : Scope) (n : BitVec 32) : Bool := m.ended || reached (m.joinedAt sc) n
/-- Whether a member has joined collective instance `n` of a scope, or has ended (log 64). -/
def Member.hasJoined (m : Member) (sc : Scope) (n : BitVec 32) : Bool := reached (m.collsAt sc) n
/-- Whether a member waits at barrier instance `n` of a scope. -/
def Member.waitsAt (m : Member) (sc : Scope) (n : BitVec 32) : Bool := m.arrived == some sc && m.joinedAt sc == n

/-- Where a member stands in ascending order of package, die and die-local core (R231): by DOMS of its task, which a restore sets anew
(R110), else by its first start (log 46). -/
def State.standing (s : State) (uid : Nat) : Nat :=
  let m := s.member uid
  match s.taskOf uid with
  | some t => 512 * (t.doms.extractLsb' 27 13).toNat + 64 * (t.doms.extractLsb' 24 3).toNat + 8 * (t.doms.extractLsb' 15 3).toNat
      + (t.doms.extractLsb' 12 3).toNat
  | none =>
    match m.pkg with
    | some p => 512 * (s.partOf m.part).packages.idxOf p + m.core % 512
    | none => if m.core < 512 then 512 * (s.partOf m.part).pkgIdx + m.core else m.core - 512

/-- A member's rank (R231): TIDX in quad and team, else its place in order of package, die and core, of two on one core the one that
started first (log 46). -/
def State.rank (s : State) (uid : Nat) (sc : Scope) : Nat :=
  match sc with
  | .q | .t => (s.member uid).tidx
  | .d | .p | .x =>
    let c := s.standing uid
    ((s.expected uid sc).filter (fun v => decide (s.standing v < c) || (s.standing v == c && decide (v < uid)))).length

/-- What a contribution holds for its member's rank: TIDX in quad and team, else where it stands when it joins; who stands before it is known once
the group's records are placed (R147, R231). -/
def State.order (s : State) (uid : Nat) (sc : Scope) : Nat :=
  match sc with
  | .q | .t => (s.member uid).tidx
  | .d | .p | .x => s.standing uid

/-! The conditions of a member that waits. -/

/-- The word a task waits at: whether it publishes, and the bytes it needs (R185, R205). -/
def State.barWord (s : State) (t : Task) : Bool × Nat :=
  let need (w : BitVec 1) (r : BitVec 6) : Nat := if w = 1#1 then (t.areg r.toNat).toNat % 2 ^ 28 else 0
  match s.kernel t.kid with
  | none => (false, 0)
  | some k =>
    match decode (s.textWord k t.seqA.pc.toNat) with
    | .ok (.bar _ w r) => (false, need w r)
    | .ok (.phase _ w r) => (true, need w r)
    | _ => (false, 0)

/-- The publish condition (R177): no entry but private ones, no atomic, SPAWN or JOIN unfinished. -/
def Task.published (t : Task) : Bool := t.stores.all (·.priv) && t.atomics.isEmpty && t.vatom.isNone && t.push.isNone

/-- Whether a waiting member's own conditions hold (R148, R177, R185); its package tells when those of a member elsewhere do (R288). -/
def State.conditionsHold (s : State) (uid : Nat) : Bool :=
  match s.taskOf uid with
  | some t =>
    let w := s.barWord t
    (!w.1 || t.published) && decide (w.2 ≤ t.pb.toNat)
  | none => (s.member uid).pkg.isNone

/-- Appends a contribution to its instance, which the first one opens. -/
def State.contribute (s : State) (k : GroupKey) (n : BitVec 32) (b : Contrib) : State :=
  if s.collectives.any (fun x => x.key == k && x.n == n) then
    { s with collectives := s.collectives.map (fun x => if x.key = k ∧ x.n = n then { x with contribs := x.contribs ++ [b] } else x) }
  else { s with collectives := s.collectives ++ [⟨k, n, [b], none, none⟩] }

/-! Timers (R296). -/

/-- Whether a record of a launch group is migrating with tasks that have not started, here or on another package (R293, R296, log 47). -/
def State.groupMigrates (s : State) (g : Option Nat) : Bool :=
  s.records.any (fun r => g.isSome && r.group == g && r.img.isEmpty && r.migrates) || (s.groupOf g).any (fun x => decide (0 < x.moving))

/-- Whether the timer of an instance stands still: an expected member is saved, suspended or migrating that has not arrived, or that
waits there with its own conditions not yet met, as T1 does in the example of R296 (log 39). -/
def State.timerHeld (s : State) (t : Timer) : Bool :=
  match s.members.find? (fun x => s.groupKey x.1 t.key.scope == t.key) with
  | none => true
  | some (uid, m) =>
    s.groupMigrates m.group || (s.expected uid t.key.scope).any (fun v =>
      let m := s.member v
      m.away && (if t.coll then !m.hasJoined t.key.scope t.n
        else !m.hasArrived t.key.scope t.n || (m.waitsAt t.key.scope t.n && !s.conditionsHold v)))

/-- One cycle of every timer that runs. -/
def State.tickTimers (s : State) : State :=
  { s with timers := s.timers.map (fun t => if t.aborted || s.timerHeld t then t else { t with cycles := t.cycles + 1 }) }

/-- The timer of an instance. -/
def State.timerOf (s : State) (k : GroupKey) (n : BitVec 32) (coll : Bool) : Option Timer :=
  s.timers.find? (fun t => t.key == k && t.n == n && t.coll == coll)
/-- Starts the timer of an instance of scope .P or .X at its first arrival. -/
def State.startTimer (s : State) (k : GroupKey) (n : BitVec 32) (coll : Bool) : State :=
  if (k.scope == .p || k.scope == .x) && (s.timerOf k n coll).isNone then { s with timers := s.timers ++ [⟨k, n, coll, 0, false⟩] } else s
/-- Ends the timer of an instance that completes. -/
def State.stopTimer (s : State) (k : GroupKey) (n : BitVec 32) (coll : Bool) : State :=
  { s with timers := s.timers.filter (fun t => !(t.key == k && t.n == n && t.coll == coll)) }
/-- Whether an instance has been aborted. -/
def State.instanceAborted (s : State) (k : GroupKey) (n : BitVec 32) (coll : Bool) : Bool :=
  match s.timerOf k n coll with
  | some t => t.aborted
  | none => false

end Sys2Proof.Machine
end

