-- ==== Sys2Proof/Machine/Memory.lean ====
section
/-! DEFINITION. Scalar and vector loads and stores, gather and scatter, and the atomics (R86, R87, R197 to R202). -/
namespace Sys2Proof

/-- The new value of an atomic over `n` bytes (R200, R201). -/
def AOp.apply (op : AOp) (n : Nat) (old v cmp : Nat) : Nat :=
  match op with
  | .add => (old + v) % 2 ^ (8 * n)
  | .min => if Num.signExt (8 * n) v < Num.signExt (8 * n) old then v else old
  | .max => if Num.signExt (8 * n) old < Num.signExt (8 * n) v then v else old
  | .and => old &&& v
  | .or => old ||| v
  | .xor => old ^^^ v
  | .xchg => v
  | .cas => if old = cmp then v else old

end Sys2Proof

namespace Sys2Proof.Machine

/-! Destinations of loads. -/

/-- Waits until a load's destination can take it: the register is not awaiting, or the queue has a slot (R87, R189). -/
def State.readyDest (s : State) (c : Nat) (d : BitVec 6) : Except Stop Unit :=
  if d.toNat < 32 then s.readyA c d.toNat else waitBlocked (s.qroom c (d.toNat - 32))

/-- Marks the register as awaiting, or reserves the slot (R87). -/
def State.takeDest (s : State) (c : Nat) (d : BitVec 6) : LoadDest × State :=
  if d.toNat < 32 then (.areg d.toNat, s.modTask c (·.setAwait d.toNat .load))
  else
    let r := s.reserve c (d.toNat - 32)
    (.slot (d.toNat - 32) r.1, r.2)

/-- Sets STAT.SLOW where an access stalls A for its class (R192). -/
def State.noteSlow (s : State) (c : Nat) (slow : Bool) : State := if slow then s.addStat c statSLOW else s

/-- A load of `n` bytes at an offset (R86, R197); a slow access holds A where `stalls` says so. -/
def loadThrough (i : Instr) (k : BitVec 4) (d o : BitVec 6) (offset : Word64 → Nat) (n : Nat) (stalls : Bool) (s : State) : Out :=
  settle s.cur .a s do
    legal i
    s.noVatom s.cur
    let x ← s.readA s.cur o.toNat
    s.readyDest s.cur d
    let h ← s.readK s.cur k
    let (ent, m, t) ← s.check s.cur h (offset x) n false
    let todo := match ent with
      | some e => t.pieces (t.task s.cur).ctx e (offset x) m
      | none => []
    let slow := stalls && t.isSlow s.cur ent
    let (dest, t) := (t.noteSlow s.cur slow).takeDest s.cur d
    return (t.startLoad s.cur ent todo dest slow).retire s.cur .a

/-- Offset of LDS and STS: (o + imm8 * 8) with bits [2:0] cleared (R86). -/
def wordOff (i : BitVec 8) (x : Word64) : Nat := offsetOf x (8 * i.toNat) / 8 * 8
/-- RowOff (R191). -/
def rowOff (i : BitVec 8) (x : Word64) : Nat := offsetOf x (256 * i.toNat) / 256 * 256

/-- LDS (R86, R87). -/
def execLds (k : BitVec 4) (d o : BitVec 6) (i : BitVec 8) (s : State) : Out :=
  loadThrough (.lds k d o i) k d o (wordOff i) 8 true s
/-- LDV (R197). -/
def execLdv (k : BitVec 4) (d o : BitVec 6) (i : BitVec 8) (s : State) : Out :=
  loadThrough (.ldv k d o i) k d o (rowOff i) 4096 true s
/-- LDQ (R197). -/
def execLdq (k : BitVec 4) (d o : BitVec 6) (i : BitVec 8) (s : State) : Out :=
  loadThrough (.ldq k d o i) k d o (rowOff i) 4096 false s

/-- STS (R86, R87): pops its queue even when the store is dropped. -/
def execSts (k : BitVec 4) (d o : BitVec 6) (i : BitVec 8) (s : State) : Out :=
  writeWord (.sts k d o i) s do
    s.noVatom s.cur
    let x ← s.readA s.cur o.toNat
    let h ← s.readK s.cur k
    let (v, t) ← s.readOp s.cur .a d
    let (ent, m, t) ← t.check s.cur h (wordOff i x) 8 true
    match ent with
    | none => return t.retire s.cur .a
    | some e => do
      return (← t.storeOrWake s.cur e (wordOff i x) m v.toNat true).afterWrite s.cur

/-- A store of one element as 16 rows (R197); `stalls` where CLASS 3 stalls A and sets STAT.SLOW (R192). -/
def storeThrough (i : Instr) (k : BitVec 4) (d o : BitVec 6) (im : BitVec 8) (stalls : Bool) (s : State) : Out :=
  writeWord i s do
    s.noVatom s.cur
    let x ← s.readA s.cur o.toNat
    let h ← s.readK s.cur k
    let (img, t) ← s.popVector s.cur (d.toNat - 32)
    let (ent, m, t) ← t.check s.cur h (rowOff im x) 4096 true
    match ent with
    | none => return t.retire s.cur .a
    | some e => do
      let appends := decide (0 < m) && !t.inWakeWindow s.cur e (rowOff im x) m
      let t := t.slowStore s.cur s.fresh (stalls && t.slowWrite s.cur e) appends
      return (← t.storeOrWake s.cur e (rowOff im x) m img.toNat false).afterWrite s.cur

/-- STV (R197). -/
def execStv (k : BitVec 4) (d o : BitVec 6) (i : BitVec 8) (s : State) : Out := storeThrough (.stv k d o i) k d o i true s
/-- STQ (R197). -/
def execStq (k : BitVec 4) (d o : BitVec 6) (i : BitVec 8) (s : State) : Out := storeThrough (.stq k d o i) k d o i false s

/-! Gather and scatter (R199). -/

/-- The parts of one lane's access, their bytes numbered from byte `at_` of the image. -/
def State.lanePieces (s : State) (c e off m at_ : Nat) : List Piece :=
  let x := s.entry (s.task c).ctx e
  x.pieces (s.entrySwz x) m off at_

/-- The entry that a handle reaches when it passes the checks that hold no lane back (R85). -/
def State.reaches (s : State) (c : Nat) (h : Word32) (wr : Bool) : Option Nat :=
  match s.tokenCheck (s.task c).ctx h 0 0 wr with
  | .done e _ _ => e
  | .held => none

/-- LDG (R199): one step for each lane. -/
def execLdg (k : BitVec 4) (d o : BitVec 6) (s : State) : Out :=
  settle s.cur .a s do
    legal (.ldg k d o)
    s.noVatom s.cur
    s.readyDest s.cur d
    let h ← s.readK s.cur k
    let (offs, t) ← s.popVector s.cur (o.toNat - 32)
    t.holdTest s.cur h
    let r := t.checkLanes s.cur h false (lanesOf offs)
    let ent := t.reaches s.cur h false
    let slow := t.isSlow s.cur ent
    let todo := r.1.flatMap (fun x => t.lanePieces s.cur x.2.2.2 x.2.1 x.2.2.1 (4 * x.1))
    let (dest, t) := ((t.addTks s.cur r.2).noteSlow s.cur slow).takeDest s.cur d
    return (t.startLoad s.cur ent todo dest slow).retire s.cur .a

/-- The byte ranges that lanes write, whose pages are logged (R170). -/
def laneRanges (l : List (Nat × Nat × Nat × Nat)) : List (Nat × Nat) := l.map (fun x => (x.2.1, x.2.2.1))

/-- Appends the entries of a scatter, ascending in lanes, counted in INFL as one access (R199). -/
def State.scatter (s : State) (c e : Nat) (data : Image) (l : List (Nat × Nat × Nat × Nat)) : Except Stop State := do
  let t := s.task c
  let ps := l.flatMap (fun x => s.lanePieces c e x.2.1 x.2.2.1 (4 * x.1))
  s.storeFree c e ps
  if ps.isEmpty then return s
  else s.owe c e (laneRanges l) (.stores (ps.map (storeOf t.ctx e s.fresh (s.entry t.ctx e).priv data.toNat)))

/-- Takes out the lanes whose bytes lie in a wake window, with TKS.PERM where there are any (R306). -/
def State.dropWakeLanes (s : State) (c : Nat) (l : List (Nat × Nat × Nat × Nat)) : List (Nat × Nat × Nat × Nat) × State :=
  let keep := l.filter (fun x => !s.inWakeWindow c x.2.2.2 x.2.1 x.2.2.1)
  (keep, if keep.length = l.length then s else s.addTks c tksPERM)

/-- STG (R199). -/
def execStg (k : BitVec 4) (d o : BitVec 6) (s : State) : Out :=
  writeWord (.stg k d o) s do
    s.noVatom s.cur
    let h ← s.readK s.cur k
    let (data, t) ← s.popVector s.cur (d.toNat - 32)
    let (offs, t) ← t.popVector s.cur (o.toNat - 32)
    t.holdTest s.cur h
    let r := t.checkLanes s.cur h true (lanesOf offs)
    let t := t.addTks s.cur r.2
    match t.reaches s.cur h true with
    | none => return t.retire s.cur .a
    | some e => do
      let (l, t) := t.dropWakeLanes s.cur r.1
      let appends := l.any (fun x => decide (0 < x.2.2.1))
      return (← (t.slowStore s.cur s.fresh (t.slowWrite s.cur e) appends).scatter s.cur e data l).afterWrite s.cur

/-! Scalar atomics (R200). -/

/-- Bytes of a scalar atomic: 4 where imm8[7] is set, else 8. -/
def atomicBytes (z : BitVec 1) : Nat := if z = 1#1 then 4 else 8
/-- Offset of a scalar atomic (R200). -/
def atomicOff (z : BitVec 1) (im : BitVec 7) (x : Word64) : Nat :=
  offsetOf x (8 * im.toNat) / atomicBytes z * atomicBytes z

/-- A scalar atomic (R200): checked and put in flight; with too few bytes inside, the result is 0 and no step is taken. -/
def scalarAtomic (i : Instr) (op : AOp) (k : BitVec 4) (d o : BitVec 6) (z : BitVec 1) (im : BitVec 7) (s : State) : Out :=
  writeWord i s do
    s.noVatom s.cur
    let x ← s.readA s.cur o.toNat
    let v ← s.readA s.cur d.toNat
    let cmp ← (if op = .cas then s.readA s.cur (d.toNat + 1) else .ok 0#64)
    let h ← s.readK s.cur k
    let n := atomicBytes z
    let off := atomicOff z im x
    let (ent, m, t) ← s.check s.cur h off n true
    match ent with
    | none => return (t.modTask s.cur (·.setAreg d.toNat 0#64)).retire s.cur .a
    | some e =>
      let slow := t.slowWrite s.cur e
      let t := t.noteSlow s.cur slow
      if m < n then return (t.modTask s.cur (·.setAreg d.toNat 0#64)).retire s.cur .a
      else if t.inWakeWindow s.cur e off n then
        return ((t.addTks s.cur tksPERM).modTask s.cur (·.setAreg d.toNat 0#64)).retire s.cur .a
      else do
        let f : AtomicFlight := ⟨t.fresh, e, t.pieces (t.task s.cur).ctx e off n, op, n, v, cmp, d.toNat, slow⟩
        return (← t.owe s.cur e [(off, n)] (.atomic f)).afterWrite s.cur

/-- AADD (R200). -/
def execAadd (k : BitVec 4) (d o : BitVec 6) (z : BitVec 1) (i : BitVec 7) (s : State) : Out :=
  scalarAtomic (.aadd k d o z i) .add k d o z i s
/-- AMIN (R200). -/
def execAmin (k : BitVec 4) (d o : BitVec 6) (z : BitVec 1) (i : BitVec 7) (s : State) : Out :=
  scalarAtomic (.amin k d o z i) .min k d o z i s
/-- AMAX (R200). -/
def execAmax (k : BitVec 4) (d o : BitVec 6) (z : BitVec 1) (i : BitVec 7) (s : State) : Out :=
  scalarAtomic (.amax k d o z i) .max k d o z i s
/-- AAND (R200). -/
def execAand (k : BitVec 4) (d o : BitVec 6) (z : BitVec 1) (i : BitVec 7) (s : State) : Out :=
  scalarAtomic (.aand k d o z i) .and k d o z i s
/-- AOR (R200). -/
def execAor (k : BitVec 4) (d o : BitVec 6) (z : BitVec 1) (i : BitVec 7) (s : State) : Out :=
  scalarAtomic (.aor k d o z i) .or k d o z i s
/-- AXOR (R200). -/
def execAxor (k : BitVec 4) (d o : BitVec 6) (z : BitVec 1) (i : BitVec 7) (s : State) : Out :=
  scalarAtomic (.axor k d o z i) .xor k d o z i s
/-- AXCHG (R200). -/
def execAxchg (k : BitVec 4) (d o : BitVec 6) (z : BitVec 1) (i : BitVec 7) (s : State) : Out :=
  scalarAtomic (.axchg k d o z i) .xchg k d o z i s
/-- ACAS (R200). -/
def execAcas (k : BitVec 4) (d o : BitVec 6) (z : BitVec 1) (i : BitVec 7) (s : State) : Out :=
  scalarAtomic (.acas k d o z i) .cas k d o z i s

/-! Vector atomics (R201, R202). -/

/-- A vector atomic (R201): its lanes are checked and put in flight, to step in ascending order. -/
def vectorAtomic (i : Instr) (op : AOp) (fp : Bool) (k : BitVec 4) (d o : BitVec 6) (s : State) : Out :=
  writeWord i s do
    s.noVatom s.cur
    let h ← s.readK s.cur k
    let (data, t) ← s.popVector s.cur (d.toNat - 32)
    let (offs, t) ← t.popVector s.cur (o.toNat - 32)
    t.holdTest s.cur h
    let r := t.checkLanes s.cur h true (lanesOf offs)
    let t := t.addTks s.cur r.2
    match t.reaches s.cur h true with
    | none => return t.retire s.cur .a
    | some e => do
      let slow := t.slowWrite s.cur e
      let (l, t) := (t.noteSlow s.cur slow).dropWakeLanes s.cur (r.1.filter (fun x => x.2.2.1 == 4))
      if l.isEmpty then return t.retire s.cur .a
      else
        let lanes := l.map (fun x => (t.lanePieces s.cur e x.2.1 4 0, (BitVec.ofNat 32 (lane data x.1) : Word32)))
        return (← t.owe s.cur e (laneRanges l) (.vatom ⟨t.fresh, e, lanes, op, fp, slow⟩)).afterWrite s.cur

/-- VAADD (R201). -/
def execVaadd (k : BitVec 4) (d o : BitVec 6) (f : BitVec 1) (s : State) : Out :=
  vectorAtomic (.vaadd k d o f) .add (f == 1#1) k d o s
/-- VAOR (R201). -/
def execVaor (k : BitVec 4) (d o : BitVec 6) (s : State) : Out := vectorAtomic (.vaor k d o) .or false k d o s
/-- VAMIN (R201). -/
def execVamin (k : BitVec 4) (d o : BitVec 6) (f : BitVec 1) (s : State) : Out :=
  vectorAtomic (.vamin k d o f) .min (f == 1#1) k d o s
/-- VAMAX (R201). -/
def execVamax (k : BitVec 4) (d o : BitVec 6) (f : BitVec 1) (s : State) : Out :=
  vectorAtomic (.vamax k d o f) .max (f == 1#1) k d o s

/-! The steps of accesses in flight (R175, R176, R198, R201). -/

/-- Whether the task on a core is being saved or has issued an ending word: its private entries drain too (R179). -/
def State.drainsPrivate (s : State) (c : Nat) : Bool :=
  (match (s.core c).mode with
   | .save _ => true
   | .idle | .run | .restore | .stopped => false) || s.endIssued c

/-- Whether a pending entry must go home although it is private (R164, R179): at the events of R179, and while its PET entry is
QUIESCING. -/
def State.mustDrain (s : State) (c : Nat) (e : Store) : Bool :=
  !e.priv || s.drainsPrivate c || (s.entry e.ctx e.ent).state == .quiescing

/-- Whether entry `i` of a task's pending set may drain (R164, R174, R177, R179, R307): no older entry names its row; a wake entry is the
oldest, and every earlier access has taken its steps; a private one only where it must, or where an entry that must go home waits behind
it for its row (log 72). -/
def State.mayDrain (s : State) (c i : Nat) (e : Store) : Bool :=
  let l := (s.task c).stores
  !(l.take i).any (fun x => sameRow x.row e.row) && (e.wake.isNone || (decide (i = 0) && !(s.task c).busyBefore e.acc))
    && (s.mustDrain c e || (l.drop (i + 1)).any (fun x => s.mustDrain c x && sameRow x.row e.row))

/-- PENDING_ENTRY_DRAIN (R174): entry `i` goes home in one step, where it may. -/
def execPendingEntryDrain (core i : Nat) (s : State) : Out :=
  let l := (s.task core).stores
  match l[i]? with
  | none => .next s
  | some e =>
    if s.mayDrain core i e then
      let keep := removeAt l i
      .next ((s.modTask core (fun t => { t with stores := keep })).drainStore keep e)
    else .next s

/-- LOAD_READ_STEP (R175): load `i` reads its next row, after earlier accesses of that row through its token (R190). -/
def execLoadReadStep (core i : Nat) (s : State) : Out :=
  let t := s.task core
  match t.loads[i]? with
  | none => .next s
  | some f =>
    match f.todo with
    | [] => .next s
    | p :: ps =>
      if t.rowBusy (f.ent.getD 0) p.row f.acc then .next s
      else
        let f' := { f with todo := ps, got := s.readPiece t.stores p f.got }
        .next (s.setTask core { t with loads := modifyAt t.loads i (fun _ => f') })

/-- LOAD_DATA_ARRIVAL (R87, R198): a load whose rows are all read writes its register or fills its slot. -/
def execLoadDataArrival (core i : Nat) (s : State) : Out :=
  let t := s.task core
  match t.loads[i]? with
  | none => .next s
  | some f =>
    if f.todo.isEmpty then
      let s := s.setTask core { t with loads := removeAt t.loads i }
      let s := match f.ent with
        | some e => s.lowerInfl t.ctx e
        | none => s
      match f.dest with
      | .areg n => .next (s.modTask core (·.setAreg n (f.got.setWidth 64)))
      | .slot q j => .next (s.fillSlot core q j f.got)
    else .next s

/-- The little-endian number at home in the bytes of an element. -/
def State.homeNat (s : State) (ps : List Piece) : Nat :=
  natOf (ps.flatMap (fun p => p.bytes.map (fun b => s.homeByte b.2)))

/-- Writes a number home in the bytes of an element. -/
def State.writeElement (s : State) (ps : List Piece) (v : Nat) : State :=
  s.writeCells (ps.flatMap (fun p => p.bytes.map (fun b => (b.2, BitVec.ofNat 8 (v / 2 ^ (8 * b.1))))))

/-- Drains every pending entry of a core's task for the rows of an element (R176). -/
def State.drainRows (s : State) (c : Nat) (ps : List Piece) : State :=
  s.drainWhere c (fun e => ps.any (fun p => sameRow p.row e.row))

/-- The step of a scalar atomic of the task on a core, the `i`th in flight (R176, R200): it drains the row, reads, writes home and returns
the old value. -/
def State.atomicStep (s : State) (core i : Nat) (f : AtomicFlight) : State :=
  let t := s.task core
  let s := (s.setTask core { t with atomics := removeAt t.atomics i }).drainRows core f.parts
  let old := s.homeNat f.parts
  let new := f.op.apply f.bytes old (f.v.toNat % 2 ^ (8 * f.bytes)) (f.cmp.toNat % 2 ^ (8 * f.bytes))
  -- a compare that fails writes nothing
  let s := if f.op = .cas ∧ old ≠ f.cmp.toNat % 2 ^ (8 * f.bytes) then s else s.writeElement f.parts new
  let s := s.lowerInfl t.ctx f.ent
  s.modTask core (·.setAreg f.d (BitVec.ofInt 64 (Num.signExt (8 * f.bytes) old)))

/-- ATOMIC_STEP (R176, R200), after earlier accesses of its rows (R190, R253). -/
def execAtomicStep (core i : Nat) (s : State) : Out :=
  let t := s.task core
  match t.atomics[i]? with
  | none => .next s
  | some f => if f.parts.any (fun p => t.rowBusy f.ent p.row f.acc) then .next s else .next (s.atomicStep core i f)

/-- The new value of one lane of a vector atomic, with its VST events (R201). -/
def laneAtomic (op : AOp) (fp : Bool) (old x : Nat) : Nat × Num.Ev :=
  if fp then
    let a := Num.decodeF Num.binary32 old
    let b := Num.decodeF Num.binary32 x
    match op with
    | .min => Num.fpEnc Num.binary32 (Num.minF a b)
    | .max => Num.fpEnc Num.binary32 (Num.maxF a b)
    | _ => Num.fpEnc Num.binary32 (Num.addF a b)
  else (op.apply 4 old x 0, .none)

/-- The step of the lowest lane of a vector atomic that has not stepped (R176, R201): its access is over after the last. -/
def State.laneStep (s : State) (core : Nat) (f : VatomFlight) : State :=
  match f.lanes with
  | [] => s.modTask core (fun t => { t with vatom := none })
  | (ps, x) :: r =>
    let v := if r.isEmpty then none else some { f with lanes := r }
    let s := (s.modTask core (fun t => { t with vatom := v })).drainRows core ps
    let w := laneAtomic f.op f.fp (s.homeNat ps) x.toNat
    let s := (s.writeElement ps w.1).addVst core w.2
    if r.isEmpty then s.lowerInfl (s.task core).ctx f.ent else s

/-- VECTOR_ATOMIC_LANE_STEP (R176, R201, R202): the lowest lane that has not stepped, after earlier accesses of its row (R190, R253). -/
def execVectorAtomicLaneStep (core : Nat) (s : State) : Out :=
  let t := s.task core
  match t.vatom with
  | none => .next s
  | some f => if f.lanes.head?.any (fun l => l.1.any (fun p => t.rowBusy f.ent p.row f.acc)) then .next s else .next (s.laneStep core f)

/-- The scalar atomics in execution are completed in order, where a trap of its kernel stops the task (R32). -/
def State.finishAtomics (s : State) (core : Nat) : State := (s.task core).atomics.foldl (fun s f => s.atomicStep core 0 f) s

/-- A QFLUSH in execution goes on as far as its queue has room, where a trap of its kernel stops the task (R28, R32) (log 100). -/
def State.finishFlush (s : State) (core : Nat) (d : Side) : State :=
  match (s.seq core d).flushing with
  | none => s
  | some n => (List.range 3).foldl (fun s _ =>
    if ((s.task core).queue n).g = 0 then s
    else match s.pushVector core n 0#32768 with
      | .ok t => t
      | .error _ => s) s

/-- A vector atomic in execution is completed, where a trap of its kernel stops the task (R32). -/
def State.finishLanes (s : State) (core : Nat) : State :=
  match (s.task core).vatom with
  | none => s
  | some f => f.lanes.foldl (fun s _ => match (s.task core).vatom with
    | some f => s.laneStep core f
    | none => s) s

end Sys2Proof.Machine
end

