-- ==== Sys2Proof/Machine/Records.lean ====
section
/-! DEFINITION. Continuation records in the ready rings (R111 to R113), SPAWN and JOIN (R120, R121, R144). -/
namespace Sys2Proof.Machine

/-- Whether a record passes the check of a push in a context (R112). -/
def State.recordOk (s : State) (ctx : Nat) (r : Rec) : Bool :=
  match s.kernel (kernelKey ctx r.kid) with
  | some k => k.ctx == ctx && decide (r.entry < k.textLen) && !r.isImage && !r.w0.getLsbD 63 && r.w3.extractLsb' 40 24 == 0#24
  | none => false

/-- Whether a record stands in a ring of a partition, die and level; one on a fault list or held for room stands in none (R113, R264). -/
def RingRec.inRing (x : RingRec) (part die level : Nat) : Bool :=
  x.part == part && x.die == die && x.level == level && (match x.place with | .fault .. | .held | .awaited .. => false | .ring | .offered _ | .moving .. => true)

/-- The records of a ring, head first. -/
def State.ring (s : State) (part die level : Nat) : List RingRec := s.records.filter (fun x => x.inRing part die level)

/-- How many records a ring holds at most (R113, R325): each ring of each die has a capacity of its own. -/
def State.ringCap (s : State) (part die level : Nat) : Nat :=
  let n := 2 ^ ((s.partOf part).ringLog[4 * die + level]?.getD 10)
  if s.device.stage = .reduced then min n 1024 else n

/-- Whether a ring has room for `n` more records. -/
def State.ringRoom (s : State) (part die level n : Nat) : Bool := decide ((s.ring part die level).length + n ≤ s.ringCap part die level)

/-- Whether the rings of a partition keep within the 1,024 records that REDUCED allows (R325). -/
def State.ringsFit (s : State) (part : Nat) : Bool :=
  s.device.stage != .reduced || (List.range 32).all (fun j => decide ((s.ring part (j / 4) (j % 4)).length ≤ 1024))

/-- A record as it enters a ring: PART and STAMP written by the hardware (R111, R112). -/
def State.ringRec (s : State) (part ctx die : Nat) (group : Option Nat) (r : Rec) : RingRec where
  id := s.fresh
  record := (r.inPart part).stamped s.cyc
  part := part
  ctx := ctx
  die := die
  level := r.prio
  stamp := s.cyc.setWidth 40
  img := []
  group := group
  place := .ring
  headSince := none
  claim := []
  offer := none

/-- Pushes a record to the tail of its ring (R113). -/
def State.pushRecord (s : State) (part ctx die : Nat) (group : Option Nat) (r : Rec) : State :=
  { s with records := s.records ++ [s.ringRec part ctx die group r], fresh := s.fresh + 1 }

/-- Whether the ring that the task on a core pushes a record to has room. -/
def State.pushRoom (s : State) (c : Nat) (r : Rec) : Bool := s.ringRoom (s.task c).part (c / 64) r.prio 1

/-- The task on a core pushes a record, where its ring has room; else the record is held (R113). -/
def State.pushOrHold (s : State) (c : Nat) (r : Rec) : State :=
  if s.pushRoom c r then
    (s.modTask c (fun t => { t with push := none })).pushRecord (s.task c).part (s.task c).ctx (c / 64) none r
  else s.modTask c (fun t => { t with push := some r })

/-- Pushes a held record and completes the word that holds it; stalls while the ring is full. -/
def State.pushHeld (s : State) (c : Nat) (r : Rec) : Run :=
  if s.pushRoom c r then return (s.pushOrHold c r).retire c .a else throw (.stall false)

/-- The word completes where its record is in the ring, and goes on where it is held. -/
def State.afterPush (s : State) (c : Nat) : State :=
  if (s.task c).push.isNone then s.retire c .a else s.setSeq c .a { s.seq c .a with blocked := false }

/-- The record in 32 bytes of an image from byte `i` on. -/
def recOf (img : Image) (i : Nat) : Rec :=
  ⟨img.extractLsb' (8 * i) 64, img.extractLsb' (8 * i + 64) 64, img.extractLsb' (8 * i + 128) 64, img.extractLsb' (8 * i + 192) 64⟩

/-- SPAWN (R120, R144): the record read stands when the check raises 0x11 (R32). -/
def execSpawn (k : BitVec 4) (o : BitVec 6) (i : BitVec 8) (s : State) : Out :=
  settle s.cur .a s do
    legal (.spawn k o i)
    match (s.task s.cur).push with
    | some r => s.pushHeld s.cur r
    | none => do
      s.noVatom s.cur
      let x ← s.readA s.cur o.toNat
      let h ← s.readK s.cur k
      let off := offsetOf x (32 * i.toNat) / 32 * 32
      let (ent, m, t) ← s.check s.cur h off 32 false
      match ent with
      | none => return t.retire s.cur .a
      | some e =>
        if m < 32 then return t.retire s.cur .a
        else do
          s.rowsFree s.cur e (s.pieces (s.task s.cur).ctx e off 32)
          let r := recOf (t.readNow s.cur e off 32) 0
          if s.recordOk (s.task s.cur).ctx r then return (t.pushOrHold s.cur r).afterPush s.cur
          else throw (.trap 0x11#8 (some t))

/-- A JOIN's access has completed at home: it is in flight no longer, and A owes nothing (R161, R189). -/
def State.joinHome (s : State) (c ent : Nat) : State :=
  let s := (s.lowerInfl (s.task c).ctx ent).modTask c (fun t => { t with owed := none })
  if (s.partOf (s.task c).part).dirtyHeld.contains c then s.unhold (s.task c).part [c] else s

/-- The counter of a join block, one lower. -/
def State.joinLower (s : State) (c ent off : Nat) (n : Word64) : State :=
  s.writeCells ((s.pieces (s.task c).ctx ent off 8).flatMap
    (fun p => p.bytes.map (fun b => (b.2, BitVec.ofNat 8 ((n - 1#64).toNat / 2 ^ (8 * b.1))))))

/-- The step of a JOIN on a join block (R121): with a counter above zero its page is logged, or owed (R170, R189), the counter falls,
and at zero the record is pushed; the decrement stands when the check of the record raises 0x11 (R32). -/
def State.joinStep (s : State) (c ent off : Nat) : Run := do
  let img := s.readNow c ent off 64
  let n : Word64 := img.setWidth 64
  if n.toInt ≤ 0 then return ((s.joinHome c ent).addStat c statJNEG).retire c .a
  else do
    let (t, left) ← s.logRanges (s.task c).part c (s.task c).ctx ent [(off, 8)]
    if !left.isEmpty then
      return (t.modTask c (fun t => { t with owed := some ⟨s.fresh, ent, left, .join off⟩ })).afterWrite c
    else
      let t := (t.joinLower c ent off n).joinHome c ent
      if n ≠ 1#64 then return t.retire c .a
      else
        let r := recOf img 32
        if s.recordOk (s.task c).ctx r then return (t.pushOrHold c r).afterPush c
        else throw (.trap 0x11#8 (some t))

/-- JOIN (R121, R144): it drains the pending set, after the task's earlier atomics (R253), and makes its step. -/
def execJoin (k : BitVec 4) (o : BitVec 6) (i : BitVec 8) (s : State) : Out :=
  settle s.cur .a s do
    legal (.join k o i)
    match (s.task s.cur).push, (s.task s.cur).owed with
    | some r, _ => s.pushHeld s.cur r
    | none, some ⟨_, ent, _, .join off⟩ => s.joinStep s.cur ent off
    | none, _ => do
      s.noVatom s.cur
      let x ← s.readA s.cur o.toNat
      let h ← s.readK s.cur k
      waitFor (s.task s.cur).atomics.isEmpty
      s.drainReady s.cur
      let off := offsetOf x (8 * i.toNat) / 64 * 64
      let (ent, m, t) ← (s.drainAll s.cur).check s.cur h off 64 true
      match ent with
      | none => return t.retire s.cur .a
      | some e =>
        if m < 64 then return t.retire s.cur .a
        else if s.inWakeWindow s.cur e off 64 then return (t.addTks s.cur tksPERM).retire s.cur .a
        else do
          s.rowsFree s.cur e (s.pieces (s.task s.cur).ctx e off 64)
          (t.raiseInfl (t.task s.cur).ctx e).joinStep s.cur e off

end Sys2Proof.Machine
end

