-- ==== Sys2Proof/Machine/Tokens.lean ====
section
/-! DEFINITION. Translation (R157 to R159, R193), TQRY, KMOV and RELQ (R194 to R196), and nameless stores with Sillage (R168, R169,
R203, R204). -/
namespace Sys2Proof.Machine

/-! The page-table walk (R157, R158). -/

/-- A page as a walk finds it. -/
structure Page where
  frame : Frame
  tier : Nat
  cls : Nat
  cmp : Bool
  r : Bool
  w : Bool
deriving DecidableEq, Repr

/-- What a walk comes to. -/
inductive Walked where
  | page (p : Page)
  | miss
  | malformed
deriving DecidableEq, Repr

/-- Whether a range lies inside one of a list of ranges. -/
def inRanges (l : List (Nat × Nat)) (a n : Nat) : Bool := l.any (fun r => decide (r.1 ≤ a) && decide (a + n ≤ r.1 + r.2))

/-- The anonymous regions of an ownership as physical ranges (R168). -/
def anonRanges (o : Ownership) : List (Nat × Nat) := o.anon.map (fun r => (nearLocal r.1 + 4096 * r.2.1, 4096 * r.2.2))

/-- First frame index of tier 3 that names host memory (R156, log 4). -/
def hostIndex : Nat := 2 ^ 47

/-- Where the frame of a tier 3 leaf stands, by its index, as a partition reaches it (R156, R158, R306, R315): this package's wake window, host
memory, or another package (log 4). -/
def windowAt (part index : Nat) : Nat :=
  if index = 0 then Config.wakeBase + 65536 * part
  else if hostIndex ≤ index then Config.hostBase + (index - hostIndex)
  else Config.remoteBase + index

/-- Whether a partition may map a tier 3 range (R306, R315): a wake window as a whole, and only where the partition has wake registers in
it; of other remote windows, those that it owns. -/
def State.windowOk (s : State) (part a n : Nat) : Bool :=
  let p := s.partOf part
  if Config.wakeBase ≤ a then n == 65536 && !p.own.wakeRegs.isEmpty
  else if a < Config.remoteBase + windowEnd then n == 65536 && p.packages.contains ((a - Config.remoteBase) / 65536 - 1)
  else inRanges p.own.ranges a n

/-- Whether a page's frame lies in the memory that its tier names and in what a partition owns (R158, R315). -/
def State.frameOk (s : State) (part tier a n : Nat) : Bool :=
  let o := (s.partOf part).own
  match place s.nstr a, place s.nstr (a + n - 1) with
  | some (.pool c _), some (.pool c' _) => tier == 0 && c == c' && o.quads.contains (quadOf c)
  | some (.near ..), some (.near ..) => tier == 1 && (inRanges o.ranges a n || inRanges (anonRanges o) a n)
  | some (.far ..), some (.far ..) => tier == 2 && inRanges o.ranges a n
  | some (.host _), some (.host _) => tier == 3 && inRanges o.ranges a n
  | some (.remote _), some (.remote _) => tier == 3 && s.windowOk part a n
  | _, _ => false

/-- Reads a leaf entry found at an address (R158). -/
def State.leafAt (s : State) (part a : Nat) (e : BitVec 64) (level : Nat) : Walked :=
  let size := if level = 3 then 2 ^ 21 else 2 ^ 16
  let tier := (fld e 7 2).toNat
  let cls := (fld e 5 2).toNat
  let swz := (fld e 12 3).toNat
  let bit (i : Nat) := e.getLsbD i
  let index := 2 ^ 16 * (fld e 16 32).toNat
  let phys := if tier = 3 then windowAt part index else index
  let wake := tier == 3 && decide (index < windowEnd)
  if level < 3 || fld e 48 16 != 0#16 || bit 15 || cls != (if tier ≤ 1 then 1 else tier) || (bit 11 && tier != 2)
      || (bit 3 && tier == 2) || (swz != 0 && tier != 0) || (level == 3 && fld e 16 5 != 0#5) || !s.frameOk part tier phys size then .malformed
  else if s.device.stage = .reduced ∧ (tier = 1 ∨ tier = 2) then .miss
  else .page ⟨⟨size, phys, bit 9, swz, some a, wake, bit 10⟩, tier, cls, bit 11, bit 2, bit 3⟩

/-- A page-table entry as the walker reads it: a pointer that the page-walk cache was given may still come from it (R158, log 22). -/
def State.tableEntry (s : State) (x : Context) (a : Nat) : BitVec 64 × State :=
  let m : BitVec 64 := BitVec.ofNat 64 (s.readNat a 8)
  match NMap.get x.pwc a with
  | some v => if v = m then (m, s) else (if Config.pwcHit s.free then v else m, { s with free := s.free + 1 })
  | none => (m, s)

/-- Walks from level `level` down, `fuel` levels at most: the table at `table`, the low 48 bits of the address (R158). -/
def State.walkFrom (s : State) (ctx part va : Nat) : Nat → Nat → Nat → Walked × State
  | 0, _, _ => (.malformed, s)
  | fuel + 1, level, table =>
    let i := if level = 4 then va / 2 ^ 16 % 32 else va / 2 ^ (48 - 9 * level) % 512
    let a := table + 8 * i
    match NMap.get s.contexts ctx with
    | none => (.miss, s)
    | some x =>
      let (e, s) := s.tableEntry x a
      if !e.getLsbD 0 then (.miss, s)
      else if e.getLsbD 1 then (s.leafAt part a e level, s)
      else if level = 4 || fld e 2 6 != 0#6 || fld e 48 16 != 0#16 then (.malformed, s)
      else
        let s := s.modContext ctx (fun x => { x with pwc := NMap.set x.pwc a e })
        State.walkFrom s ctx part va fuel (level + 1) (256 * (fld e 8 40).toNat)

/-- The page of a constant extent that an address of the device-managed half lies in (R52, R333, log 7). -/
def State.constPage (s : State) (ctx va : Nat) : Option Page :=
  match s.kernels.find? (fun k => decide (k.2.ctx = ctx) && decide (k.2.constVa.toNat ≤ va) && decide (va < k.2.constVa.toNat + k.2.constLen)) with
  | some (_, k) =>
    let p := (va - k.constVa.toNat) / 2 ^ 16
    let size := min (2 ^ 16) (k.constLen - 2 ^ 16 * p)
    some ⟨⟨size, k.constAt + 2 ^ 16 * p, false, 0, none, false, false⟩, 1, 1, false, true, false⟩
  | none => none

/-- Walks the page that holds a virtual address (R157, R158); a constant extent is tier 1, which REDUCED misses (R325). -/
def State.walk (s : State) (ctx part va : Nat) : Walked × State :=
  match s.constPage ctx va, NMap.get s.contexts ctx with
  | some p, _ => (if s.device.stage = .reduced then .miss else .page p, s)
  | none, some x => s.walkFrom ctx part (va % 2 ^ 48) 4 1 (if va < 2 ^ 63 then x.hostRoot else x.devRoot)
  | none, none => (.miss, s)

/-- Whether a miss in REDUCED is of its making alone (R325): in FULL the walk finds the page. -/
def State.stageMiss (s : State) (reduced : Bool) (ctx part va : Nat) : Bool :=
  reduced && (match ({ s with device := { s.device with stage := .full } }.walk ctx part va).1 with
    | .page _ => true
    | .miss | .malformed => false)

/-- Position of an address in its page. -/
def Page.skip (p : Page) (va : Nat) : Nat := if p.frame.size = 2 ^ 21 then va % 2 ^ 21 else va % 2 ^ 16

/-- Extends a grant page by page (R159, step 2 and 3, R193): pages so far, bytes granted. -/
def State.extend (s : State) (ctx part va len : Nat) (first : Page) : Nat → List Frame → Nat → Except Stop (List Frame × Nat × State)
  | 0, fs, g => .ok (fs, g, s)
  | fuel + 1, fs, g =>
    -- whatever page comes next, the grant would exceed 2^32 bytes, or the half, or the length asked for
    if len ≤ g ∨ 2 ^ 32 < g + min (2 ^ 16) (len - g) ∨ 2 ^ 48 ≤ va % 2 ^ 48 + g then .ok (fs, g, s)
    else
      match s.walk ctx part (va + g) with
      | (.miss, _) => .error (.trap 0x10#8 none)
      | (.malformed, _) => .error (.trap 0x13#8 none)
      | (.page p, s') =>
        let more := min (p.frame.size - p.skip (va + g)) (len - g)
        if p.tier != first.tier || p.cls != first.cls || p.cmp != first.cmp || p.r != first.r || p.w != first.w
            || decide (2 ^ 32 < g + more) then .ok (fs, g, s')
        else State.extend s' ctx part va len first fuel (fs ++ [p.frame]) (g + more)

/-- The whole walk of a translation (R159): the first page's checks, then the grant, which holds what is asked of that page. -/
def State.translate (s : State) (ctx part va len : Nat) (wr : Bool) : Except Stop (Page × List Frame × Nat × State) :=
  match s.walk ctx part va with
  | (.miss, _) => .error (.trap 0x10#8 none)
  | (.malformed, _) => .error (.trap 0x13#8 none)
  | (.page p, s') =>
    if !p.r || (wr && !p.w) then .error (.trap 0x12#8 none)
    else do
      let (fs, g, s') ← s'.extend ctx part va len p (2 ^ 16 + 2) [p.frame] (min (p.frame.size - p.skip va) len)
      return (p, fs, g, s')

/-! Entries (R160 to R162, R164, R193). -/

/-- The free entry with the lowest index, at least 1 (R160); `fuel` bounds the search by the entries in use. -/
def Context.freeFrom (x : Context) : Nat → Nat → Option Nat
  | 0, _ => none
  | fuel + 1, i => if x.petSize ≤ i then none else if (x.entry i).state = .free then some i else Context.freeFrom x fuel (i + 1)

/-- The free entry that an allocation takes (R160). -/
def State.freeEntry (s : State) (ctx : Nat) : Option Nat :=
  match NMap.get s.contexts ctx with
  | some x => x.freeFrom (x.pet.length + 2) 1
  | none => none

/-- Runs of the frame-list area in use: first word and length; a run returns when its entry becomes FREE (R193) (log 37). -/
def Context.listRuns (x : Context) : List (Nat × Nat) :=
  x.pet.filterMap (fun e =>
    if e.2.origin = .translated ∧ e.2.state ≠ .free ∧ e.2.frames.length ≠ 0 then some (e.2.base, e.2.frames.length) else none)

/-- The lowest run of `n` free words in the frame-list area (R193): it starts at 0 or behind a run in use. -/
def Context.listRoom (x : Context) (n : Nat) : Option Nat :=
  let used := x.listRuns
  let fits (a : Nat) : Bool := decide (a + n ≤ x.listCap) && used.all (fun r => decide (a + n ≤ r.1) || decide (r.1 + r.2 ≤ a))
  (0 :: used.map (fun r => r.1 + r.2)).foldl (fun best a =>
    if fits a then (match best with | none => some a | some b => some (min a b)) else best) none

/-- Whether an entry is in use. -/
def PetEntry.inUse (e : PetEntry) : Bool :=
  match e.state with
  | .active | .quiescing | .held | .dead => true
  | .free | .freeing | .quarantined => false

/-- Applies the free event to an entry (R164): the generation rises at once, or the free is recorded. -/
def PetEntry.free (e : PetEntry) : PetEntry :=
  match e.state with
  | .active | .dead => { e with state := .freeing, gen := e.gen + 1#12 }
  | .quiescing | .held => { e with freeLater := true }
  | .free | .freeing | .quarantined => e

/-- Whether an engine of a core holds an access at an entry (R165): a sequencer, the copy engine, the array, a save or restore, or a
collective that has not been read. What a dead kernel's task held is discarded (R164). -/
def Core.holdsAt (x : Core) (p : Nat × Nat) : Bool :=
  x.chains.any (fun h => h.held == some p)
    || (x.mode == .run && (x.task.seqA.held == some p || x.task.seqX.held == some p))
    || (x.holdsTask && x.mode != .stopped && (x.task.mheld == some p || x.task.cq.any (fun k => !k.read && k.held == some p)))
    || (x.mode != .run && x.mode != .stopped && x.held == some p)

/-- Whether any issuing engine of the package holds an access at an entry (R165). -/
def State.accessHeld (s : State) (ctx entry : Nat) : Bool :=
  s.cores.any (fun x => x.2.holdsAt (ctx, entry)) || s.collectives.any (fun x => x.held == some (ctx, entry))
    || s.graphs.any (fun g => g.2.nodes.any (fun n => n.busy && n.held == some (ctx, entry)))

/-- The free event of an entry (R164). An access that an engine still holds there after the refresh or the kill resumes first (R165): the
free is recorded until then (log 50). -/
def State.freed (s : State) (ctx i : Nat) (e : PetEntry) : PetEntry :=
  if (e.state = .active ∨ e.state = .dead) ∧ s.accessHeld ctx i then { e with freeLater := true } else e.free

/-- TRANS (R193): walks, pins, and returns a token and the granted length; `o` is written last. -/
def execTrans (k : BitVec 4) (d o : BitVec 6) (p w : BitVec 1) (s : State) : Out :=
  settle s.cur .a s do
    legal (.trans k d o p w)
    let va ← s.readA s.cur d.toNat
    let len ← s.readA s.cur o.toNat
    waitFor (!(s.task s.cur).awaitsName k)
    let t := s.task s.cur
    require (fld va 48 15 == 0#15) 0x12#8
    if len = 0#64 then return (s.modTask s.cur (fun t => t.writeK k 0#32)).retire s.cur .a
    else do
      let (page, fs, g, u) ← s.translate t.ctx t.part va.toNat len.toNat (w == 1#1)
      let none_ := ((u.addTks s.cur tksPETX).modTask s.cur (fun t => (t.writeK k 0#32).setAreg o.toNat 0#64)).retire s.cur .a
      match NMap.get u.contexts t.ctx, u.freeEntry t.ctx with
      | some x, some i =>
        match x.listRoom fs.length with
        | some run =>
          let gen := (x.entry i).gen
          let e : PetEntry := ⟨.active, .translated, true, w == 1#1, p == 1#1, page.cmp, page.cls, page.tier, gen, t.kid, 0, g, fs, run, 0, va, t.uid, false⟩
          let u := u.setEntry t.ctx i e
          return (u.modTask s.cur (fun t => (t.writeK k (handleOf gen i)).setAreg o.toNat (BitVec.ofNat 64 g))).retire s.cur .a
        | none => return none_
      | _, _ => return none_

/-- The property that TQRY reads of a valid handle (R194). -/
def State.query (s : State) (ctx : Nat) (h : Word32) (sel : Nat) : Word64 :=
  let i := handleIndex h
  let e := s.entry ctx i
  let live := e.state == .active || e.state == .quiescing || e.state == .held
  if i = 0 || !s.inTable ctx i || e.gen != handleGen h || !live then BitVec.allOnes 64
  else
    match sel with
    | 0 => BitVec.ofNat 64 e.len
    | 1 => BitVec.ofNat 64 e.cls
    | 2 => BitVec.ofNat 64 e.tier
    | _ => BitVec.ofNat 64 ((if e.r then 1 else 0) + (if e.w then 2 else 0) + (if e.priv then 4 else 0) + (if e.cmp then 8 else 0)
        + 16 * (match e.origin with | .translated => 0 | .anonymous => 1 | .scratchpad => 2))

/-- TQRY (R194). -/
def execTqry (k : BitVec 4) (d : BitVec 6) (fs : BitVec 8) (s : State) : Out :=
  settle s.cur .a s do
    legal (.tqry k d fs)
    let h ← s.readK s.cur k
    s.readyA s.cur d.toNat
    return (s.modTask s.cur (·.setAreg d.toNat (s.query (s.task s.cur).ctx h fs.toNat))).retire s.cur .a

/-- KMOV (R195): into k, behind earlier names and without stalling; or out of k. -/
def execKmov (k : BitVec 4) (d : BitVec 6) (r : BitVec 1) (s : State) : Out :=
  settle s.cur .a s do
    legal (.kmov k d r)
    if r = 0#1 then do
      let x ← s.readA s.cur d.toNat
      return (s.modTask s.cur (fun t => t.writeK k (x.setWidth 32))).retire s.cur .a
    else do
      let h ← s.readK s.cur k
      s.readyA s.cur d.toNat
      return (s.modTask s.cur (·.setAreg d.toNat (h.setWidth 64))).retire s.cur .a

/-- RELQ (R196). -/
def execRelq (k : BitVec 4) (s : State) : Out :=
  settle s.cur .a s do
    legal (.relq k)
    let h ← s.readK s.cur k
    let ctx := (s.task s.cur).ctx
    let i := handleIndex h
    let e := s.entry ctx i
    if h = 0#32 then return s.retire s.cur .a
    else if i = 0 ∨ !s.inTable ctx i then return (s.addTks s.cur tksDEAD).retire s.cur .a
    else if e.gen ≠ handleGen h then return (s.addTks s.cur tksSTALE).retire s.cur .a
    else if e.state = .free ∨ e.state = .quarantined then return (s.addTks s.cur tksDEAD).retire s.cur .a
    else if e.origin = .scratchpad then return (s.addTks s.cur tksPERM).retire s.cur .a
    else do
      s.drainReady s.cur
      let t := s.drainWhere s.cur (fun x => x.ent == i)
      return (t.setEntry ctx i (t.freed ctx i (t.entry ctx i))).retire s.cur .a

/-! Nameless allocation (R168, R169). -/

/-- Puts a stack into a list ordered by depth, the lowest number first on ties. -/
def insertStack (depth : Nat → Nat) (st : Nat) : List Nat → List Nat
  | [] => [st]
  | x :: l => if depth st < depth x ∨ (depth st = depth x ∧ st < x) then st :: x :: l else x :: insertStack depth st l

/-- First granules, as physical address divided by 4096, of the free runs of `n` granules in a stack, lowest first (R168); what lies below the
`nstr` GiB of the striped region is no memory of the stack's own (R166). -/
def Partition.runsIn (p : Partition) (nstr st n : Nat) : List Nat :=
  (p.own.anon.filter (fun r => r.1 == st)).flatMap (fun r =>
    let base := nearLocal st / 4096 + r.2.1
    (List.range (r.2.2 + 1 - n)).filterMap (fun i =>
      if 2 ^ 18 * nstr ≤ r.2.1 + i ∧ (List.range n).all (fun j => !p.granules.contains (base + i + j)) then some (base + i) else none))

/-- Sillage's choice (R168): the first granule of the run taken. The depths are those of the moment (log 11); in a fallback stack the lowest run
is taken, without the test of its target's depth, which R168 makes in the preferred stack (log 93). -/
def State.chooseRun (s : State) (part die n : Nat) : Option Nat :=
  let p := s.partOf part
  let depth (st : Nat) : Nat := Config.stackDepth st s.free
  let order := (List.range 8).foldl (fun l st => insertStack depth st l) []
  let pref := if depth die ≤ p.anqt.toNat then die else order.headD 0
  let runs (st : Nat) := p.runsIn s.nstr st n
  let inPref := runs pref
  let shallow := inPref.find? (fun g =>
    decide (Config.targetDepth pref (target (s.hmask[pref]?.getD hmaskDefault) (4096 * g % 2 ^ 36)) s.free ≤ p.anqt.toNat))
  match shallow, inPref with
  | some g, _ => some g
  | none, g :: _ => some g
  | none, [] => ((order.filter (fun st => st != pref)).flatMap runs).head?

/-- Allocates `n` granules and an entry for a nameless store of the task on a core, home reading zero in them; or nothing (R160,
R168, R169, R325). -/
def State.allocate (s : State) (c n : Nat) : Option (Nat × BitVec 12) × State :=
  let t := s.task c
  let s := { s with free := s.free + 1 }
  if s.device.stage = .reduced then (none, s)
  else
    match s.freeEntry t.ctx, s.chooseRun t.part (c / 64) n with
    | some i, some g =>
      let gen := (s.entry t.ctx i).gen
      let e : PetEntry := ⟨.active, .anonymous, true, true, false, false, 1, 1, gen, t.kid, 0, 4096 * n, [], 4096 * g, 0, 0#64, t.uid, false⟩
      let s := s.modPartition t.part (fun p => { p with granules := (List.range n).map (fun j => g + j) ++ p.granules })
      let s := (s.setEntry t.ctx i e).writeRun (4096 * g) (List.replicate (4096 * n) 0#8)
      (some (i, gen), s)
    | _, _ => (none, s)

/-- The stores of a nameless store's images through its entry: 16 rows each (R186, R203). -/
def State.storeImages (s : State) (c ent : Nat) (imgs : List Image) : State :=
  let ctx := (s.task c).ctx
  let es := (List.range imgs.length).flatMap (fun j =>
    ((s.entry ctx ent).pieces 0 4096 (4096 * j) 0).map (storeOf ctx ent s.fresh false (imgs[j]?.getD 0#32768).toNat))
  { s.modTask c (fun t => { t with stores := t.stores ++ es }) with fresh := s.fresh + 1 }.raiseInfl ctx ent

/-- Allocation and store of a nameless store (R203): the name, 0 with TKS.NSFULL when there is no room. -/
def State.nameless (s : State) (c : Nat) (imgs : List Image) : Word32 × State :=
  match s.allocate c imgs.length with
  | (some (i, gen), s) => (handleOf gen i, s.storeImages c i imgs)
  | (none, s) => (0#32, s.addTks c tksNSFULL)

/-- `n` vector pops of a queue (R204), made as soon as all of them are possible (R27): widening pops, each of which takes part of an element, do
not wait for `n` elements (log 94). -/
def State.popMany (s : State) (c q : Nat) : Nat → Except Stop (List Image × State)
  | 0 => .ok ([], s)
  | n + 1 => do
    let (img, s) ← s.popVector c q
    let (l, s) ← s.popMany c q n
    return (img :: l, s)

/-- NST_Q (R204): `n * g` elements above the queue's depth raise 0x01. -/
def execNstQ (k : BitVec 4) (d : BitVec 6) (n : BitVec 8) (s : State) : Out :=
  settle s.cur .a s do
    legal (.nstQ k d n)
    let t := s.task s.cur
    require (decide (n.toNat * t.popNeeds (d.toNat - 32) ≤ pwDepth t.partw)) 0x01#8
    s.noVatom s.cur
    let (imgs, u) ← s.popMany s.cur (d.toNat - 32) n.toNat
    let (h, u) := u.nameless s.cur imgs
    return (u.modTask s.cur (fun t => t.writeK k h true)).retire s.cur .a

/-- Puts the name of an NST whose halves have both completed in place of its mark, and applies what may be written (R203). -/
def Task.nameArrived (t : Task) (k : BitVec 4) (mark : BitVec 32) (h : Word32) : Task :=
  let l := t.names.map (fun x => match x with
    | .nst k' n m => if m = mark then NameWrite.value k h true else NameWrite.nst k' n m
    | .value k' h' o => NameWrite.value k' h' o)
  { t with names := l }.settleNames

/-- The NST of a mark whose A half has completed and whose X half has not. -/
def Task.nstWaiting (t : Task) (mark : BitVec 32) : Bool :=
  t.names.any (fun x => match x with | .nst _ _ m => m == mark | .value .. => false)

/-- NST (R203): A marks k as awaiting a name, X takes the images; the later half allocates and stores. -/
def execNst (k : BitVec 4) (d : BitVec 6) (n : BitVec 8) (s : State) : Out :=
  settle s.cur s.side s do
    legal (.nst k d n)
    s.grants s.cur ((List.range n.toNat).map (fun i => d + BitVec.ofNat 6 i))
    let mark := (s.seq s.cur s.side).marks
    match s.side with
    | .a =>
      let t := s.modTask s.cur (fun t => { t with names := t.names ++ [NameWrite.nst k n.toNat mark] })
      match (s.task s.cur).nstX.find? (fun x => x.mark == mark) with
      | some x =>
        let t := t.modTask s.cur (fun t => { t with nstX := t.nstX.filter (fun y => y.mark != mark) })
        let (h, t) := t.nameless s.cur x.imgs
        return (t.modTask s.cur (fun t => t.nameArrived k mark h)).retire s.cur .a true
      | none => return t.retire s.cur .a true
    | .x =>
      let imgs := (List.range n.toNat).map (fun i => s.vreg s.cur (d.toNat + i))
      if (s.task s.cur).nstWaiting mark then
        let (h, t) := s.nameless s.cur imgs
        return (t.modTask s.cur (fun t => t.nameArrived k mark h)).retire s.cur .x true
      else return (s.modTask s.cur (fun t => { t with nstX := t.nstX ++ [⟨k, imgs, mark⟩] })).retire s.cur .x true

end Sys2Proof.Machine
end

