-- ==== Sys2Proof/Machine/Ending.lean ====
section
/-! DEFINITION. The end of a task: TEND, YIELD and HALT (R145, R280, R282), the completion record (R258), what becomes of the task's
entries (R162); and the traps that no assigned word raises (R16, R31, R48). -/
namespace Sys2Proof.Machine

/-! The end of a task. -/

/-- Discards what a task's queues hold (R31, R145). -/
def State.dropQueues (s : State) (c : Nat) : State :=
  let held := (s.task c).q.toList.any (fun q => q.occ != 0)
  let s := s.modTask c (fun t => { t with q := Vector.replicate 8 QState.reset })
  if held then s.addStat c statQDROP else s

/-- Posts the completion record of a task that ends, when a status asks for one (R258). -/
def State.postCompletion (s : State) (c : Nat) : State :=
  let t := s.task c
  if t.tks = 0#6 ∧ t.stat &&& 0x3A#7 = 0#7 then s
  else
    s.postRecord t.kid ⟨recWord 1#8 0x40#8 t.kid c 0, t.tks.setWidth 64, t.stat.setWidth 64,
      t.vst.setWidth 64 ||| (t.zst.setWidth 64 <<< 8)⟩

/-- Frees the entries that end with a task: its scratchpad and what it translated (R162). -/
def State.freeOf (s : State) (ctx uid : Nat) : State :=
  s.modContext ctx (fun x => { x with
    pet := NMap.mapv x.pet (fun i e => if e.owner = uid ∧ (e.origin = .scratchpad ∨ e.origin = .translated) then s.freed ctx i e else e) })

/-- A task of a launch group has ended (R303, R309). -/
def State.leaveGroup (s : State) (g : Option Nat) (n : Nat) : State :=
  match g with
  | none => s
  | some i =>
    match NMap.get s.groups i with
    | some x => { s with groups := NMap.set s.groups i { x with live := x.live - n } }
    | none => s

/-- At task end every loop is inactive (R82). -/
def Task.leaveLoops (t : Task) : Task := { t with seqA := t.seqA.dropLoops [0, 1, 2], seqX := t.seqX.dropLoops [0, 1, 2] }

/-- Tells the peers that a member of a launch group has ended, which counts as arrived from now on (R148) (log 47). -/
def State.tellEnd (s : State) (uid : Nat) : State :=
  let m := s.member uid
  if m.group.isSome && decide (1 < (s.partOf m.part).packages.length) then s.send (.ended m.part uid) else s

/-- The task on a core ends and the core is free (R82, R145, R162, R180); its flags stay for the chains that run on (R223). -/
def State.endTask (s : State) (c : Nat) : State :=
  let t := s.task c
  let s := ((((s.dropQueues c).leaveShares c).releaseLease c).postCompletion c).freeOf t.ctx t.uid
  let left := if (s.chainsOf t.uid).isEmpty then ([], []) else (t.flags, t.setters)
  let s := (s.leaveGroup (s.core c).group 1).setMember t.uid
    { s.member t.uid with ended := true, arrived := none, flags := left.1, setters := left.2 }
  let s := ((s.unhold t.part [c, 1024 + c]).modTask c Task.leaveLoops).tellEnd t.uid
  s.setCore c { s.core c with mode := .idle, group := none, level := 0, blockedFor := 0, idleFor := 0, idleSince := s.cyc, keptLease := none }

/-- The waits of TEND (R145): chains that have used the pool or hold pool work, commands on tiles, accesses. It waits besides, as HALT does
(R282), for the sources of collectives that the engine has still to read, which R145 does not name (log 89). The state has the chains'
entries read ahead. -/
def State.endWaits (s : State) (c : Nat) : Except Stop State :=
  let t := s.task c
  let r := s.anyPoolWork c t.uid
  if !r.2 && !(s.chainsOf t.uid).any (·.pooled) && t.mq.all (fun m => (List.range 8).all (fun z => !m.op.onTile z)) && s.accessesDone c && t.cq.all (·.read) then .ok r.1
  else .error (.stall false)

/-- An ending word on one side (R145, R280, R282): each side waits for the other; once both wait, `go` runs, its traps A's. -/
def endWord (i : Instr) (go : State → Run) (s : State) : Out :=
  let q := s.seq s.cur s.side
  let other := (s.seq s.cur s.side.other).waiting
  if q.waiting && other then settle s.cur .a s (do legal i; go s)
  else
    settle s.cur s.side s do
      legal i
      if q.waiting then throw (.stall true) else return s.setSeq s.cur s.side { q with waiting := true, blocked := !other }

/-- Both sequencers complete the word and the task ends. -/
def State.finishTask (s : State) (c : Nat) : State :=
  ((s.completed c .a true).completed c .x true).endTask c

/-- TEND (R145). -/
def execTend (s : State) : Out :=
  endWord .tend (fun s => do
    let t ← s.endWaits s.cur
    return t.finishTask s.cur) s

/-- The end of YIELD, its record pushed or none (R280): PEND clears. -/
def State.finishYield (s : State) (c : Nat) : State :=
  (s.modTask c (fun t => { t with yreq := t.yreq &&& ~~~1#42 })).finishTask c

/-- YIELD (R280, R281): the waits of TEND, the record's read, check and push, the end. -/
def execYield (k : BitVec 4) (o : BitVec 6) (s : State) : Out :=
  endWord (.yield k o) (fun s => do
    match (s.task s.cur).push with
    | some r => if s.pushRoom s.cur r then return (s.pushOrHold s.cur r).finishYield s.cur else throw (.stall false)
    | none => do
      let x ← s.readA s.cur o.toNat
      let h ← s.readK s.cur k
      let u ← s.endWaits s.cur
      let off := x.toNat / 32 * 32
      let (ent, m, t) ← u.check s.cur h off 32 false
      match ent with
      | none => return t.finishYield s.cur
      | some e =>
        if m < 32 then return t.finishYield s.cur
        else
          let r := recOf (t.readNow s.cur e off 32) 0
          if s.recordOk (s.task s.cur).ctx r then
            let t := t.pushOrHold s.cur r
            return if (t.task s.cur).push.isNone then t.finishYield s.cur else t
          else throw (.trap 0x11#8 (some t))) s

/-- HALT stops a core's chains with pool work at a transaction boundary, their completion writes discarded, with STAT.HCAN (R282): the
state, and whether one has still to come to a boundary. -/
def State.haltChains (s : State) (c uid : Nat) : State × Bool :=
  (s.chainsOn c uid).foldl (fun a h =>
    let r := a.1.poolWork c h
    if r.2 = some false then (r.1, a.2)
    else if (h.run.bind (·.tx)).isSome then (r.1, true)
    else ((r.1.dropChain c h).addStat c statHCAN, a.2)) (s, false)

/-- Whether the command at the head of a matrix queue stands at a step boundary (R229): nothing of a step or block is under way. -/
def MatrixWork.atBoundary (w : MatrixWork) : Bool := w.reads.isNone && w.md.isEmpty && w.a.isEmpty && w.b.isEmpty && w.writes.isEmpty

/-- HALT stops the matrix queue, with STAT.HCAN (R282). -/
def State.haltMatrix (s : State) (c : Nat) : State :=
  if (s.task c).mq.isEmpty then s
  else ((s.unhold (s.task c).part [1024 + c]).modTask c (fun t =>
    { t with mq := [], mstart := false, mheld := none, mwork := MatrixWork.idle, mprog := t.mprog &&& 0x7FFFFFFFF#36 })).addStat c statHCAN

/-- HALT (R282): chains and the matrix queue stop, each at its boundary, before the sources of collectives are waited for; what the task's
collectives write later into this pool is discarded. -/
def execHalt (s : State) : Out :=
  endWord .halt (fun s => do
    waitFor (s.accessesDone s.cur)
    let (u, busy) := s.haltChains s.cur (s.task s.cur).uid
    if busy || !(u.task u.cur).mwork.atBoundary then return u
    else
      let u := u.haltMatrix u.cur
      if (u.task u.cur).cq.all (·.read) then return (u.finishTask u.cur).modMember (u.task u.cur).uid (fun m => { m with halted := some u.cur }) else return u) s

/-! Traps of words that are no instruction, and of the core (R16, R31, R48). -/

/-- ILLEGAL_INSTRUCTION (R48): cause 0x01. -/
def execIllegalInstruction (s : State) : Out := settle s.cur s.side s (throw (.trap 0x01#8 none))
/-- EXECUTE_DATA (R16): cause 0x02. -/
def execExecuteData (s : State) : Out := settle s.cur s.side s (throw (.trap 0x02#8 none))
/-- QUEUE_DEADLOCK (R31): cause 0x04 after 65,536 blocked cycles without activity. -/
def execQueueDeadlock (core : Nat) (s : State) : Out :=
  if (s.core core).mode = .run ∧ 65536 ≤ (s.core core).blockedFor then .next (s.takeKill core .a 0x04#8 0#32) else .next s

end Sys2Proof.Machine
end

