-- ==== Sys2Proof/Machine/Matrix.lean ====
section
/-! DEFINITION. The steps of the matrix queue and the array (R102 to R108, R224 to R230, R242 to R250). -/
namespace Sys2Proof.Machine

/-! Tiles (R102). -/

/-- The NAN bit and A of an element's eight bytes. -/
def elemOf (v : Nat) : Bool × Int := (v / 2 ^ 48 % 2 == 1, Num.signExt 48 v)
/-- `n` elements of a tile of a core from index `i` up. -/
def State.tileElems (s : State) (c z i n : Nat) : List (Bool × Int) :=
  let v := s.readNat (poolBase c + tileOff (s.task c).partw z + 8 * i) (8 * n)
  (List.range n).map (fun j => elemOf (elem 64 v j))
/-- The eight bytes of an element as the array writes it. -/
def elemBytes (e : Bool × Int) : List Byte := bytesOf 8 (Num.wrapBits 48 e.2 + (if e.1 then 2 ^ 48 else 0))
/-- Writes elements of a tile from index `i` up. -/
def State.writeTile (s : State) (c z i : Nat) (es : List (Bool × Int)) : State :=
  s.writeRun (poolBase c + tileOff (s.task c).partw z + 8 * i) (es.flatMap elemBytes)
/-- The exponent of a command's tile: ZEXPz as it was when the command was pushed (R103). -/
def MCmd.scale (m : MCmd) : Int := m.zexp.toInt
/-- ZPWz. -/
def Task.zpwOf (t : Task) (z : Nat) : BitVec 9 := t.zpw[z]?.getD 0x077#9
/-- Replaces ZPWz. -/
def Task.setZpw (t : Task) (z : Nat) (x : BitVec 9) : Task := { t with zpw := t.zpw.setIfInBounds z x }

/-- Clamp47 (R104): the value, and whether it saturated. -/
def clamp47 (x : Int) : Int × Bool := Num.clampTo (-(2 ^ 47 - 1)) (2 ^ 47 - 1) x

/-- RoundNE of a signed magnitude `m * 2^e`. -/
def roundSigned (x : Int) (e : Int) : Int := (if x < 0 then -1 else 1) * (Num.roundAt x.natAbs e false 0 : Int)

/-- Thirty-two mantissas with their exponent, at the operand width. -/
structure Operand where
  ex : Nat
  ms : List Int

/-- One K-block on one element (R104): NAN bit and A, SAT and NAN events. -/
def macBlock (wa wb : Nat) (e : Int) (acc : Bool × Int) (a b : Operand) : (Bool × Int) × Bool × Bool :=
  if a.ex = 255 ∨ b.ex = 255 then ((true, acc.2), false, true)
  else if a.ex = 0 ∨ b.ex = 0 then (acc, false, false)
  else
    let p := (a.ms.zip b.ms).foldl (fun x y => x + y.1 * y.2) (0 : Int)
    let sh : Int := (a.ex : Int) + b.ex - 254 - (wa - 1 : Nat) - (wb - 1 : Nat) - e
    let t := if 0 ≤ sh then clamp47 (p * (2 ^ sh.toNat : Nat)) else (roundSigned p sh, false)
    let r := clamp47 (acc.2 + t.1)
    ((acc.1, r.1), t.2 || r.2, false)

/-- All K-blocks of a step on one element, ascending (R104). -/
def macElem (wa wb : Nat) (e : Int) (acc : Bool × Int) (l : List (Operand × Operand)) : (Bool × Int) × Bool × Bool :=
  l.foldl (fun r x =>
    let y := macBlock wa wb e r.1 x.1 x.2
    (y.1, r.2.1 || y.2.1, r.2.2 || y.2.2)) (acc, false, false)

/-- The signed mantissas of patterns of width `w`. -/
def signedAll (w : Nat) (l : List Nat) : List Int := l.map (Num.signExt w)

/-- The operand that FP32 values make at a width, with events (R99, R228). -/
def operandOf (w : Nat) (l : List Nat) : Operand × Num.Ev :=
  let r := Num.toBfp w (l.map (Num.decodeF Num.binary32))
  (⟨r.1, signedAll w r.2.1⟩, r.2.2)

/-- A block of a stream at the operand width (R228): BFP of that width as it is, anything else through FP32. -/
def Block.operand (b : Block) (x : StreamDesc) (w : Nat) : Operand × Num.Ev :=
  if x.fmt = 9 ∧ x.width = w then (⟨b.ex, signedAll w b.pats⟩, .none)
  else
    let f := b.fp32 x
    let o := operandOf w f.1
    (o.1, f.2.or o.2)

/-- The 64 mantissa patterns that a sparse block's metadata expands its 32 to (R230). -/
def expandSparse (md : Nat) (pats : List Nat) : List Nat :=
  (List.range 64).map (fun k =>
    let g := k / 4
    if md / 2 ^ (4 * g) % 4 = k % 4 then pats[2 * g]?.getD 0
    else if md / 2 ^ (4 * g + 2) % 4 = k % 4 then pats[2 * g + 1]?.getD 0
    else 0)

/-- The first illegal group of a metadata word: c0 at or above c1 (R230). -/
def illegalGroup (md : Nat) : Option Nat :=
  (List.range 16).find? (fun g => decide (md / 2 ^ (4 * g + 2) % 4 ≤ md / 2 ^ (4 * g) % 4))

/-- The two operands of a sparse block, expanded (R230, R245). -/
def Block.sparseOperands (b : Block) (x : StreamDesc) (w md : Nat) : List Operand × Num.Ev :=
  let l := expandSparse md b.pats
  let lo := l.take 32
  let hi := l.drop 32
  if x.width = w then ([⟨b.ex, signedAll w lo⟩, ⟨b.ex, signedAll w hi⟩], .none)
  else
    let f (p : List Nat) := (Block.mk p b.ex b.real).operand x w
    ([(f lo).1, (f hi).1], (f lo).2.or (f hi).2)

/-- Splits a list into parts of `k`. -/
def chunks {α : Type} (k : Nat) : Nat → List α → List (List α)
  | 0, _ => []
  | n + 1, l => l.take k :: chunks k n (l.drop k)

/-- Removes the head of a core's matrix queue (R242). -/
def State.popM (s : State) (c : Nat) : State :=
  s.modTask c (fun t => { t with mq := t.mq.drop 1, mheld := none, mwork := MatrixWork.idle })
/-- Changes what the command at the head of a core's matrix queue has under way. -/
def State.modWork (s : State) (c : Nat) (f : MatrixWork → MatrixWork) : State := s.modTask c (fun t => { t with mwork := f t.mwork })

/-- Notes that the array command at the head of a core's queue is held (R165). -/
def State.noteArray (s : State) (c : Nat) (p : Held) : State := s.modTask c (fun t => { t with mheld := p })

/-- MPROG's value (R225). -/
def mprogOf (active : Bool) (z steps : Nat) : BitVec 36 :=
  BitVec.ofBool active ++ BitVec.ofNat 3 z ++ BitVec.ofNat 32 steps

/-- M, N, K of a dimension word (R227). -/
def dimM (x : Word64) : Nat := (fld x 0 8).toNat
/-- N of a dimension word. -/
def dimN (x : Word64) : Nat := (fld x 8 8).toNat
/-- K of a dimension word. -/
def dimK (x : Word64) : Nat := (fld x 16 21).toNat
/-- CLR of a dimension word. -/
def dimClr (x : Word64) : Bool := x.getLsbD 40
/-- Steps of an array command (R228, R229). -/
def stepsOf (sparse : Bool) (x : Word64) : Nat :=
  if dimM x = 0 ∨ dimN x = 0 ∨ dimK x = 0 then 0
  else if sparse then (dimK x + 511) / 512 else (dimK x + 255) / 256
/-- STEPS of MPROG. -/
def Task.mstepsDone (t : Task) : Nat := (t.mprog.setWidth 32).toNat

/-- Whether the matrix queue of a core runs: its task runs, or its save has not come to step 4 (R251, R262). -/
def State.matrixRuns (s : State) (c : Nat) : Bool :=
  match (s.core c).mode with
  | .run => true
  | .save _ => (s.core c).keptLease.isNone
  | .idle | .restore | .stopped => false

/-- Whether step 4 of a save may stop a core's matrix queue (R251, R262): between array steps, with no tile command in progress but one to
a queue that is full. -/
def State.matrixStops (s : State) (c : Nat) : Bool :=
  let t := s.task c
  t.mwork == MatrixWork.idle && !(s.partOf t.part).dirtyHeld.contains (1024 + c)
    && (match t.mq with
        | ⟨_, .mstQ _ _ q _ pushed, _⟩ :: _ => pushed == 0 || !s.qroom c q
        | _ => true)

/-- ARRAY_COMMAND_START (R228, R229, R245): at the head with the lease held; CLR clears its region. -/
def execArrayCommandStart (core : Nat) (s : State) : Out :=
  let t := s.task core
  match t.mq with
  | ⟨_, .mmul _ z _ _ x, _⟩ :: _ =>
    if !s.matrixRuns core || t.lease != .holding || t.mstart then .next s
    else
      let s := s.setTask core { t with mstart := true, mprog := mprogOf true z 0 }
      let s := if dimClr x then
        (List.range (dimM x)).foldl (fun s m => s.writeTile core z (128 * m) (List.replicate (dimN x) (false, 0))) s else s
      .next s
  | _ => .next s

/-- An illegal sparse group (R230): INV, the error record, and 0x33, which kills the kernel; its trap record names X (log 107). -/
def State.sparseHalt (s : State) (c z n md g : Nat) : State :=
  let t := s.task c
  let s := s.setTask c ({ t with mq := [], mstart := false, mwork := MatrixWork.idle }.setZpw z (t.zpwOf z ||| 0x100#9))
  let s := s.postRecord t.kid ⟨recWord 4#8 0#8 t.kid c z, BitVec.ofNat 64 t.mstepsDone, BitVec.ofNat 64 md,
    BitVec.ofNat 64 (n + 2 ^ 32 * g)⟩
  s.takeKill c .x 0x33#8 0#32

/-- K of the step that comes next of a command with `done` steps done (R228, R230). -/
def stepK (sparse : Bool) (x : Word64) (done : Nat) : Nat :=
  let unit := if sparse then 512 else 256
  min unit (dimK x - unit * done)
/-- Blocks of A that a step takes: a sparse block stands for 64 elements (R228, R230). -/
def stepBlocksA (sparse : Bool) (x : Word64) (done : Nat) : Nat := dimM x * (stepK sparse x done / (if sparse then 64 else 32))
/-- Blocks of B that a step takes (R228). -/
def stepBlocksB (sparse : Bool) (x : Word64) (done : Nat) : Nat := dimN x * (stepK sparse x done / 32)

/-- Metadata words of a sparse step: one for each block that the stream really holds (R230) (log 34). -/
def Task.stepWords (t : Task) (a n : Nat) : Nat :=
  let x := StreamDesc.ofBits (t.stream a).desc
  min n ((x.total + 31) / 32 - (t.stream a).pos / 32)

/-- Accumulates a step into a tile at a scale, row by row (R104). -/
def State.accumulate (s : State) (c z n wa wb : Nat) (e : Int) (rows cols : List (List Operand)) : State :=
  (List.range rows.length).foldl (fun s i =>
    let row := rows[i]?.getD []
    let rs := ((s.tileElems c z (128 * i) n).zip cols).map (fun x => macElem wa wb e x.1 (row.zip x.2))
    let s := s.writeTile c z (128 * i) (rs.map (·.1))
    (s.addZsat c z (rs.any (·.2.1))).addZnan c z (rs.any (·.2.2))) s

/-- The operands that the delivered blocks of a step make, row by row and column by column, with their events (R228, R230, R245). -/
def stepOperands (sparse : Bool) (A B : StreamDesc) (m n kc wa wb : Nat) (w : MatrixWork) : List (List Operand) × List (List Operand) × Num.Ev :=
  let oa := (List.range w.a.length).map (fun j =>
    let blk := w.a[j]?.getD ⟨[], 0, 0⟩
    if sparse then blk.sparseOperands A wa (w.md[j]?.getD 0x4444444444444444) else
      let o := blk.operand A wa
      ([o.1], o.2))
  let ob := w.b.map (fun y => y.operand B wb)
  (chunks (kc / 32) m (oa.flatMap (·.1)), chunks (kc / 32) n (ob.map (·.1)),
    ob.foldl (fun e o => e.or o.2) (oa.foldl (fun e o => e.or o.2) Num.Ev.none))

/-- The K-blocks of a step whose slabs are there (R104, R225, R228, R245): the tile, the budget and the quota, one more step. -/
def State.finishStep (s : State) (c : Nat) (sparse : Bool) (z a b : Nat) (x : Word64) (e : Int) : State :=
  let t := s.task c
  let done := t.mstepsDone
  let w := t.zpwOf z
  let wa := (fld w 0 4).toNat + 1
  let wb := (fld w 4 4).toNat + 1
  let o := stepOperands sparse (StreamDesc.ofBits (t.stream a).desc) (StreamDesc.ofBits (t.stream b).desc) (dimM x) (dimN x)
    (stepK sparse x done) wa wb t.mwork
  let s := (s.addVst c o.2.2).accumulate c z (dimN x) wa wb e o.1 o.2.1
  let q := s.quad (quadOf c)
  let s := s.setQuad (quadOf c) { q with budget := q.budget - (wa * wb : Nat) }
  let s := s.modPartition t.part (fun p => { p with useBit := p.useBit + wa * wb })
  s.modTask c (fun t => { t with mprog := mprogOf true z (done + 1), mheld := none, mwork := MatrixWork.idle })

/-- One row transaction of a sparse step's metadata, of which `m` words are still to come, or its next word once that is there (R182, R230):
an illegal group halts the array. Each member of a share group reads the metadata for itself (log 106). -/
def State.stepMetadata (s : State) (c z a m : Nat) : Except Stop State := do
  let t := s.task c
  let r := t.stream a
  let x := StreamDesc.ofBits r.desc
  let n := r.pos / 32 + t.mwork.md.length
  let y := t.mwork.reads.getD ⟨n, m, RowReads.begin_ ((List.range m).map (fun j => ((x.moff + 8 * (n + j) : Nat), 8)))⟩
  let missing (w : RowReads) : Bool := w.todo.any (fun p => p.1 == n - y.first)
  let w ← if missing y.reads then y.reads.step s t.ctx r.handle else .ok y.reads
  let s := s.addTks c w.tks
  let y := { y with reads := { w with tks := 0#6 } }
  if missing w then return s.modWork c (fun m => { m with reads := some y })
  else
    let md := w.got[n - y.first]?.getD 0
    let s := s.modWork c (fun m => { m with reads := if y.first + y.count ≤ n + 1 then none else some y, md := m.md ++ [md] })
    match illegalGroup md with
    | some g => return s.sparseHalt c z n md g
    | none => return s

/-- A stream delivers to an array step, which takes `m` more of its blocks, where its share group lets it begin its next block (R222): one
row transaction. -/
def State.stepDeliver (s : State) (c n m : Nat) (put : Block → MatrixWork → MatrixWork) : Except Stop State :=
  if (s.task c).mwork.reads.isNone && !s.shareReady c n then .ok s
  else do
    let (b, s) ← s.stepBlock c n m
    match b with
    | some blk => return s.modWork c (put blk)
    | none => return s

/-- ARRAY_STEP (R182, R228, R230, R245): one row transaction of a step, its metadata first, then the A slab, then the B slab; and with
all of them there, its K-blocks. -/
def execArrayStep (core : Nat) (s : State) : Out :=
  let t := s.task core
  match t.mq with
  | ⟨i, .mmul sparse z a b x, e⟩ :: _ =>
    let done := t.mstepsDone
    if !s.matrixRuns core || t.lease != .holding || !t.mstart || decide (stepsOf sparse x ≤ done) then .next s
    else
      let na := stepBlocksA sparse x done
      settleEvent s (s.noteArray core)
        (if sparse && t.mwork.a.isEmpty && decide (t.mwork.md.length < t.stepWords a na) then s.stepMetadata core z a (t.stepWords a na - t.mwork.md.length)
         else if t.mwork.a.length < na then s.stepDeliver core a (na - t.mwork.a.length) (fun blk m => { m with a := m.a ++ [blk] })
         else if t.mwork.b.length < stepBlocksB sparse x done then s.stepDeliver core b (stepBlocksB sparse x done - t.mwork.b.length) (fun blk m => { m with b := m.b ++ [blk] })
         else return s.finishStep core sparse z a b x (MCmd.scale ⟨i, .mmul sparse z a b x, e⟩))
  | _ => .next s

/-- ARRAY_COMMAND_END (R224): the command of the holder is done; the lease is arbitrated again. -/
def execArrayCommandEnd (core : Nat) (s : State) : Out :=
  let t := s.task core
  match t.mq with
  | ⟨_, .mmul sparse z _ _ x, _⟩ :: _ =>
    if !s.matrixRuns core || t.lease != .holding || !t.mstart || decide (t.mstepsDone < stepsOf sparse x) then .next s
    else
      let s := (s.setTask core { t with mstart := false, mprog := mprogOf false z t.mstepsDone }).popM core
      let q := quadOf core
      if 0 < (s.quad q).budget then .next s
      else
        match s.nextWaiting q (quadPos core) with
        | some w => .next ((s.modTask core (fun t => { t with lease := .waiting })).grantLease w)
        | none => .next (s.setQuad q ⟨some core, s.budgetOf core⟩)
  | _ => .next s

/-! Tile commands. -/

/-- PREC_AT_HEAD (R243). -/
def execPrecAtHead (core : Nat) (s : State) : Out :=
  match (s.task core).mq with
  | ⟨_, .prec z a b, _⟩ :: _ =>
    if s.matrixRuns core then
      .next ((s.modTask core (fun t => t.setZpw z (fld (t.zpwOf z) 8 1 ++ (b ++ a)))).popM core)
    else .next s
  | _ => .next s

/-- MCLR_AT_HEAD (R229, R244). -/
def execMclrAtHead (core : Nat) (s : State) : Out :=
  match (s.task core).mq with
  | ⟨_, .mclr z, _⟩ :: _ =>
    if s.matrixRuns core then
      .next (((s.writeTile core z 0 (List.replicate 16384 (false, 0))).modTask core (fun t => t.setZpw z (t.zpwOf z &&& 0xFF#9))).popM core)
    else .next s
  | _ => .next s

/-- The element that MLD makes of an FP32 pattern (R247): element, and whether it saturated. -/
def loadElem (e : Int) (p : Nat) : (Bool × Int) × Bool :=
  match Num.decodeF Num.binary32 p with
  | .nan => ((true, 0), false)
  | .inf n => ((false, if n then -(2 ^ 47 - 1) else 2 ^ 47 - 1), true)
  | .fin n m x =>
    let r := clamp47 (roundSigned (if n then -(m : Int) else m) (x - e))
    ((false, r.1), r.2)

/-- A block of an MLD enters its tile (R247): elements 32 times its number on. -/
def State.loadBlock (s : State) (c z : Nat) (e : Int) (x : StreamDesc) (blk : Block) : State :=
  let n := (s.task c).mwork.blocks
  let v := blk.fp32 x
  let es := v.1.map (loadElem e)
  (((s.addVst c v.2).writeTile c z (32 * n) (es.map (·.1))).addZsat c z (es.any (·.2))).modWork c (fun m => { m with blocks := n + 1 })

/-- MLD_AT_HEAD (R182, R247): one row transaction of the stream's next block, which enters the tile once it is there; the end clears INV. -/
def execMldAtHead (core : Nat) (s : State) : Out :=
  let t := s.task core
  match t.mq with
  | ⟨i, .mld z st, e⟩ :: _ =>
    if !s.matrixRuns core then .next s
    else if t.mwork.blocks = 512 then .next ((s.modTask core (fun t => t.setZpw z (t.zpwOf z &&& 0xFF#9))).popM core)
    else if t.mwork.reads.isNone && !s.shareReady core st then .next s
    else
      settleEvent s (s.noteArray core) do
        let (b, u) ← s.stepBlock core st (512 - t.mwork.blocks)
        match b with
        | some blk =>
          return u.loadBlock core z (MCmd.scale ⟨i, .mld z st, e⟩) (StreamDesc.ofBits (t.stream st).desc) blk
        | none => return u
  | _ => .next s

/-- The exact value of a drained element (R107): NaN in an invalid tile (R230). -/
def drainValue (inv : Bool) (e : Int) (x : Bool × Int) : Num.FVal :=
  if inv || x.1 then .nan else .fin (decide (x.2 < 0)) x.2.natAbs e

/-- The drained result of a value in a format other than BFP (R107). -/
def drainTo (f : Num.Fmt) (v : Num.FVal) : Nat × Num.Ev :=
  if f.isFloat then Num.satEnc f.shape v
  else
    match v with
    | .fin .. => Num.satInt f ((Num.roundInt v).getD 0)
    | _ => (0, ⟨true, false, false⟩)

/-- The drained block of 32 values for a BFP target: exponent, patterns, events (R107): each value is rounded to FP32 first, a NaN
makes the block a NaN block. -/
def drainBlock (w : Nat) (vs : List Num.FVal) : Nat × List Nat × Num.Ev :=
  let r := vs.map (fun v => if v == .nan then (0, Num.Ev.none) else Num.satEnc Num.binary32 v)
  let ev := r.foldl (fun a p => a.or p.2) Num.Ev.none
  if vs.any (fun v => v == .nan) then (255, vs.map (fun _ => 0), ev.or ⟨false, false, true⟩)
  else
    let (e, m, ev') := Num.toBfp w (r.map (fun p => Num.decodeF Num.binary32 p.1))
    (e, m, ev.or ev')

/-- The values of elements `i` to `i + n - 1` of a tile as a drain takes them at a scale. -/
def State.drainValues (s : State) (c z i n : Nat) (e : Int) : List Num.FVal :=
  let inv := ((s.task c).zpwOf z).getLsbD 8
  (s.tileElems c z i n).map (drainValue inv e)

/-- The writes that put the next 32 values of a drain into a write stream, less what lies beyond its end, and their events (R107, R108,
R221, R248); `count` tells whether they count in Accord, a BFP value where a byte of its block's mantissas has been written, whatever became
of the exponent byte (R108, log 74). -/
def StreamDesc.writes (x : StreamDesc) (pos : Nat) (count : Bool) (vs : List Num.FVal) : List RowWrite × Num.Ev :=
  let b := pos / 32
  let real := min 32 (x.total - pos)
  let bin (n : Nat) : Option Nat := if count then some n else none
  if x.fmt = 9 then
    let (e, m, ev) := drainBlock x.width vs
    if real = 0 then ([], ev)
    else
      let data := m.foldr (fun p a => p % 2 ^ x.width + 2 ^ x.width * a) 0
      ([⟨x.offset pos + (4 * x.width * (pos % x.bounds.headD 1 / 32) : Nat), 4 * x.width, data, bin e, false⟩,
        ⟨x.ebase + b * x.estride, 1, e, none, false⟩], ev)
  else
    let ps := vs.map (drainTo x.format)
    ((List.range real).map (fun j =>
      let p := (ps[j]?.getD (0, .none)).1
      ⟨x.offset (pos + j), x.format.size, p, bin (binOf x.format p), false⟩), ps.foldl (fun a p => a.or p.2) .none)

/-- An MST takes the blocks of 32 elements of its tile, all at once, so that each row is written in one step (R182) (log 88): their writes, VST,
SUND and the stream's position (R107, R221, R248) (log 74). -/
def State.takeDrain (s : State) (c z st : Nat) (hist : Bool) (e : Int) : State :=
  let t := s.task c
  let r := t.stream st
  let x := StreamDesc.ofBits r.desc
  let m := 512 - t.mwork.blocks
  let w := (List.range m).map (fun j => x.writes (r.pos + 32 * j) (hist || x.hist) (s.drainValues c z (32 * (t.mwork.blocks + j)) 32 e))
  let s := s.addVst c (w.foldl (fun a p => a.or p.2) Num.Ev.none)
  let s := if x.total < r.pos + 32 * m then s.addStat c statSUND else s
  (s.modTask c (fun t => t.setStream st { t.stream st with pos := r.pos + 32 * m })).modWork c
    (fun k => { k with blocks := k.blocks + m, writes := w.flatMap (·.1) })

/-- One write of an MST, as far as its row reaches: a value counts once a byte of it has been written (R108, R182). -/
def State.putPart (s : State) (c st : Nat) (w : RowWrite) : Except Stop (State × Option RowWrite) := do
  let t := s.task c
  let h := (t.stream st).handle
  let k := s.rowPart t.ctx h w.off w.n
  let (s, b, m) ← s.engineWrite (1024 + c) t.part t.ctx h w.off k w.data
  let s := s.addTks c b
  let wrote := w.wrote || decide (0 < m)
  if k < w.n then return (s, some ⟨w.off + k, w.n - k, w.data / 2 ^ (8 * k), w.bin, wrote⟩)
  else
    match w.bin with
    | some n => return (if wrote then s.modTask c (·.count1 n) else s, none)
    | none => return (s, none)

/-- One row transaction of an MST (R182): every write that lies in the row of the first is made in this one step, in stream order. -/
def State.putRow (s : State) (c st : Nat) (w0 : RowWrite) (l : List RowWrite) : Except Stop State := do
  let ctx := (s.task c).ctx
  let h := ((s.task c).stream st).handle
  let r ← (w0 :: l).foldlM (fun (a : State × List RowWrite) w =>
    if s.rowOf ctx h w.off = s.rowOf ctx h w0.off then do
      let (u, rest) ← a.1.putPart c st w
      return (u, a.2 ++ rest.toList)
    else return (a.1, a.2 ++ [w])) (s, [])
  return r.1.modWork c (fun x => { x with writes := r.2 })

/-- MST_AT_HEAD (R182, R248): the tile to a write stream in stream order, one row transaction at a time. -/
def execMstAtHead (core : Nat) (s : State) : Out :=
  let t := s.task core
  match t.mq with
  | ⟨i, .mst z st hist, e⟩ :: _ =>
    if !s.matrixRuns core then .next s
    else
      match t.mwork.writes with
      | w :: l => settleEvent s (s.noteArray core) ((s.putRow core st w l).map (fun u => u.noteArray core none))
      | [] =>
        if 512 ≤ t.mwork.blocks then .next (s.popM core)
        else .next (s.takeDrain core z st hist (MCmd.scale ⟨i, .mst z st hist, e⟩))
  | _ => .next s

/-- Whether an element has entered a queue in this cycle: an engine's element would have to come before it (R249), so it enters in a
later cycle. -/
def State.pushedNow (s : State) (core q : Nat) : Bool := decide (0 < ((s.task core).queue q).fresh)

/-- MST_ELEMENT_PUSH (R248, R249): one element of 4096 bytes when a slot is free. -/
def execMstElementPush (core : Nat) (s : State) : Out :=
  match (s.task core).mq with
  | ⟨n, .mstQ z fmt q hist pushed, e⟩ :: l =>
    if !s.matrixRuns core || !s.qroom core q || s.pushedNow core q then .next s
    else
      let f := (Num.Fmt.ofCode fmt).getD .raw32
      let per := 4096 / f.size
      let ps := (s.drainValues core z (per * pushed) per e.toInt).map (drainTo f)
      let img : Image := BitVec.ofNat 32768 (ps.foldr (fun p a => p.1 % 2 ^ f.bits + 2 ^ f.bits * a) 0)
      let s := (s.enqueue core q img).addVst core (ps.foldl (fun a p => a.or p.2) .none)
      let s := if hist then ps.foldl (fun s p => s.modTask core (·.count1 (binOf f p.1))) s else s
      .next (s.modTask core (fun t => { t with
        mq := if pushed + 1 = 4 * f.size then l else ⟨n, .mstQ z fmt q hist (pushed + 1), e⟩ :: l }))
  | _ => .next s

/-- HIST_CLR_AT_HEAD (R250). -/
def execHistClrAtHead (core : Nat) (s : State) : Out :=
  match (s.task core).mq with
  | ⟨_, .histClr, _⟩ :: _ =>
    if s.matrixRuns core then .next ((s.modTask core (fun t => { t with bins := Vector.replicate 256 0#32 })).popM core)
    else .next s
  | _ => .next s

/-- HIST_RD_AT_HEAD (R250): one element of bins, when a slot is free. -/
def execHistRdAtHead (core : Nat) (s : State) : Out :=
  match (s.task core).mq with
  | ⟨_, .histRd q, _⟩ :: _ =>
    if s.matrixRuns core && s.qroom core q && !s.pushedNow core q then
      let b := (s.task core).bins
      .next ((s.enqueue core q (imageOf (fun i => (b[i]?.getD 0#32).toNat))).popM core)
    else .next s
  | _ => .next s

/-- SHARE_GROUP_TIMEOUT (R222): 65,536 cycles after the first bind of a group that has not started, 0x24 in every member. -/
def execShareGroupTimeout (i : Nat) (s : State) : Out :=
  match NMap.get s.shares i with
  | some x =>
    if !x.started && decide (65536 ≤ (s.cyc - x.since).toNat) then
      .next ({ s with shares := NMap.del s.shares i } |> fun s => x.members.foldl (fun s m => s.takeKill m.1 .a 0x24#8 0#32) s)
    else .next s
  | none => .next s

/-- Whether a collective instance still owes a task the end of a command: its own writes are not all home (R184, R231). -/
def CollInst.owes (x : CollInst) (uid n : Nat) : Bool :=
  match x.work with
  | none => x.contribs.any (fun b => b.uid == uid && b.cmd == n)
  | some l => l.any (fun p => p.dest.uid == uid && p.dest.cmd == n)

/-- SETTER_TAKES_EFFECT (R145, R223, R263): setter `i` of a task, running, saved or ended with chains that run on, once the commands it waits for have completed. -/
def execSetterTakesEffect (uid i : Nat) (s : State) : Out :=
  let t := s.flagTask uid
  match t.setters[i]? with
  | none => .next s
  | some w =>
    let busy (n : Nat) := t.mq.any (·.id == n) || t.cq.any (·.id == n) || s.cores.any (fun x => x.2.chains.any (·.id == n))
      || s.collectives.any (·.owes uid n)
    if w.deps.any busy then .next s
    else
      .next (s.modFlags uid (fun t =>
        let y := t.flag w.flag
        { t with setters := removeAt t.setters i }.setFlag w.flag { y with done := y.done + 1#32 }))

end Sys2Proof.Machine
end

