-- ==== Sys2Proof/Machine/Starts.lean ====
section
/-! DEFINITION. How tasks start, are saved and are restored (R33, R110, R152, R160, R226, R259 to R267, R280, R285). -/
namespace Sys2Proof.Machine

/-! Launch (R33). -/

/-- DOMS of a task on a core (R110). -/
def domsOf (part pkg c w h tidx : Nat) : BitVec 52 :=
  BitVec.ofNat 52 (tidx + 2 ^ 6 * (w - 1) + 2 ^ 9 * (h - 1) + 2 ^ 12 * (c % 8) + 2 ^ 15 * (c % 64 / 8) + 2 ^ 18 * quadPos c
    + 2 ^ 20 * (quadOf c % 16) + 2 ^ 24 * (c / 64) + 2 ^ 27 * pkg + 2 ^ 40 * part)

/-- How many entries of a context's table are free (R160). -/
def Context.freeCount (x : Context) : Nat :=
  x.petSize - 1 - (x.pet.filter (fun e => decide (1 ≤ e.1) && e.2.state != .free)).length
/-- Whether `n` entries of a context are free together. -/
def State.entriesFree (s : State) (ctx n : Nat) : Bool :=
  match NMap.get s.contexts ctx with
  | some x => decide (n ≤ x.freeCount)
  | none => false

/-- Memory with a range reading zero. -/
def Memory.clear (m : Memory) (a n : Nat) : Memory := m.filter (fun c => decide (c.1 < a) || decide (a + n ≤ c.1))

/-- A scratchpad entry of a task (R152, R160). -/
def scratchEntry (w : BitVec 22) (gen : BitVec 12) (kid uid c : Nat) : PetEntry :=
  ⟨.active, .scratchpad, true, true, false, false, 0, 0, gen, kid, 0, lk0 w, [], poolBase c + scBase w, c, 0#64, uid, false⟩

/-- The registers of a task at its launch (R33, R226). -/
def launchState (r : RingRec) (w : BitVec 22) (uid : Nat) (frameOk : Bool) (doms : BitVec 52) (k0 : Word32) : Task :=
  let e : BitVec 32 := BitVec.ofNat 32 r.record.entry
  { Task.reset with
    uid := uid, kid := r.key, ctx := r.ctx, part := r.part, record := r.record, frameOk := frameOk, partw := w, doms := doms
    dqb := BitVec.ofNat 22 (dqBase w), dql := BitVec.ofNat 17 (dqCap w)
    a := (((Vector.replicate 32 0#64).set 1 (BitVec.ofNat 64 r.record.foff)).set 2 (BitVec.ofNat 64 r.record.joff)).set 31 (BitVec.ofNat 64 (lk0 w))
    k := (((Vector.replicate 16 0#32).set 0 k0).set 1 r.record.ftok).set 2 r.record.jtok
    seqA := { Seq.reset with pc := e }
    seqX := { Seq.reset with pc := e } }

/-- A core where a record starts: the record is in its shadow slot no longer, and claims it no longer (R118, R119). -/
def Core.leaveRecord (x : Core) (i : Nat) : Core :=
  { x with
    shadow := match x.shadow with
      | some r => if r.id = i then none else some r
      | none => none
    claim := if x.claim = some i then none else x.claim
    held := if x.mode = .idle ∧ (x.claim = some i ∨ x.shadow.map (·.id) = some i) then none else x.held }

/-- Every core that a record was staged on or claimed is free of it. -/
def State.leaveCores (s : State) (i : Nat) : State := { s with cores := NMap.mapv s.cores (fun _ x => x.leaveRecord i) }

/-- Starts member `tidx` of a record's team on a core (R33, R147, R160): nothing where no entry is free. -/
def State.startTask (s : State) (r : RingRec) (k : Kernel) (team tidx c : Nat) : State :=
  match s.freeEntry r.ctx with
  | none => s
  | some i =>
    let gen := (s.entry r.ctx i).gen
    let uid := s.fresh
    let kid := r.key
    let doms := domsOf r.part (s.partOf r.part).pkgIdx c r.record.width r.record.height tidx
    let t := launchState r k.partw uid (s.frameUsable r.ctx r.record) doms (handleOf gen i)
    let x : Core := { (s.core c).leaveRecord r.id with
      mode := .run, task := t, restoring := none, level := r.level, group := r.group, written := 0#1536, blockedFor := 0, idleFor := 0
      keptLease := none }
    let m := Member.first kid r.part team tidx r.record.width r.record.height r.group c
    let mem := Memory.clear (Memory.clear s.mem (poolBase c) (4096 * pwVregs k.partw)) (poolBase c + zBase k.partw) (131072 * pwTiles k.partw)
    (({ s with fresh := s.fresh + 1, mem := mem }.setEntry r.ctx i (scratchEntry k.partw gen kid uid c)).setCore c x).setMember uid m

/-- The other packages of the partition hear where the tasks of a launch group's record have started (R147) (log 47). -/
def State.tellStart (s : State) (r : RingRec) (cores : List Nat) : State :=
  let p := s.partOf r.part
  match r.group with
  | some g => if 1 < p.packages.length then s.send (.started r.part g (cores.map (fun c => (p.pkgIdx, c)))) else s
  | none => s

/-- Starts a record on its cores, in TIDX order (R117, R118). -/
def State.launchRecord (s : State) (r : RingRec) (cores : List Nat) : State :=
  match s.kernel r.key with
  | none => s
  | some k =>
    (((List.range cores.length).foldl (fun u j => u.startTask r k s.fresh j (cores[j]?.getD 0)) s).leaveCores r.id).tellStart r cores

/-! Save (R262, R264, R266). -/

/-- Cores that hold the running, saved or restored tasks of a task's team. -/
def State.teamCores (s : State) (uid : Nat) : List Nat :=
  let team := (s.member uid).team
  (s.cores.filter (fun x => x.2.holdsTask && (s.member x.2.task.uid).team == team)).map (·.1)

/-- A sequencer as an image holds it: what belongs to the cycle is over (R24, R262). -/
def Seq.saved (q : Seq) : Seq :=
  { q with ewait := .idle, issued := false, blocked := false, flushing := none, held := none, seenMarks := q.marks, bqFresh := 0 }

/-- An EWAIT that has not completed is saved as not issued, its claim given back (R262), and so is a held access (R165) (log 25). -/
def Task.unclaim (t : Task) (d : Side) : Task :=
  let q := t.seq d
  let t := match q.ewait with
    | .claimed f _ => t.setFlag f { t.flag f with claimed := (t.flag f).claimed - 1#32 }
    | .holding .. | .idle => t
  t.setSeq d q.saved

/-- The registers of a task as its image holds them (R262, R280, R285, R287): nothing of the cycle is left, and a side that waits without
the other has not reached its word. Images that X has taken for an NST whose A half is still to come stay in `nstX`, in the image's
device-private part (R203, R207) (log 98). -/
def Task.saved (t : Task) (arrived : Bool) : Task :=
  let t := { (t.commit.unclaim .a).unclaim .x with yreq := 0#42, yseen := false, ycause := 0, mheld := none }
  { t with
    seqA := { t.seqA with waiting := t.seqA.waiting && arrived }, seqX := { t.seqX with waiting := t.seqX.waiting && arrived }
    q := t.q.map QState.newCycle }

/-- Writes bytes of an image through the frame's token (R259): the state, or whether the write is held. -/
inductive FrameWrite where
  | written (s : State)
  | held (at_ : Held)
  | failed

/-- Writes `n` bytes of a number at a frame offset (R259); held at an entry under revocation or at the in-flight bound (R161, R165). -/
def State.frameWrite (s : State) (ctx : Nat) (h : Word32) (off n data : Nat) : FrameWrite :=
  match s.tokenCheck ctx h off n true with
  | .held => .held (some (ctx, handleIndex h))
  | .done none _ _ => .failed
  | .done (some i) m _ =>
    if m < n then .failed
    else if (s.entry ctx i).infl = inflMax then .held (some (ctx, i))
    else
      let e := s.entry ctx i
      .written (s.writeCells ((e.pieces (s.entrySwz e) n off 0).flatMap
        (fun p => p.bytes.map (fun b => (b.2, BitVec.ofNat 8 (data / 2 ^ (8 * b.1)))))))

/-- Writes a list of parts of an image: offset, length, data. -/
def State.frameWrites (s : State) (ctx : Nat) (h : Word32) : List (Nat × Nat × Nat) → FrameWrite
  | [] => .written s
  | (off, n, data) :: l =>
    match s.frameWrite ctx h off n data with
    | .written s => s.frameWrites ctx h l
    | .held p => .held p
    | .failed => .failed

/-- The written pool lines of a core with what they hold (R261). -/
def State.writtenLines (s : State) (c : Nat) : List (Nat × Nat) :=
  (List.range 1536).filterMap (fun i => if (s.core c).written.getLsbD i then some (i, (s.poolLine c (4096 * i)).toNat) else none)

/-- Whether a member stands at a BAR word that it has arrived at, completed meanwhile or not (R148, R149). -/
def Member.atBarrier (m : Member) : Bool := m.arrived.isSome || m.released

/-- The members of a team as their images hold them, in TIDX order (R266). -/
def State.teamImage (s : State) (uid : Nat) : List SavedTask :=
  let m := s.member uid
  (List.range (m.width * m.height)).map (fun j =>
    let live := (s.teamCores uid).find? (fun c => (s.member (s.task c).uid).tidx == j)
    match live with
    | some c =>
      let t := (s.task c).saved (s.member (s.task c).uid).atBarrier
      ⟨{ t with lease := (s.core c).keptLease.getD t.lease }, (s.core c).written, false, none, false⟩
    | none => ⟨{ Task.reset with uid := (s.teamMember uid j).getD 0 }, 0#1536, true, none, false⟩)

/-- A member is saved from now on, or is so no longer; the peers of a launch group hear of it (R296). -/
def State.setAway (s : State) (uid : Nat) (b : Bool) : State :=
  let m := s.member uid
  let u := s.setMember uid { m with away := b }
  if m.group.isSome && decide (1 < (s.partOf m.part).packages.length) then u.send (.away m.part uid b) else u

/-- Frees a core whose task has been saved (R222, R262, step 7). -/
def State.freeSaved (s : State) (c : Nat) : State :=
  let t := s.task c
  let s := (s.leaveShares c).setAway t.uid true
  s.setCore c { s.core c with mode := .idle, group := none, level := 0, blockedFor := 0, idleFor := 0, idleSince := s.cyc,
                               held := none, keptLease := none }

/-- The first page of an extent that a walk misses, as an address. -/
def State.missingAt (s : State) (ctx part va len : Nat) : Nat → Nat → Nat
  | 0, off => va + off
  | fuel + 1, off =>
    if len ≤ off then va
    else
      match (s.walk ctx part (va + off)).1 with
      | .page p => s.missingAt ctx part va len fuel (off + (p.frame.size - p.skip (va + off)))
      | .miss | .malformed => va + off

/-- The address that a suspended task's TRANS missed (R264). -/
def State.missedBy (s : State) (c : Nat) : BitVec 64 :=
  let t := s.task c
  match decode (s.curWord c .a) with
  | .ok (.trans _ d o _ _) => BitVec.ofNat 64 (s.missingAt t.ctx t.part (t.areg d.toNat).toNat (t.areg o.toNat).toNat 65538 0)
  | _ => 0#64

/-- Notes that the frame access of a save or a restore on a core is held (R165). -/
def State.noteFrame (s : State) (c : Nat) (p : Held) : State := s.setCore c { s.core c with held := p }

/-- The image of a team goes to its frame, its cores are free, and its record returns with IMG = 1 (R262 to R266, R285): to the
head of the ring of its PRIO (log 85), full or not (log 84). -/
def State.saveTeam (s : State) (core : Nat) (cs : List Nat) : State :=
  let t := s.task core
  let rec_ := (t.record.withImg true).stamped s.cyc
  let img := s.teamImage t.uid
  let susp := cs.find? (fun c => (s.core c).mode == .save true)
  let header (j : Nat) (x : SavedTask) : List (Nat × Nat × Nat) := [(t.record.foff + imageSize * j, 16384, s.headerOf rec_ img susp.isSome x)]
  let lines (j c : Nat) := (s.writtenLines c).map (fun p => (t.record.foff + imageSize * j + 16384 + 4096 * p.1, 4096, p.2))
  let parts := (List.range img.length).flatMap (fun j =>
    match img[j]? with
    | none => []
    | some x =>
      header j x ++ (match cs.find? (fun c => (s.task c).uid == x.task.uid) with
        | some c => lines j c
        | none => []))
  match s.frameWrites t.ctx t.record.ftok parts with
  | .held p => s.noteFrame core p
  | .failed => s.takeKill core .a 0x14#8 0#32
  | .written u =>
    -- a miss that only REDUCED has made is completed where the package has come to FULL meanwhile (R325)
    let place : RecPlace := match susp with
      | some c =>
        let reduced := s.stageMiss (s.core c).missedReduced t.ctx t.part (s.missedBy c).toNat
        if reduced && s.device.stage == .full then .ring else .fault (s.missedBy c) (s.task c).uid reduced
      | none => .ring
    let r : RingRec := ⟨s.fresh, rec_, t.part, t.ctx, core / 64, t.record.prio, s.cyc.setWidth 40, img, (s.member t.uid).group, place, none, [], none⟩
    let u := cs.foldl (fun u c => u.freeSaved c) { u with fresh := s.fresh + 1, free := s.free + 1 }
    let u := { u with records := r :: u.records }
    match susp with
    | some c => if place = .ring then u else u.notify (.pageMissing t.part t.ctx (s.missedBy c))
    | none => u

/-- Completes a SPAWN or JOIN whose record a save waits for (R262, step 2). -/
def State.pushForSave (s : State) (c : Nat) : State :=
  match (s.task c).push with
  | some r => if s.pushRoom c r then (s.pushOrHold c r).retire c .a else s
  | none => s

/-- Step 4 of a save (R224, R262): the matrix queue has stopped; the lease state is recorded and the lease released. -/
def State.stopMatrix (s : State) (c : Nat) : State :=
  (s.setCore c { s.core c with keptLease := some (s.task c).lease }).releaseLease c

/-- Step 4 on every core of a team that has come to it, or step 2 where records wait to be pushed (R262). -/
def State.saveSteps (s : State) (cs : List Nat) : State :=
  if cs.any (fun c => (s.task c).push.isSome) then cs.foldl (fun s c => s.pushForSave c) s
  else (cs.filter (fun c => (s.core c).keptLease.isNone && s.accessesSettled c && s.matrixStops c)).foldl (fun s c => s.stopMatrix c) s

/-- Whether a kernel's death has begun (R268). -/
def State.dyingKernel (s : State) (kid : Nat) : Bool := (s.kernel kid).any (·.dying.isSome)

/-- SAVE_COMPLETE (R262, R264, R266, R270): the next step of a team's save: every member stops, settles, drains, stops its matrix queue, ends its
chains' pool work; then the image is written (log 17). -/
def execSaveComplete (core : Nat) (s : State) : Out :=
  match (s.core core).mode with
  | .save _ =>
    let cs := s.teamCores (s.task core).uid
    -- the death of the kernel abandons the save (R270)
    if s.dyingKernel (s.task core).kid then .next s else
    let running := cs.filter (fun c => (s.core c).mode == .run)
    let toStop := running.filter (fun c => !s.endIssued c)
    if !toStop.isEmpty then .next (toStop.foldl (fun s c => s.startSave c false) s)
    else if !running.isEmpty || cs.any (fun c => (s.core c).mode == .restore) then .next s
    else if cs.any (fun c => !(s.task c).frameOk) then .next (s.takeKill core .a 0x14#8 0#32)
    else if cs.any (fun c => (s.core c).keptLease.isNone) then .next (s.saveSteps cs)
    else
      let r := cs.foldl (fun (a : State × Bool) c => let y := a.1.endPoolWork c (s.task c).uid; (y.1, a.2 || y.2)) (s, false)
      -- step 3 holds again: a word that X was still to issue may have added to its pending set (R32, R180)
      if r.2 || cs.any (fun c => !s.accessesSettled c) then .next r.1 else .next (r.1.saveTeam core cs)
  | .idle | .run | .restore | .stopped => .next s

/-- FORCED_SAVE (R265, R266, R270, R280): at the deadline every running member that has issued no ending word starts its save. -/
def execForcedSave (core : Nat) (s : State) : Out :=
  if (s.core core).mode = .run ∧ s.deadlineDue core ∧ !s.endIssued core then
    if (s.task core).frameOk then
      let cs := (s.teamCores (s.task core).uid).filter (fun c => (s.core c).mode == .run && !s.endIssued c)
      .next (cs.foldl (fun s c => s.startSave c false) s)
    else .next (s.takeKill core .a 0x14#8 0#32)
  else .next s

/-! Restore (R267, R287). -/

/-- The header of member `j` of a record's image as the frame holds it (R267, log 10). -/
def State.readHeader (s : State) (r : RingRec) (j : Nat) : Except Stop Nat :=
  (s.engineRead r.ctx r.record.ftok ((r.record.foff + imageSize * j : Nat) : Int) 16384).map (·.1)

/-- The registers of a restored task (R259, R265, R267): those of its header, new DOMS, streams unshared, the lease waited for, the frame
checked again. -/
def restoredTask (r : RingRec) (t : Task) (frameOk : Bool) (doms : BitVec 52) : Task :=
  { t with
    doms := doms, record := r.record, frameOk := frameOk, raised := ⟨0#7, 0#6, 0#3, 0#16⟩
    lease := if t.lease = .none then .none else .waiting
    streams := t.streams.map (fun y => { y with share := none }) }

/-- A member of an image as the restore reads it (R267): by the header in the frame, or by what migration messages have brought (R293). -/
def State.readImage (s : State) (r : RingRec) (x : SavedTask) (j : Nat) : Except Stop SavedTask :=
  match x.lines with
  | some _ => .ok x
  | none => (s.readHeader r j).map (fun h => { x with task := x.task.ofHeader h, written := writtenOf h })

/-- The registers of an image go into a core (R267): the scratchpad gets the core's pool. -/
def State.beginRestore (s : State) (r : RingRec) (x : SavedTask) (j c : Nat) : Except Stop State :=
  if x.ended then .ok s
  else do
    let x ← s.readImage r x j
    let doms := domsOf r.part (s.partOf r.part).pkgIdx c r.record.width r.record.height j
    let t := restoredTask r x.task (s.frameUsable r.ctx r.record) doms
    let y : Core := { (s.core c).leaveRecord r.id with
      mode := .restore, task := t, restoring := some x, level := r.level, group := (s.member t.uid).group
      written := x.written, blockedFor := 0, idleFor := 0, held := none, keptLease := none }
    return (s.setCore c y).modContext r.ctx (fun z => { z with
      pet := NMap.mapv z.pet (fun _ e =>
        if e.owner = t.uid ∧ e.origin = .scratchpad then { e with base := poolBase c + scBase t.partw, core := c } else e) })

/-- Begins the restore of every member of a record on its cores, in TIDX order; the record is staged and claims no longer. -/
def State.restoreRecord (s : State) (r : RingRec) (cores : List Nat) : Except Stop State := do
  let u ← (List.range cores.length).foldlM (fun s j =>
    match r.img[j]? with
    | some x => s.beginRestore r x j (cores[j]?.getD 0)
    | none => .ok s) s
  return u.leaveCores r.id

/-- The written lines of a member's image in the frame, by number (R260, R261). -/
def State.frameLines (s : State) (ctx : Nat) (rec_ : Rec) (j : Nat) (written : BitVec 1536) : Except Stop (List (Nat × Nat)) :=
  ((List.range 1536).filter written.getLsbD).mapM (fun i =>
    (s.engineRead ctx rec_.ftok ((rec_.foff + imageSize * j + 16384 + 4096 * i : Nat) : Int) 4096).map (fun v => (i, v.1)))

/-- Puts lines into a pool, the others zero (R261). -/
def State.fillPool (s : State) (c : Nat) (l : List (Nat × Nat)) : State :=
  { s with mem := l.foldl (fun m x => m.writeRun (poolBase c + 4096 * x.1) (bytesOf 4096 x.2)) (Memory.clear s.mem (poolBase c) poolSize) }

/-- Reads an image's written lines into a pool, from the frame or from migration messages (R261, R267, R293). -/
def State.restoreLines (s : State) (c : Nat) (x : SavedTask) : Except Stop State :=
  let t := s.task c
  match x.lines with
  | some l => .ok (s.fillPool c l)
  | none => (s.frameLines t.ctx t.record (s.member t.uid).tidx x.written).map (s.fillPool c)

/-- The task on a core resumes with its pool in place (R267); one that waits for a free array takes it (log 45). -/
def State.resumeTask (s : State) (c : Nat) : State :=
  let uid := (s.task c).uid
  let s := (s.setCore c { s.core c with mode := .run, restoring := none, held := none }).setAway uid false
  if (s.task c).lease = .waiting ∧ (s.quad (quadOf c)).holder.isNone then s.grantLease c else s

/-- Cores on which the record in a core's shadow slot starts. -/
def RingRec.cores (r : RingRec) (core : Nat) : List Nat := if r.claim.isEmpty then [core] else r.claim

/-- CONTEXT_RESTORE (R119, R267): registers once the core is idle, then the pool part. -/
def execContextRestore (core : Nat) (s : State) : Out :=
  match (s.core core).mode, (s.core core).shadow, (s.core core).restoring with
  | .idle, some r, _ =>
    if r.img.isEmpty || s.device.dispatchStopped then .next s
    else settleEvent s (s.noteFrame core) (s.restoreRecord r (r.cores core))
  | .restore, _, some x => settleEvent s (s.noteFrame core) ((s.restoreLines core x).map (·.resumeTask core))
  | _, _, _ => .next s

/-- TASK_LAUNCH (R33, R118, R119): the record staged on an idle core starts, a team with all its members. -/
def execTaskLaunch (core : Nat) (s : State) : Out :=
  match (s.core core).mode, (s.core core).shadow with
  | .idle, some r =>
    if r.img.isEmpty && !s.device.dispatchStopped && s.entriesFree r.ctx r.record.tasks then .next (s.launchRecord r (r.cores core)) else .next s
  | _, _ => .next s

/-! Fault completion (R264). -/

/-- The package core a saved task last ran on. -/
def SavedTask.lastCore (x : SavedTask) : Nat :=
  64 * (x.task.doms.extractLsb' 24 3).toNat + 8 * (x.task.doms.extractLsb' 15 3).toNat + (x.task.doms.extractLsb' 12 3).toNat

/-- FAULT_COMPLETE (R264): the record returns to the head of the ring of its PRIO, full or not (log 84), with a new STAMP. -/
def execFaultComplete (part i : Nat) (s : State) : Out :=
  match s.records.find? (fun r => r.id == i && r.part == part) with
  | some r =>
    match r.place with
    | .fault .. =>
      let r' := { r with record := r.record.stamped s.cyc, stamp := s.cyc.setWidth 40, level := r.record.prio, place := .ring, headSince := none }
      .next { s with records := r' :: s.records.filter (fun x => x.id != i) }
    | .ring | .held | .offered _ | .moving .. | .awaited .. => .next s
  | none => .next s

/-- FAULT_FAIL (R264): the kernel is killed with cause 0x12, whose record names the member that missed (R257). -/
def execFaultFail (part i : Nat) (s : State) : Out :=
  match s.records.find? (fun r => r.id == i && r.part == part) with
  | some r =>
    match r.place with
    | .fault _ uid _ =>
      .next (s.killKernel r.key (((r.img.find? (fun x => x.task.uid == uid)).map (·.lastCore)).getD 0) 0x12#8 (s.pcsOf uid))
    | .ring | .held | .offered _ | .moving .. | .awaited .. => .next s
  | none => .next s

end Sys2Proof.Machine
end

