-- ==== Sys2Proof/Machine/Placement.lean ====
section
/-! DEFINITION. The dispatchers (R113 to R119, R265): candidates, the choice, shadow slots and yield requests, promotion, team
claims. -/
namespace Sys2Proof.Machine

/-! Dies and tenancy (R115, R324, R326). -/

/-- A core die. -/
def State.die (s : State) (d : Nat) : Die := s.dies[d]?.getD Die.reset
/-- Replaces a core die. -/
def State.setDie (s : State) (d : Nat) (x : Die) : State := { s with dies := s.dies.setIfInBounds d x }
/-- Whether a partition is in the tenancy of a core (R115, R314). -/
def State.tenant (s : State) (c p : Nat) : Bool := (NMap.get s.partitions p).isSome && (s.partOf p).own.quads.contains (quadOf c)
/-- Whether a die dispatches: ACTIVE or IDLE, in REDUCED or FULL, not stopped by a trip or an error (R324, R326, R328,
R330). -/
def State.dispatches (s : State) (d : Nat) : Bool :=
  let x := s.die d
  (x.power == .active || x.power == .idle) && !x.entering && !s.device.dispatchStopped && !s.device.halted
    && (s.device.stage == .reduced || s.device.stage == .full)
/-- Whether a core is idle with an empty shadow slot (R117). -/
def State.vacant (s : State) (c : Nat) : Bool := (s.core c).mode == .idle && (s.core c).shadow.isNone

/-! Placements (R117, R266). -/

/-- The cores of a rectangle with an origin on a die, in TIDX order. -/
def rectangle (d x0 y0 w h : Nat) : List Nat := (List.range (w * h)).map (fun j => 64 * d + 8 * (y0 + j / w) + x0 + j % w)
/-- Origins of a shape, lowest row first, then lowest column. -/
def origins (w h : Nat) : List (Nat × Nat) := (List.range (9 - h)).flatMap (fun y => (List.range (9 - w)).map (fun x => (x, y)))
/-- Whether position `j` of a record's team needs its core: not where the image says ENDED. -/
def RingRec.needs (r : RingRec) (j : Nat) : Bool :=
  match r.img[j]? with
  | some x => !x.ended
  | none => true
/-- Whether an origin keeps the parity of a saved team (R266). -/
def RingRec.parityOk (r : RingRec) (o : Nat × Nat) : Bool :=
  r.img.isEmpty || (let p := originParity r.record.width r.img; o.1 % 2 == p.1 && o.2 % 2 == p.2)
/-- Whether every core that a rectangle must give passes a test. -/
def RingRec.allCores (r : RingRec) (cs : List Nat) (f : Nat → Bool) : Bool :=
  (List.range cs.length).all (fun j => !r.needs j || f (cs[j]?.getD 0))
/-- The cores of a rectangle that its record needs (R266). -/
def RingRec.neededOf (r : RingRec) (cs : List Nat) : List Nat :=
  (List.range cs.length).filterMap (fun j => if r.needs j then cs[j]? else none)
/-- Where a record's team can be placed on a die, in order of preference (R117): the cores of each rectangle. -/
def State.placements (s : State) (d : Nat) (r : RingRec) : List (List Nat) :=
  (((origins r.record.width r.record.height).filter r.parityOk).map
    (fun o => rectangle d o.1 o.2 r.record.width r.record.height)).filter (fun cs =>
      cs.all (fun c => s.tenant c r.part) && r.allCores cs (fun c => s.vacant c && ((s.core c).claim.isNone || (s.core c).claim == some r.id)))
/-- The placement that the dispatcher takes. -/
def State.placement (s : State) (d : Nat) (r : RingRec) : Option (List Nat) := (s.placements d r).head?

/-! Eligible records and candidates (R116). -/

/-- Whether the members' scratchpad entries can be allocated; an image has its own (R160, R267). -/
def State.allocatable (s : State) (r : RingRec) : Bool := !r.img.isEmpty || s.entriesFree r.ctx r.record.tasks
/-- Whether a record is eligible on its die (R116); `single` asks for a single task. -/
def State.eligible (s : State) (single : Bool) (r : RingRec) : Bool :=
  r.place == .ring && r.claim.isEmpty && s.allocatable r
    && (if r.record.tasks = 1 then true else !single && (s.placement r.die r).isSome)
/-- The first eligible record of a ring, at most 16 deep (R116). -/
def State.firstEligible (s : State) (single : Bool) (p d level : Nat) : Option RingRec :=
  ((s.ring p d level).take 16).find? (s.eligible single)
/-- The partitions that a core may dispatch for: in its tenancy and in slice. -/
def State.tenants (s : State) (c : Nat) : List Nat := (NMap.keys s.partitions).filter (fun p => s.tenant c p && (s.partOf p).inSlice)
/-- The highest level at which a test holds. -/
def topLevel (f : Nat → Bool) : Option Nat := [3, 2, 1, 0].find? f
/-- The quota window of a cycle is open: one that has just begun has no use yet (R317). -/
def Partition.openWindow (p : Partition) (cyc : BitVec 64) : Partition :=
  let w := cyc.toNat / p.pqwin.toNat
  if w = p.window then p else { p with useCyc := 0, useBit := 0, window := w }
/-- Whether a partition is over quota (R115, R316): a limit of 0 is none. -/
def Partition.overQuota (p : Partition) : Bool :=
  (p.pqcyc != 0#64 && decide (p.pqcyc.toNat ≤ p.useCyc)) || (p.pqbit != 0#64 && decide (p.pqbit.toNat ≤ p.useBit))

/-- The next partition of a list after another, wrapping; the lowest where the pointer names none (R116, step 4). -/
def nextPart (l : List Nat) : Option Nat → Option Nat
  | none => l.head?
  | some p => match l.find? (fun q => decide (p < q)) with
    | some q => some q
    | none => l.head?

/-- What the dispatcher chooses for a core (R116): the record, its level, and the level's new pointer and count. -/
def State.choose (s : State) (c : Nat) (single : Bool) : Option (RingRec × Nat × RoundRobin) :=
  let d := c / 64
  let l := s.tenants c
  match topLevel (fun v => l.any (fun p => (s.firstEligible single p d v).isSome)) with
  | none => none
  | some v =>
    let at_ := l.filter (fun p => (s.firstEligible single p d v).isSome)
    let under := at_.filter (fun p => !(s.partOf p).overQuota)
    let left := if under.isEmpty then at_ else under
    let rr := (s.die d).rr[v]?.getD ⟨none, 0⟩
    let stay := match rr.part with
      | some p => left.contains p && decide (rr.count < (s.partOf p).pwgt.toNat)
      | none => false
    let next : Option (Nat × Nat) := if stay then rr.part.map (fun p => (p, rr.count + 1)) else (nextPart left rr.part).map (fun p => (p, 1))
    match next with
    | none => none
    | some (p, n) => (s.firstEligible single p d v).map (fun r => (r, v, ⟨some p, n⟩))

/-! Shadow slots and yield requests (R119, R265). -/

/-- Whether a core runs a task, or restores one that runs on. -/
def Core.running (x : Core) : Bool := x.mode == .run || x.mode == .restore

/-- Sets a yield request in every running member of the team on a core, where none is pending (R265, R266); never in REDUCED (R325).
`cause` is the record that asks for it, 0 for a slice end. -/
def State.requestYield (s : State) (c : Nat) (why : Bool) (cause : Nat) : State :=
  if s.device.stage = .reduced then s
  else
    let y : BitVec 42 := s.cyc.setWidth 40 ++ (BitVec.ofBool why ++ 1#1 : BitVec 2)
    (s.teamCores (s.task c).uid).foldl (fun s m =>
      if (s.core m).running ∧ !(s.task m).yreq.getLsbD 0 then s.modTask m (fun t => { t with yreq := y, ycause := cause }) else s) s

/-- Clears, short of its deadline, the request of WHY = 0 in the team on a core that a record caused: the record has left the shadow slot
(R265). -/
def State.cancelYield (s : State) (c i : Nat) : State :=
  (s.teamCores (s.task c).uid).foldl (fun s m =>
    if s.deadlineDue m then s
    else s.modTask m (fun t => if t.ycause = i ∧ !t.yreq.getLsbD 1 then { t with yreq := t.yreq &&& ~~~1#42 } else t)) s

/-- The core whose shadow slot takes a single-task record of a level (R265): none idle, then the emptiest slot by the running task's
level, then the slot with the lowest record below the level. -/
def State.shadowPick (s : State) (d p level : Nat) : Option Nat :=
  let cs := ((List.range 64).map (fun i => 64 * d + i)).filter (fun c => s.tenant c p && (s.core c).claim.isNone)
  let least (f : Nat → Nat) (l : List Nat) : Option Nat :=
    l.foldl (fun b c => match b with
      | none => some c
      | some x => if f c < f x then some c else some x) none
  if cs.any s.vacant then none
  else
    match least (fun c => (s.core c).level) (cs.filter (fun c => (s.core c).mode == .run && (s.core c).shadow.isNone)) with
    | some c => some c
    | none =>
      let shLevel (c : Nat) : Nat := match (s.core c).shadow with
        | some r => r.level
        | none => 4
      least shLevel (cs.filter (fun c => decide (shLevel c < level)))

/-- Puts a chosen record into a core's shadow slot, with the round-robin change of the choice (R116, R119). -/
def State.stage (s : State) (c v : Nat) (rr : RoundRobin) (r : RingRec) : State :=
  let d := s.die (c / 64)
  let s := (s.setDie (c / 64) { d with rr := d.rr.setIfInBounds v rr }).setCore c { s.core c with shadow := some r }
  { s with records := s.records.filter (fun x => x.id != r.id) }

/-- Withdraws the record in a core's shadow slot (R119): back to the head of its ring, full or not (log
84), its claims released, its request cancelled. -/
def State.withdraw (s : State) (c : Nat) : State :=
  match (s.core c).shadow with
  | none => s
  | some r =>
    let s := (s.cancelYield c r.id).leaveCores r.id
    { s with records := { r with claim := [] } :: s.records }

/-- Claims cores for a record (R118). -/
def State.claimCores (s : State) (cs : List Nat) (id : Nat) : State :=
  cs.foldl (fun s c => s.setCore c { s.core c with claim := some id }) s

/-- Whether the dispatcher serves another core of the die before this one: both became idle in the same cycle, the other has the lower
index and has a candidate (R116) (log 67). -/
def State.servedLater (s : State) (c : Nat) : Bool :=
  (List.range (c % 64)).any (fun i =>
    let d := c / 64 * 64 + i
    (NMap.get s.cores d).isSome && s.vacant d && (s.core d).claim.isNone && (s.core d).idleSince == (s.core c).idleSince
      && (s.choose d false).isSome)

/-- What an idle core takes (R116, R117): a single task into its own slot, a team on the cores it claims. -/
def State.dispatchIdle (s : State) (core : Nat) (r : RingRec) (v : Nat) (rr : RoundRobin) : State :=
  if r.record.tasks = 1 then s.stage core v rr r
  else
    match s.placement r.die r with
    | none => s
    | some cs => (s.claimCores (r.neededOf cs) r.id).stage ((r.neededOf cs).headD core) v rr { r with claim := cs }

/-- Whether a record stands a level above what a shadow slot holds. -/
def Core.shadowBelow (x : Core) (r : RingRec) : Bool :=
  match x.shadow with
  | some y => decide (y.level < r.level)
  | none => true

/-- What the shadow slot of an occupied core takes (R119, R265): only a single task that the slot is picked for; the task that occupies the
core yields to a higher level. -/
def State.dispatchShadow (s : State) (core : Nat) : State :=
  let x := s.core core
  let u := s.withdraw core
  match u.choose core true with
  | none => s
  | some (r, v, rr) =>
    if x.shadowBelow r && s.shadowPick (core / 64) r.part r.level == some core then
      let u := u.stage core v rr r
      if x.level < r.level then u.requestYield core false r.id else u
    else s

/-- DISPATCH_CHOICE (R116, R117, R119, R265): the record that an idle core or a running core's empty shadow slot takes; a record of a
strictly higher level takes the slot from one that has not started. -/
def execDispatchChoice (core : Nat) (s : State) : Out :=
  let x := s.core core
  let mine := x.claim.isNone || x.claim == x.shadow.map (·.id)
  if !s.dispatches (core / 64) || !mine then .next s
  else
    match x.mode with
    | .idle =>
      if x.shadow.isSome then
        let u := s.withdraw core
        match u.choose core false with
        | some (r, v, rr) => if x.shadowBelow r then .next (u.dispatchIdle core r v rr) else .next s
        | none => .next s
      else if s.servedLater core then .next s
      else
        match s.choose core false with
        | some (r, v, rr) => .next (s.dispatchIdle core r v rr)
        | none => .next s
    | .run => .next (s.dispatchShadow core)
    | .save _ | .restore => if x.shadow.isSome then .next (s.dispatchShadow core) else .next s
    | .stopped => .next s

/-- OTHER_DIE_TAKE (R116): an idle core whose die has held no candidate for 2,048 cycles takes a single-task record of another die. -/
def execOtherDieTake (core : Nat) (s : State) : Out :=
  let x := s.core core
  let d := core / 64
  if !s.dispatches d || x.claim.isSome || !s.vacant core || decide (x.idleFor < 2048) || (s.choose core false).isSome then .next s
  else
    let ps := s.tenants core
    let recs (e v : Nat) : List RingRec := ps.flatMap (fun p => ((s.ring p e v).take 16).filter (s.eligible true))
    let others := (List.range 8).filter (fun e => e != d)
    match topLevel (fun v => others.any (fun e => !(recs e v).isEmpty)) with
    | none => .next s
    | some v =>
      let best := others.foldl (fun b e => if (recs b v).length < (recs e v).length then e else b) (others.headD 0)
      match (recs best v).head? with
      | none => .next s
      | some r =>
        .next { s.setCore core { x with shadow := some r } with records := s.records.filter (fun y => y.id != r.id) }

/-! Aging (R114). -/

/-- Applies a function to the record of a number, where it stands. -/
def State.modRecord (s : State) (i : Nat) (f : RingRec → RingRec) : State :=
  { s with records := s.records.map (fun r => if r.id = i then f r else r) }
/-- The record of a number that waits in a ring. -/
def State.ringRecord (s : State) (i : Nat) : Option RingRec := s.records.find? (fun r => r.id == i && r.place == .ring)

/-- PROMOTION (R114, R318): to the tail of the ring one level higher, with a new STAMP (log 44); a full ring lets the record wait (log 83), and
a claim stands with its time (log 91). -/
def execPromotion (i : Nat) (s : State) : Out :=
  match s.ringRecord i with
  | none => .next s
  | some r =>
    let p := s.partOf r.part
    let waited := (s.cyc.setWidth 40 - r.stamp : BitVec 40)
    if p.age != 0#40 && decide (p.age < waited) && decide (r.level < 3) && p.vstate == .running && s.ringRoom r.part r.die (r.level + 1) 1 then
      let r' := { r with level := r.level + 1, stamp := s.cyc.setWidth 40, record := r.record.stamped s.cyc,
                         headSince := if r.claim.isEmpty then none else r.headSince }
      .next { s with records := s.records.filter (fun x => x.id != i) ++ [r'] }
    else .next s

/-! Team claims (R118). -/

/-- Whether a record stands at the head of the highest non-empty level of its partition's rings on its die. -/
def State.atHead (s : State) (r : RingRec) : Bool :=
  match topLevel (fun v => !(s.ring r.part r.die v).isEmpty) with
  | some v => ((s.ring r.part r.die v).head?.map (·.id)) == some r.id
  | none => false

/-- Cycles that a record has stood unplaced at the head of the highest level. -/
def State.headWait (s : State) (r : RingRec) : Nat :=
  match r.headSince with
  | some t => (s.cyc - t).toNat
  | none => 0

/-- The rectangle with the fewest busy cores on a record's die, the lowest first on ties (R118). -/
def State.leastBusy (s : State) (r : RingRec) : Option (List Nat) :=
  let busy (cs : List Nat) : Nat :=
    ((List.range cs.length).filter (fun j => r.needs j && !s.vacant (cs[j]?.getD 0))).length
  let all := ((origins r.record.width r.record.height).filter r.parityOk).map (fun o => rectangle r.die o.1 o.2 r.record.width r.record.height)
  (all.filter (fun cs => cs.all (fun c => s.tenant c r.part) && r.allCores cs (fun c => (s.core c).claim.isNone))).foldl (fun b cs =>
    match b with
    | none => some cs
    | some y => if busy cs < busy y then some cs else some y) none

/-- TEAM_CLAIM (R118): after MIGT ÷ 2 cycles at the head, rounded down, a rectangle is claimed; after offers that all candidates have declined, a
new one in the wait that follows (log 103). -/
def execTeamClaim (i : Nat) (s : State) : Out :=
  match s.ringRecord i with
  | none => .next s
  | some r =>
    if decide (1 < r.record.tasks) && r.claim.isEmpty && s.allocatable r && s.atHead r && (s.partOf r.part).inSlice && s.dispatches r.die
        && (s.placement r.die r).isNone && decide ((s.partOf r.part).migt.toNat / 2 ≤ s.headWait r) then
      match s.leastBusy r with
      | some cs => .next ((s.claimCores (r.neededOf cs) i).modRecord i (fun r => { r with claim := cs }))
      | none => .next s
    else .next s

/-- TEAM_CLAIM_START (R118, R293): the team starts once every claimed core is idle. -/
def execTeamClaimStart (i : Nat) (s : State) : Out :=
  match s.ringRecord i with
  | none => .next s
  | some r =>
    if !r.claim.isEmpty && r.allCores r.claim s.vacant && s.allocatable r && (s.partOf r.part).inSlice && s.dispatches r.die then
      let u := { s with records := s.records.filter (fun x => x.id != i) }
      if r.img.isEmpty then .next (u.launchRecord r r.claim)
      else settleEvent s (s.noteFrame ((r.neededOf r.claim).headD 0)) (u.restoreRecord r r.claim)
    else .next s

end Sys2Proof.Machine
end

