-- ==== Sys2Proof/Machine/Clock.lean ====
section
/-! DEFINITION. The clock (R4, R274): what one cycle changes by itself. -/
namespace Sys2Proof.Machine

/-- A sequencer at the start of a cycle (R20, R24) (log 20). -/
def Seq.newCycle (q : Seq) : Seq := { q with issued := false, blocked := false, seenMarks := q.marks, bqFresh := 0 }

/-- Whether a task has activity that resets the count of R31: engine commands, chains on any core, memory
accesses, a store in the pending set among them (log 101), awaiting registers. -/
def State.active (s : State) (x : Core) : Bool :=
  let t := x.task
  !t.mq.isEmpty || !t.cq.isEmpty || !(s.chainsOf t.uid).isEmpty || !t.loads.isEmpty || !t.atomics.isEmpty
    || t.vatom.isSome || !t.stores.isEmpty || t.push.isSome || t.q.toList.any (fun q => !q.awaiting.isEmpty)
    || t.aAwait.toList.any (fun w => w == .engine || w == .load)

/-- A task at the start of a cycle: its sequencers and queues, and the request that YCHK sees (R279). -/
def Task.newCycle (t : Task) : Task :=
  { t with seqA := t.seqA.newCycle, seqX := t.seqX.newCycle, q := t.q.map QState.newCycle, yseen := t.yreq.getLsbD 0 }

/-- A partition at the start of a cycle: a new quota window has no use yet (R115, R317), and a write of DLT makes room from now on (R322). -/
def Partition.newCycle (p : Partition) (cyc : BitVec 64) : Partition := { p with dltSeen := p.dlt }.openWindow cyc

/-- Core-cycles charged to the partitions whose tasks occupy cores, in the window of the cycle that ends (R115, R286, R317). -/
def State.chargeCycle (s : State) : State :=
  let used (i : Nat) : Nat := (s.cores.filter (fun x => x.2.mode != .idle && x.2.task.part == i)).length
  { s with partitions := NMap.mapv s.partitions (fun i p => { p with useCyc := p.useCyc + used i }.newCycle (s.cyc + 1#64)) }

/-- Whether an idle core counts a cycle without candidate (R116). -/
def State.starved (s : State) (c : Nat) : Bool := s.dispatches (c / 64) && s.vacant c && (s.core c).claim.isNone && (s.choose c false).isNone

/-- The port of a slow tier takes the rows of a store that A waits for, at a moment that the spec leaves open (R192) (log 71). -/
def Task.portCycle (t : Task) (n : Nat) : Task := if Config.portAccepts n then { t with port := none } else t

/-- A core at the start of a cycle (R24, R31, R192): a cycle counts as blocked when both sides have attempted a word in it and stalled. -/
def State.coreCycle (s : State) (c : Nat) (x : Core) : Core :=
  let t := x.task.commit
  let stuck := x.mode == .run && t.seqA.blocked && t.seqX.blocked && !s.active x
  { x with
    task := t.newCycle.portCycle (512 * s.free + c)
    blockedFor := if stuck then x.blockedFor + 1 else 0
    idleFor := if s.starved c then x.idleFor + 1 else 0 }

/-- A record's time at the head of the highest non-empty level (R118): it starts when it comes there, and is void when it leaves; a claim and its
time stand until MIGT (log 91). -/
def State.headTime (s : State) (r : RingRec) : RingRec :=
  if 1 < r.record.tasks ∧ r.place = .ring then { r with headSince := if s.atHead r then some (r.headSince.getD s.cyc) else if r.claim.isEmpty then none else r.headSince } else r

/-- One cycle of the arithmetic clock (R4, R24, R31, R115, R116, R118, R192, R274, R296, R317, R322) (log 2). -/
def State.tick (s : State) : State :=
  let t := s.tickTimers.chargeCycle
  { t with
    cyc := s.cyc + 1#64
    free := s.free + 1
    cores := NMap.mapv s.cores s.coreCycle
    records := s.records.map s.headTime }

end Sys2Proof.Machine
end

