-- ==== Sys2Proof/Machine/Barrier.lean ====
section
/-! DEFINITION. BAR and PHASE (R146 to R149, R177, R185, R205), arrivals from peers (R148, R288), completion and the abort after COLT
(R148, R296). -/
namespace Sys2Proof.Machine

/-- Both sequencers of a core complete the word they wait at (R148). -/
def State.completeBoth (s : State) (c : Nat) : State := (s.retire c .a true).retire c .x true

/-- Releases a member that waits at instance `n` of a scope: both sequencers complete the word, or, while it is saved, its release is
kept for the restore (R148, R149). PB falls by the need where the instance completed (R185). A member elsewhere its own package releases. -/
def State.release (s : State) (sc : Scope) (n : BitVec 32) (pay : Bool) (uid : Nat) : State :=
  let m := s.member uid
  if m.waitsAt sc n ∧ m.pkg.isSome then s.setMember uid { m with arrived := none }
  else if m.waitsAt sc n then
    let need := match s.taskOf uid with
      | some t => (s.barWord t).2
      | none => 0
    let s := if pay then s.modTaskOf uid (fun t => { t with pb := t.pb - BitVec.ofNat 28 need }) else s
    match s.coreOf uid with
    | some c =>
      if (s.core c).mode = .run then (s.completeBoth c).setMember uid { m with arrived := none }
      else s.setMember uid { m with arrived := none, released := true }
    | none => s.setMember uid { m with arrived := none, released := true }
  else s

/-- Whether the arrivals of a member at a scope are told to the peers (R147, R148, R288): at .X in a partition of several packages; at .D and
.P where the member or another of its group runs on a package on which it did not start, since its arrivals still count there (log 90). -/
def State.tells (s : State) (uid : Nat) (sc : Scope) : Bool :=
  let m := s.member uid
  m.group.isSome && decide (1 < (s.partOf m.part).packages.length)
    && (match sc with
        | .x => true
        | .d | .p => decide (512 ≤ m.core) || (s.expected uid sc).any (fun v => (s.member v).pkg.isSome)
        | .q | .t => false)

/-- Tells the peers that a member has arrived at its latest instance of a scope, and whether its own conditions hold (R288). -/
def State.tell (s : State) (uid : Nat) (sc : Scope) (met : Bool) : State :=
  let m := s.member uid
  if s.tells uid sc then s.send (.arrival m.part (m.group.getD 0) uid sc (m.joinedAt sc) met) else s

/-- Tells the peers once that a member that waits has come to meet its own conditions (R148, R288). -/
def State.announce (s : State) (uid : Nat) : State :=
  let m := s.member uid
  match m.arrived with
  | some sc => if !m.told && s.conditionsHold uid then (s.setMember uid { m with told := true }).tell uid sc true else s
  | none => s

/-- A member arrives with both its sequencers waiting (R148): it joins its next instance of the scope, and the peers hear of it. At an instance
already aborted it completes the word at once (R296). -/
def State.arrive (s : State) (c uid : Nat) (sc : Scope) : State :=
  let m := s.member uid
  let n := m.joinedAt sc + 1#32
  let k := s.groupKey uid sc
  let m := { m with joined := m.joined.setIfInBounds (Scope.index sc) n }
  if s.instanceAborted k n false then ((s.completeBoth c).setMember uid m).tell uid sc true
  else
    let met := s.conditionsHold uid
    ((s.setMember uid { m with arrived := some sc, told := met }).startTimer k n false).tell uid sc met

/-- BAR and PHASE on one side (R148, R149, R205): wait, arrive once both wait, complete a word whose instance completed meanwhile. -/
def waitAtBarrier (i : Instr) (sc : BitVec 3) (w : BitVec 1) (a : BitVec 6) (s : State) : Out :=
  settle s.cur s.side s do
    legal i
    if s.side = .a ∧ w = 1#1 then
      let _ ← s.readA s.cur a.toNat
    let uid := (s.task s.cur).uid
    let q := s.seq s.cur s.side
    if !q.waiting then
      let t := s.setSeq s.cur s.side { q with waiting := true, blocked := false }
      return if (s.seq s.cur s.side.other).waiting then t.arrive s.cur uid (Scope.ofCode sc.toNat) else t
    else if (s.member uid).released then
      return (s.completeBoth s.cur).setMember uid { s.member uid with released := false }
    else throw (.stall false)

/-- BAR (R146). -/
def execBar (fs : BitVec 3) (w : BitVec 1) (a : BitVec 6) (s : State) : Out := waitAtBarrier (.bar fs w a) fs w a s
/-- PHASE (R146, R177). -/
def execPhase (fs : BitVec 3) (w : BitVec 1) (a : BitVec 6) (s : State) : Out := waitAtBarrier (.phase fs w a) fs w a s

/-- Whether the instance that a member waits at is complete (R148): every record placed, every expected member arrived, every waiting
member's conditions met. -/
def State.instanceComplete (s : State) (uid : Nat) (sc : Scope) : Bool :=
  let n := (s.member uid).joinedAt sc
  s.groupKnown uid sc && (s.expected uid sc).all (fun v =>
    let m := s.member v
    m.hasArrived sc n && (!m.waitsAt sc n || s.conditionsHold v))

/-- The partition's last completion of a PHASE.X instance is now (R297). -/
def State.notePhase (s : State) (uid : Nat) (sc : Scope) : State :=
  let publishes := match s.taskOf uid with
    | some t => (s.barWord t).1
    | none => false
  if sc == .x && publishes then s.modPartition (s.member uid).part (fun p => { p with phasedAt := some s.cyc }) else s

/-- BARRIER_COMPLETION (R148): the instance at which the task on a core waits completes, or the peers hear of its arrival. -/
def execBarrierCompletion (core : Nat) (s : State) : Out :=
  let uid := (s.task core).uid
  if !(s.core core).holdsTask then .next s
  else
    match (s.member uid).arrived with
    | none => .next s
    | some sc =>
      if s.instanceComplete uid sc then
        let n := (s.member uid).joinedAt sc
        let k := s.groupKey uid sc
        .next (((s.expected uid sc).foldl (fun s v => s.release sc n true v) (s.notePhase uid sc)).stopTimer k n false)
      else .next (s.announce uid)

/-- ARRIVAL (R148, R288): a member of a launch group on another package arrives at an instance, or comes to meet its own conditions
there. -/
def execArrival (group member : Nat) (a : ArrivalIn) (s : State) : Out :=
  match NMap.get s.members member with
  | none => .next s
  | some m =>
    if m.group = some group ∧ m.pkg.isSome ∧ (a.sc = .d ∨ a.sc = .p ∨ a.sc = .x) then
      if a.n = m.joinedAt a.sc then
        .next (if a.met ∧ m.arrived = some a.sc then s.setMember member { m with arrived := none } else s)
      else if reached a.n (m.joinedAt a.sc) then
        let k := s.groupKey member a.sc
        let arrived := if a.met || s.instanceAborted k a.n false then none else some a.sc
        .next ((s.setMember member { m with joined := m.joined.setIfInBounds (Scope.index a.sc) a.n, arrived := arrived }).startTimer k a.n false)
      else .next s
    else .next s

/-- The error word of a collective (R232). -/
def collErrorWord (code : Nat) : Word64 := BitVec.ofNat 64 (2 ^ 63 + 2 ^ 33 + 2 ^ 16 * code)

/-- A member's collective command ends with its word (R231, R232). -/
def State.finishColl (s : State) (b : Contrib) (w : Word64) (err : Bool) : State :=
  s.modTaskOf b.uid (fun t => { t.deliver b.rb w err with cq := t.cq.filter (fun k => k.id != b.cmd) })

/-- An instance is aborted (R296): its members that wait at a barrier complete the word, those of a collective receive 0x0102, event 0x52 is
posted to each kernel with a member here; who arrives later finds the mark (log 39). -/
def State.abortInstance (s : State) (k : GroupKey) (n : BitVec 32) (coll : Bool) : State :=
  let all := s.keyMembers k
  let u := s.startTimer k n coll
  let u := { u with timers := u.timers.map (fun y => if y.key = k ∧ y.n = n ∧ y.coll = coll then { y with aborted := true } else y) }
  let u :=
    if coll then
      let mine (x : CollInst) : Bool := x.key == k && x.n == n
      let u := (u.collectives.filter mine).foldl (fun u x => x.contribs.foldl (fun u b => u.finishColl b (collErrorWord 0x0102) true) u) u
      { u with collectives := u.collectives.filter (fun x => !mine x) }
    else all.foldl (fun u x => u.release k.scope n false x.1) u
  let kids := ((all.filter (fun x => x.2.pkg.isNone)).map (fun x => x.2.kid)).eraseDups
  kids.foldl (fun u i => u.postEvent i 0x52#8 0 (BitVec.ofNat 64 (Scope.index k.scope + 2 ^ 32 * n.toNat))) u

/-- Whether an instance has completed here, or been aborted: its timer has stopped with every known member joined and none waiting. -/
def State.instanceOver (s : State) (k : GroupKey) (n : BitVec 32) (coll : Bool) : Bool :=
  let all := s.keyMembers k
  match s.timerOf k n coll with
  | some t => t.aborted
  | none => !all.isEmpty && all.all (fun x =>
      if coll then x.2.hasJoined k.scope n else x.2.hasArrived k.scope n && !x.2.waitsAt k.scope n)

/-- The group's part that a peer names by its first package (R147). -/
def State.peerKey (s : State) (group : Nat) (sc : Scope) (place : Nat) : GroupKey :=
  ⟨sc, group, if sc = .x then ((s.groupOf (some group)).map (·.part)).getD 0 else place⟩

/-- COLLECTIVE_TIMER_ABORT (R296): an instance of scope .P or .X whose timer has reached COLT is aborted, and the other packages of its partition
hear of it; or a peer tells of such an abort (log 47). -/
def execCollectiveTimerAbort (group : Nat) (sc : Scope) (a : AbortIn) (s : State) : Out :=
  match a with
  | .own n =>
    let due (t : Timer) : Option Member :=
      if t.key.scope == sc && t.key.id == group && t.n == BitVec.ofNat 32 n && !t.aborted then
        ((s.keyMembers t.key).head?.map (·.2)).bind (fun m => if (s.partOf m.part).colt.toNat ≤ t.cycles then some m else none)
      else none
    (match s.timers.findSome? (fun t => (due t).map (fun m => (t, m))) with
    | none => .next s
    | some (t, m) =>
      let u := s.abortInstance t.key t.n t.coll
      .next (if 1 < (s.partOf m.part).packages.length then u.send (.aborted m.part group sc t.key.part t.n.toNat t.coll) else u))
  | .peer place n coll =>
    let k := s.peerKey group sc place
    if (sc = .p ∨ sc = .x) ∧ (s.groupOf (some group)).isSome ∧ !s.instanceOver k (BitVec.ofNat 32 n) coll then
      .next (s.abortInstance k (BitVec.ofNat 32 n) coll)
    else .next s

end Sys2Proof.Machine
end

