-- ==== Sys2Proof/Machine/Vector.lean ====
section
/-! DEFINITION. The vector instructions (R124 to R143): FP32, integer and bitwise forms, conversion, compares and masks, selection
and lane movement, reductions, and deferral (R122, R123). -/
namespace Sys2Proof.Machine

/-! Shared forms (R126): check, pops in the order va, vb, compute, write or push. -/

/-- The lane pattern of an image built lane by lane from values with VST events; lanes that are not active set no bit (R101). -/
def lanesEv (act : Mask) (f : Nat → Nat × Num.Ev) : Image × Num.Ev :=
  let r := packEv 32 10 0 (fun i => if act.getLsbD i then f i else (0, .none))
  (BitVec.ofNat 32768 r.1, r.2)

/-- A vector form of two sources that builds a whole image. -/
def vectorRR (i : Instr) (d a b : BitVec 6) (m : BitVec 3) (f : Mask → Image → Image → Image × Num.Ev) (s : State) : Out :=
  settle s.cur .x s do
    legal i
    s.grants s.cur [d, a, b]
    let (x, t) ← s.srcV s.cur a
    let (y, t) ← t.srcV s.cur b
    let r := f (s.act s.cur m) x y
    let t ← (t.addVst s.cur r.2).dstV s.cur d m r.1
    return t.retire s.cur .x

/-- A vector form of one source. -/
def vectorR (i : Instr) (d a : BitVec 6) (m : BitVec 3) (f : Mask → Image → Image × Num.Ev) (s : State) : Out :=
  settle s.cur .x s do
    legal i
    s.grants s.cur [d, a]
    let (x, t) ← s.srcV s.cur a
    let r := f (s.act s.cur m) x
    let t ← (t.addVst s.cur r.2).dstV s.cur d m r.1
    return t.retire s.cur .x

/-- F of R124. -/
def fp (p : Nat) : Num.FVal := Num.decodeF Num.binary32 p
/-- FpOut of R124. -/
def fpOut32 (v : Num.FVal) : Nat × Num.Ev := Num.fpEnc Num.binary32 v

/-- An FP32 form of two sources, lane by lane. -/
def fpLanes (f : Num.FVal → Num.FVal → Num.FVal) (act : Mask) (x y : Image) : Image × Num.Ev :=
  lanesEv act (fun i => fpOut32 (f (fp (lane x i)) (fp (lane y i))))

/-! FP32 arithmetic (R128 to R130). -/

/-- VADD (R128). -/
def execVadd (d a b : BitVec 6) (m : BitVec 3) (s : State) : Out :=
  vectorRR (.vadd d a b m) d a b m (fpLanes Num.addF) s
/-- VSUB (R128). -/
def execVsub (d a b : BitVec 6) (m : BitVec 3) (s : State) : Out :=
  vectorRR (.vsub d a b m) d a b m (fpLanes (fun x y => Num.addF x (Num.negF y))) s
/-- VMUL (R128). -/
def execVmul (d a b : BitVec 6) (m : BitVec 3) (s : State) : Out :=
  vectorRR (.vmul d a b m) d a b m (fpLanes Num.mulF) s
/-- VMIN (R128). -/
def execVmin (d a b : BitVec 6) (m : BitVec 3) (s : State) : Out :=
  vectorRR (.vmin d a b m) d a b m (fpLanes Num.minF) s
/-- VMAX (R128). -/
def execVmax (d a b : BitVec 6) (m : BitVec 3) (s : State) : Out :=
  vectorRR (.vmax d a b m) d a b m (fpLanes Num.maxF) s

/-- VABS and VNEG (R128): a NaN gives the canonical NaN, every other pattern keeps all bits but the sign, given by `g`. -/
def signForm (g : Nat → Nat) (p : Nat) : Nat × Num.Ev :=
  match fp p with
  | .nan => Num.fpNan Num.binary32
  | .inf _ => (g p, ⟨false, true, false⟩)
  | .fin .. => (g p, .none)

/-- VABS (R128). -/
def execVabs (d a : BitVec 6) (m : BitVec 3) (s : State) : Out :=
  vectorR (.vabs d a m) d a m (fun act x => lanesEv act (fun i => signForm (· % 2 ^ 31) (lane x i))) s
/-- VNEG (R128). -/
def execVneg (d a : BitVec 6) (m : BitVec 3) (s : State) : Out :=
  vectorR (.vneg d a m) d a m (fun act x => lanesEv act (fun i => signForm (fun p => (p + 2 ^ 31) % 2 ^ 32) (lane x i))) s
/-- VMOV (R128): bit for bit, no VST. -/
def execVmov (d a : BitVec 6) (m : BitVec 3) (s : State) : Out :=
  vectorR (.vmov d a m) d a m (fun _ x => (x, .none)) s

/-- VFMA (R129): one rounding; vd is read as well. -/
def execVfma (d a b : BitVec 6) (m : BitVec 3) (s : State) : Out :=
  settle s.cur .x s do
    legal (.vfma d a b m)
    s.grants s.cur [d, a, b]
    let (x, t) ← s.srcV s.cur a
    let (y, t) ← t.srcV s.cur b
    let z := s.vreg s.cur d.toNat
    let r := lanesEv (s.act s.cur m) (fun i => fpOut32 (Num.addF (Num.mulF (fp (lane x i)) (fp (lane y i))) (fp (lane z i))))
    let t ← (t.addVst s.cur r.2).dstV s.cur d m r.1
    return t.retire s.cur .x

/-- VRCP (R130). -/
def execVrcp (d a : BitVec 6) (m : BitVec 3) (s : State) : Out :=
  vectorR (.vrcp d a m) d a m (fun act x => lanesEv act (fun i => Num.rcpF Num.binary32 (fp (lane x i)))) s
/-- VRSQ (R130). -/
def execVrsq (d a : BitVec 6) (m : BitVec 3) (s : State) : Out :=
  vectorR (.vrsq d a m) d a m (fun act x => lanesEv act (fun i => Num.rsqF Num.binary32 (fp (lane x i)))) s
/-- VEXP2 (R130). -/
def execVexp2 (d a : BitVec 6) (m : BitVec 3) (s : State) : Out :=
  vectorR (.vexp2 d a m) d a m (fun act x => lanesEv act (fun i => Num.exp2F Num.binary32 (fp (lane x i)))) s
/-- VLOG2 (R130). -/
def execVlog2 (d a : BitVec 6) (m : BitVec 3) (s : State) : Out :=
  vectorR (.vlog2 d a m) d a m (fun act x => lanesEv act (fun i => Num.log2F Num.binary32 (fp (lane x i)))) s

/-! Integer and bitwise forms (R131 to R133). -/

/-- A form over packed elements of `n` bits (R125). -/
def packed (n lc : Nat) (f : Nat → Nat → Nat) (_ : Mask) (x y : Image) : Image × Num.Ev :=
  (BitVec.ofNat 32768 (pack n lc 0 (fun j => f (elem n x.toNat j) (elem n y.toNat j))), .none)

/-- The smaller or the larger of two `n`-bit elements read as signed. -/
def pickSigned (n : Nat) (larger : Bool) (x y : Nat) : Nat :=
  if (Num.signExt n x < Num.signExt n y) == larger then y else x

/-- VSRA on `n` bits: floor of the signed value. -/
def sraElem (n c x : Nat) : Nat := Num.wrapBits n (Num.signExt n x / (2 ^ c : Nat))

/-- Saturating sum of two signed values of `n` bits (R91, R132). -/
def satAdd (n : Nat) (v : Int) : Nat :=
  Num.wrapBits n (Num.clampTo (-(2 ^ (n - 1) : Nat)) ((2 ^ (n - 1) : Nat) - 1) v).1

/-- VIADD (R131). -/
def execViadd (d a b : BitVec 6) (m : BitVec 3) (s : State) : Out :=
  vectorRR (.viadd d a b m) d a b m (packed 32 10 (fun x y => x + y)) s
/-- VISUB (R131). -/
def execVisub (d a b : BitVec 6) (m : BitVec 3) (s : State) : Out :=
  vectorRR (.visub d a b m) d a b m (packed 32 10 (fun x y => x + 2 ^ 32 - y)) s
/-- VIMUL (R131). -/
def execVimul (d a b : BitVec 6) (m : BitVec 3) (s : State) : Out :=
  vectorRR (.vimul d a b m) d a b m (packed 32 10 (fun x y => x * y)) s
/-- VIMIN (R131). -/
def execVimin (d a b : BitVec 6) (m : BitVec 3) (s : State) : Out :=
  vectorRR (.vimin d a b m) d a b m (packed 32 10 (fun x y => pickSigned 32 false x y)) s
/-- VIMAX (R131). -/
def execVimax (d a b : BitVec 6) (m : BitVec 3) (s : State) : Out :=
  vectorRR (.vimax d a b m) d a b m (packed 32 10 (fun x y => pickSigned 32 true x y)) s
/-- VSHL (R131). -/
def execVshl (d a b : BitVec 6) (m : BitVec 3) (s : State) : Out :=
  vectorRR (.vshl d a b m) d a b m (packed 32 10 (fun x y => x * 2 ^ (y % 2 ^ 5))) s
/-- VSHR (R131). -/
def execVshr (d a b : BitVec 6) (m : BitVec 3) (s : State) : Out :=
  vectorRR (.vshr d a b m) d a b m (packed 32 10 (fun x y => x / 2 ^ (y % 2 ^ 5))) s
/-- VSRA (R131). -/
def execVsra (d a b : BitVec 6) (m : BitVec 3) (s : State) : Out :=
  vectorRR (.vsra d a b m) d a b m (packed 32 10 (fun x y => sraElem 32 (y % 2 ^ 5) x)) s
/-- VIADD_H (R131). -/
def execViaddH (d a b : BitVec 6) (m : BitVec 3) (s : State) : Out :=
  vectorRR (.viaddH d a b m) d a b m (packed 16 11 (fun x y => x + y)) s
/-- VISUB_H (R131). -/
def execVisubH (d a b : BitVec 6) (m : BitVec 3) (s : State) : Out :=
  vectorRR (.visubH d a b m) d a b m (packed 16 11 (fun x y => x + 2 ^ 16 - y)) s
/-- VIMUL_H (R131). -/
def execVimulH (d a b : BitVec 6) (m : BitVec 3) (s : State) : Out :=
  vectorRR (.vimulH d a b m) d a b m (packed 16 11 (fun x y => x * y)) s
/-- VIMIN_H (R131). -/
def execViminH (d a b : BitVec 6) (m : BitVec 3) (s : State) : Out :=
  vectorRR (.viminH d a b m) d a b m (packed 16 11 (fun x y => pickSigned 16 false x y)) s
/-- VIMAX_H (R131). -/
def execVimaxH (d a b : BitVec 6) (m : BitVec 3) (s : State) : Out :=
  vectorRR (.vimaxH d a b m) d a b m (packed 16 11 (fun x y => pickSigned 16 true x y)) s
/-- VSHL_H (R131). -/
def execVshlH (d a b : BitVec 6) (m : BitVec 3) (s : State) : Out :=
  vectorRR (.vshlH d a b m) d a b m (packed 16 11 (fun x y => x * 2 ^ (y % 2 ^ 4))) s
/-- VSHR_H (R131). -/
def execVshrH (d a b : BitVec 6) (m : BitVec 3) (s : State) : Out :=
  vectorRR (.vshrH d a b m) d a b m (packed 16 11 (fun x y => x / 2 ^ (y % 2 ^ 4))) s
/-- VSRA_H (R131). -/
def execVsraH (d a b : BitVec 6) (m : BitVec 3) (s : State) : Out :=
  vectorRR (.vsraH d a b m) d a b m (packed 16 11 (fun x y => sraElem 16 (y % 2 ^ 4) x)) s
/-- VIADD_B (R131). -/
def execViaddB (d a b : BitVec 6) (m : BitVec 3) (s : State) : Out :=
  vectorRR (.viaddB d a b m) d a b m (packed 8 12 (fun x y => x + y)) s
/-- VISUB_B (R131). -/
def execVisubB (d a b : BitVec 6) (m : BitVec 3) (s : State) : Out :=
  vectorRR (.visubB d a b m) d a b m (packed 8 12 (fun x y => x + 2 ^ 8 - y)) s
/-- VIMUL_B (R131). -/
def execVimulB (d a b : BitVec 6) (m : BitVec 3) (s : State) : Out :=
  vectorRR (.vimulB d a b m) d a b m (packed 8 12 (fun x y => x * y)) s
/-- VIMIN_B (R131). -/
def execViminB (d a b : BitVec 6) (m : BitVec 3) (s : State) : Out :=
  vectorRR (.viminB d a b m) d a b m (packed 8 12 (fun x y => pickSigned 8 false x y)) s
/-- VIMAX_B (R131). -/
def execVimaxB (d a b : BitVec 6) (m : BitVec 3) (s : State) : Out :=
  vectorRR (.vimaxB d a b m) d a b m (packed 8 12 (fun x y => pickSigned 8 true x y)) s
/-- VSHL_B (R131). -/
def execVshlB (d a b : BitVec 6) (m : BitVec 3) (s : State) : Out :=
  vectorRR (.vshlB d a b m) d a b m (packed 8 12 (fun x y => x * 2 ^ (y % 2 ^ 3))) s
/-- VSHR_B (R131). -/
def execVshrB (d a b : BitVec 6) (m : BitVec 3) (s : State) : Out :=
  vectorRR (.vshrB d a b m) d a b m (packed 8 12 (fun x y => x / 2 ^ (y % 2 ^ 3))) s
/-- VSRA_B (R131). -/
def execVsraB (d a b : BitVec 6) (m : BitVec 3) (s : State) : Out :=
  vectorRR (.vsraB d a b m) d a b m (packed 8 12 (fun x y => sraElem 8 (y % 2 ^ 3) x)) s
/-- VIADD_S (R132). -/
def execViaddS (d a b : BitVec 6) (m : BitVec 3) (s : State) : Out :=
  vectorRR (.viaddS d a b m) d a b m (packed 32 10 (fun x y => satAdd 32 (Num.signExt 32 x + Num.signExt 32 y))) s
/-- VISUB_S (R132). -/
def execVisubS (d a b : BitVec 6) (m : BitVec 3) (s : State) : Out :=
  vectorRR (.visubS d a b m) d a b m (packed 32 10 (fun x y => satAdd 32 (Num.signExt 32 x - Num.signExt 32 y))) s
/-- VIADD_H_S (R132). -/
def execViaddHS (d a b : BitVec 6) (m : BitVec 3) (s : State) : Out :=
  vectorRR (.viaddHS d a b m) d a b m (packed 16 11 (fun x y => satAdd 16 (Num.signExt 16 x + Num.signExt 16 y))) s
/-- VISUB_H_S (R132). -/
def execVisubHS (d a b : BitVec 6) (m : BitVec 3) (s : State) : Out :=
  vectorRR (.visubHS d a b m) d a b m (packed 16 11 (fun x y => satAdd 16 (Num.signExt 16 x - Num.signExt 16 y))) s
/-- VIADD_B_S (R132). -/
def execViaddBS (d a b : BitVec 6) (m : BitVec 3) (s : State) : Out :=
  vectorRR (.viaddBS d a b m) d a b m (packed 8 12 (fun x y => satAdd 8 (Num.signExt 8 x + Num.signExt 8 y))) s
/-- VISUB_B_S (R132). -/
def execVisubBS (d a b : BitVec 6) (m : BitVec 3) (s : State) : Out :=
  vectorRR (.visubBS d a b m) d a b m (packed 8 12 (fun x y => satAdd 8 (Num.signExt 8 x - Num.signExt 8 y))) s
/-- VAND (R133). -/
def execVand (d a b : BitVec 6) (m : BitVec 3) (s : State) : Out :=
  vectorRR (.vand d a b m) d a b m (fun _ x y => (x &&& y, .none)) s
/-- VOR (R133). -/
def execVor (d a b : BitVec 6) (m : BitVec 3) (s : State) : Out :=
  vectorRR (.vor d a b m) d a b m (fun _ x y => (x ||| y, .none)) s
/-- VXOR (R133). -/
def execVxor (d a b : BitVec 6) (m : BitVec 3) (s : State) : Out :=
  vectorRR (.vxor d a b m) d a b m (fun _ x y => (x ^^^ y, .none)) s
/-- VANDN (R133). -/
def execVandn (d a b : BitVec 6) (m : BitVec 3) (s : State) : Out :=
  vectorRR (.vandn d a b m) d a b m (fun _ x y => (x &&& ~~~y, .none)) s

/-! Conversion (R134, R135). -/

/-- The FP32 patterns of the 32 blocks of a BFP image of width `w` (R97, R99), with the events of FromBFP. -/
def bfpImage (w : Nat) (img : Image) : List Nat × Num.Ev :=
  let ex (b : Nat) := elem 8 img.toNat (4064 + b)
  ((List.range 1024).map (fun i => (fpOut32 (Num.fromBfp (ex (i / 32)) w (elem w img.toNat i))).1),
    ⟨false, false, (List.range 32).any (fun b => ex b == 255)⟩)

/-- The BFP image of width `w` of 1024 FP32 patterns (R97, R99). -/
def toBfpImage (w : Nat) (xs : List Nat) : Image × Num.Ev :=
  (List.range 32).foldl (fun (r : Image × Num.Ev) b =>
    let (e, ms, ev) := Num.toBfp w (((xs.drop (32 * b)).take 32).map fp)
    let mant := (List.range 32).foldl (fun a j => a + (ms[j]?.getD 0) * 2 ^ (w * (32 * b + j))) 0
    (r.1 ||| BitVec.ofNat 32768 (mant + e * 2 ^ (8 * (4064 + b))), r.2.or ev)) (0#32768, .none)

/-- Converts values one by one, gathering events. -/
def convertAll (src dst : Num.Fmt) (xs : List Nat) : List Nat × Num.Ev :=
  xs.foldr (fun x r => let y := Num.convert src dst x; (y.1 :: r.1, y.2.or r.2)) ([], .none)

/-- Packs values of `bits` bits from bit 0 up. -/
def packList (bits : Nat) : List Nat → Nat
  | [] => 0
  | x :: l => x % 2 ^ bits + packList bits l * 2 ^ bits

/-- The image VCVT writes (R135): `w` is the block width. To BFP the conversion to FP32 raises its events too, where there
is one: an FP32 infinity raises NAN alone (log 81). -/
def vcvtImage (dst from_ : Num.Fmt) (w : Nat) (src : Image) : Image × Num.Ev :=
  let (xs, e1) := if from_ = .bfp then bfpImage w src
    else ((List.range 1024).map (fun j => elem from_.bits src.toNat j), .none)
  let f := if from_ = .bfp then Num.Fmt.fp32 else from_
  let t := if dst = .bfp then Num.Fmt.fp32 else dst
  -- BFP to FP32 and FP32 to BFP pass through no row of their own (R98)
  let (ys, e2) := if f = .fp32 ∧ t = .fp32 ∧ (from_ = .bfp ∨ dst = .bfp) then (xs, .none) else convertAll f t xs
  if dst = .bfp then
    let (img, e3) := toBfpImage w ys
    (img, (e1.or e2).or e3)
  else (BitVec.ofNat 32768 (packList dst.bits ys), e1.or e2)

/-- VCVT (R134, R135): no mask. -/
def execVcvt (d a : BitVec 6) (t f w : BitVec 4) (s : State) : Out :=
  settle s.cur .x s do
    legal (.vcvt d a t f w)
    s.grants s.cur [d, a]
    let (x, u) ← s.srcV s.cur a
    let r := vcvtImage ((Num.Fmt.ofCode t.toNat).getD .raw32) ((Num.Fmt.ofCode f.toNat).getD .raw32) (w.toNat + 1) x
    let u ← (u.addVst s.cur r.2).dstAll s.cur d r.1
    return u.retire s.cur .x

/-! Compares and masks (R136, R137). -/

/-- A compare: bit i of the destination mask for each active lane, the others kept (R136). -/
def compareForm (i : Instr) (d a b : BitVec 6) (m : BitVec 3) (f : Nat → Nat → Bool) (s : State) : Out :=
  settle s.cur .x s do
    legal i
    s.grants s.cur [a, b]
    let (x, t) ← s.srcV s.cur a
    let (y, t) ← t.srcV s.cur b
    let act := s.act s.cur m
    let r : Mask := BitVec.ofNat 1024 (pack 1 10 0 (fun i => if f (lane x i) (lane y i) then 1 else 0))
    let old := (s.task s.cur).mask d.toNat
    return (t.modTask s.cur (·.setMask d.toNat ((r &&& act) ||| (old &&& ~~~act)))).retire s.cur .x

/-- VCEQ (R136). -/
def execVceq (d a b : BitVec 6) (m : BitVec 3) (s : State) : Out :=
  compareForm (.vceq d a b m) d a b m (fun x y => Num.eqF (fp x) (fp y)) s
/-- VCNE (R136). -/
def execVcne (d a b : BitVec 6) (m : BitVec 3) (s : State) : Out :=
  compareForm (.vcne d a b m) d a b m (fun x y => !Num.eqF (fp x) (fp y)) s
/-- VCLT (R136). -/
def execVclt (d a b : BitVec 6) (m : BitVec 3) (s : State) : Out :=
  compareForm (.vclt d a b m) d a b m (fun x y => Num.ltF (fp x) (fp y)) s
/-- VCLE (R136). -/
def execVcle (d a b : BitVec 6) (m : BitVec 3) (s : State) : Out :=
  compareForm (.vcle d a b m) d a b m (fun x y => Num.ltF (fp x) (fp y) || Num.eqF (fp x) (fp y)) s
/-- VCUN (R136). -/
def execVcun (d a b : BitVec 6) (m : BitVec 3) (s : State) : Out :=
  compareForm (.vcun d a b m) d a b m (fun x y => fp x == .nan || fp y == .nan) s
/-- VICEQ (R136). -/
def execViceq (d a b : BitVec 6) (m : BitVec 3) (s : State) : Out :=
  compareForm (.viceq d a b m) d a b m (fun x y => x == y) s
/-- VICNE (R136). -/
def execVicne (d a b : BitVec 6) (m : BitVec 3) (s : State) : Out :=
  compareForm (.vicne d a b m) d a b m (fun x y => x != y) s
/-- VICLT (R136). -/
def execViclt (d a b : BitVec 6) (m : BitVec 3) (s : State) : Out :=
  compareForm (.viclt d a b m) d a b m (fun x y => decide (Num.signExt 32 x < Num.signExt 32 y)) s
/-- VICLE (R136). -/
def execVicle (d a b : BitVec 6) (m : BitVec 3) (s : State) : Out :=
  compareForm (.vicle d a b m) d a b m (fun x y => decide (Num.signExt 32 x ≤ Num.signExt 32 y)) s
/-- VICLTU (R136). -/
def execVicltu (d a b : BitVec 6) (m : BitVec 3) (s : State) : Out :=
  compareForm (.vicltu d a b m) d a b m (fun x y => decide (x < y)) s
/-- VICLEU (R136). -/
def execVicleu (d a b : BitVec 6) (m : BitVec 3) (s : State) : Out :=
  compareForm (.vicleu d a b m) d a b m (fun x y => decide (x ≤ y)) s

/-- Mask logic (R137): all 1024 bits. -/
def maskForm (i : Instr) (d a b : BitVec 6) (f : Mask → Mask → Mask) (s : State) : Out :=
  settle s.cur .x s do
    legal i
    let t := s.task s.cur
    return (s.modTask s.cur (·.setMask d.toNat (f (t.mask a.toNat) (t.mask b.toNat)))).retire s.cur .x

/-- MAND (R137). -/
def execMand (d a b : BitVec 6) (s : State) : Out := maskForm (.mand d a b) d a b (fun x y => x &&& y) s
/-- MOR (R137). -/
def execMor (d a b : BitVec 6) (s : State) : Out := maskForm (.mor d a b) d a b (fun x y => x ||| y) s
/-- MXOR (R137). -/
def execMxor (d a b : BitVec 6) (s : State) : Out := maskForm (.mxor d a b) d a b (fun x y => x ^^^ y) s
/-- MANDN (R137). -/
def execMandn (d a b : BitVec 6) (s : State) : Out := maskForm (.mandn d a b) d a b (fun x y => x &&& ~~~y) s
/-- MNOT (R137). -/
def execMnot (d a : BitVec 6) (s : State) : Out := maskForm (.mnot d a) d a 0#6 (fun x _ => ~~~x) s

/-! Selection, broadcast and lane movement (R138 to R140). -/

/-- VSEL (R138): every lane is written. -/
def execVsel (d a b : BitVec 6) (m : BitVec 3) (s : State) : Out :=
  settle s.cur .x s do
    legal (.vsel d a b m)
    s.grants s.cur [d, a, b]
    let (x, t) ← s.srcV s.cur a
    let (y, t) ← t.srcV s.cur b
    let sel := maskImage (s.act s.cur m)
    let t ← t.dstAll s.cur d ((x &&& sel) ||| (y &&& ~~~sel))
    return t.retire s.cur .x

/-- VBCAST (R138). -/
def execVbcast (d a : BitVec 6) (m : BitVec 3) (s : State) : Out :=
  settle s.cur .x s do
    legal (.vbcast d a m)
    s.grants s.cur [d]
    let (x, t) ← s.readOp s.cur .x a
    let t ← t.dstV s.cur d m (imageOf (fun _ => x.toNat % 2 ^ 32))
    return t.retire s.cur .x

/-- VLID (R138). -/
def execVlid (d : BitVec 6) (m : BitVec 3) (s : State) : Out :=
  settle s.cur .x s do
    legal (.vlid d m)
    s.grants s.cur [d]
    let t ← s.dstV s.cur d m (imageOf (fun i => i))
    return t.retire s.cur .x

/-- VROTM (R139): 4 KiB at a byte rotation from the pair. -/
def execVrotm (d a b fs : BitVec 6) (s : State) : Out :=
  settle s.cur .x s do
    legal (.vrotm d a b fs)
    s.grants s.cur [d, a, b]
    let (x, t) ← s.srcV s.cur a
    let (y, t) ← t.srcV s.cur b
    let (r, t) ← t.readOp s.cur .x fs
    let img : Image := BitVec.ofNat 32768 ((x.toNat + y.toNat * 2 ^ 32768) / 2 ^ (8 * (r.toNat % 4096)))
    let t ← t.dstAll s.cur d img
    return t.retire s.cur .x

/-- VPERM (R140). -/
def execVperm (d a b : BitVec 6) (m : BitVec 3) (s : State) : Out :=
  vectorRR (.vperm d a b m) d a b m (fun _ x y => (imageOf (fun i => lane x (lane y i % 1024)), .none)) s
/-- Interleaves two images from lane `base` of each (R140). -/
def zipImage (base : Nat) (x y : Image) : Image :=
  imageOf (fun i => if i % 2 = 0 then lane x (base + i / 2) else lane y (base + i / 2))
/-- VZIPL (R140). -/
def execVzipl (d a b : BitVec 6) (m : BitVec 3) (s : State) : Out :=
  vectorRR (.vzipl d a b m) d a b m (fun _ x y => (zipImage 0 x y, .none)) s
/-- VZIPH (R140). -/
def execVziph (d a b : BitVec 6) (m : BitVec 3) (s : State) : Out :=
  vectorRR (.vziph d a b m) d a b m (fun _ x y => (zipImage 512 x y, .none)) s

/-! Reductions (R141). -/

/-- A reduction: lane 0 receives the result, every other lane zero, whatever the mask. -/
def reduceForm (i : Instr) (d a : BitVec 6) (m : BitVec 3) (f : (Nat → Option Num.FVal) → Num.FVal) (s : State) : Out :=
  settle s.cur .x s do
    legal i
    s.grants s.cur [d, a]
    let (x, t) ← s.srcV s.cur a
    let act := s.act s.cur m
    let r := fpOut32 (f (fun i => if act.getLsbD i then some (fp (lane x i)) else none))
    let t ← (t.addVst s.cur r.2).dstAll s.cur d (BitVec.ofNat 32768 r.1)
    return t.retire s.cur .x

/-- A value rounded to FP32 (R94, R141). -/
def round32 (v : Num.FVal) : Num.FVal := fp (fpOut32 v).1
/-- The fixed pairwise tree of VRADD: element `i` of level `k` (R141). -/
def treeSum (t : Nat → Num.FVal) : Nat → Nat → Num.FVal
  | 0, i => t i
  | k + 1, i => round32 (Num.addF (treeSum t k (2 * i)) (treeSum t k (2 * i + 1)))

/-- VRADD (R141). -/
def execVradd (d a : BitVec 6) (m : BitVec 3) (s : State) : Out :=
  reduceForm (.vradd d a m) d a m (fun f => treeSum (fun i => (f i).getD (.fin true 0 0)) 10 0) s
/-- VRMAX (R141). -/
def execVrmax (d a : BitVec 6) (m : BitVec 3) (s : State) : Out :=
  reduceForm (.vrmax d a m) d a m (fun f => (List.range 1024).foldl (fun b i => Num.maxF b ((f i).getD (.inf true))) (.inf true)) s
/-- VRMIN (R141). -/
def execVrmin (d a : BitVec 6) (m : BitVec 3) (s : State) : Out :=
  reduceForm (.vrmin d a m) d a m (fun f => (List.range 1024).foldl (fun b i => Num.minF b ((f i).getD (.inf false))) (.inf false)) s

/-! Deferral (R122, R123, R142, R143). -/

/-- Pool address of word `f` of deferral entry `e` of a core (R122). -/
def deferAt (c : Nat) (w : BitVec 22) (e f : Nat) : Nat :=
  poolBase c + dqBase w + 36864 * (e / 1024) + 4096 * f + 4 * (e % 1024)

/-- The lanes set in a mask, ascending. -/
def setLanes (m : Mask) : List Nat := (List.range 1024).filter (fun i => m.getLsbD i)

/-- Writes the nine words of one entry: the lane id, `n` values, zeros (R122). -/
def State.writeEntry (s : State) (c : Nat) (w : BitVec 22) (e lane_ : Nat) (vals : List Nat) : State :=
  (List.range 9).foldl (fun s f =>
    s.writeRun (deferAt c w e f) (bytesOf 4 (if f = 0 then lane_ else vals[f - 1]?.getD 0))) s

/-- DEFER (R123, R142): appends until the lanes or the free entries run out. -/
def execDefer (a n : BitVec 6) (m : BitVec 3) (s : State) : Out :=
  settle s.cur .x s do
    legal (.defer a n m)
    s.grants s.cur ((List.range (n.toNat + 1)).map (fun i => a + BitVec.ofNat 6 i))
    let t := s.task s.cur
    let cap := dqCap t.partw
    let lanes := setLanes (t.mask m.toNat)
    let fit := lanes.take (cap - t.dqCount.toNat)
    let regs := (List.range (n.toNat + 1)).map (fun i => s.vreg s.cur (a.toNat + i))
    let u := (List.range fit.length).foldl (fun u j =>
      let l := fit[j]?.getD 0
      u.writeEntry s.cur t.partw ((t.dqHead.toNat + t.dqCount.toNat + j) % cap) l (regs.map (fun r => lane r l))) s
    let gone : Mask := BitVec.ofNat 1024 (fit.foldl (fun x i => x + 2 ^ i) 0)
    let u := u.modTask s.cur (fun t => { t with dqCount := t.dqCount + BitVec.ofNat 17 fit.length }.setMask m.toNat (t.mask m.toNat &&& ~~~gone))
    let u := if fit.length < lanes.length then u.addStat s.cur statDQFULL else u
    return u.retire s.cur .x

/-- Moves the `c` oldest entries out (R123, R143): register `d + f - 1` takes word f, `l` the lane ids, last. -/
def State.drainEntries (s : State) (c : Nat) (d n l count : Nat) : State :=
  let t := s.task c
  let word (f i : Nat) : Nat :=
    if i < count then s.readNat (deferAt c t.partw ((t.dqHead.toNat + i) % dqCap t.partw) f) 4
    else if f = 0 then 0xFFFFFFFF else 0
  let u := (List.range n).foldl (fun u f => u.setVreg c (d + f) (imageOf (word (f + 1)))) s
  let u := u.setVreg c l (imageOf (word 0))
  u.modTask c (fun t => { t with
    dqHead := if dqCap t.partw = 0 then t.dqHead else BitVec.ofNat 17 ((t.dqHead.toNat + count) % dqCap t.partw)
    dqCount := t.dqCount - BitVec.ofNat 17 count })

/-- DRAIN (R143): changes nothing below 1024 entries. -/
def execDrain (d n l : BitVec 6) (s : State) : Out :=
  settle s.cur .x s do
    legal (.drain d n l)
    s.grants s.cur (l :: (List.range (n.toNat + 1)).map (fun i => d + BitVec.ofNat 6 i))
    if (s.task s.cur).dqCount.toNat < 1024 then return s.retire s.cur .x
    else return (s.drainEntries s.cur d.toNat (n.toNat + 1) l.toNat 1024).retire s.cur .x

/-- DRAIN_F (R143): moves what there is and writes the mask of the lanes filled. -/
def execDrainF (d n l : BitVec 6) (m : BitVec 3) (s : State) : Out :=
  settle s.cur .x s do
    legal (.drainF d n l m)
    s.grants s.cur (l :: (List.range (n.toNat + 1)).map (fun i => d + BitVec.ofNat 6 i))
    let c := min (s.task s.cur).dqCount.toNat 1024
    let u := s.drainEntries s.cur d.toNat (n.toNat + 1) l.toNat c
    return (u.modTask s.cur (·.setMask m.toNat (BitVec.ofNat 1024 (2 ^ c - 1)))).retire s.cur .x

end Sys2Proof.Machine
end

