-- ==== Sys2Proof/Machine/Collective.lean ====
section
/-! DEFINITION. The collective engine (R231, R232, R238) and the count messages of peers (R185, R288). -/
namespace Sys2Proof.Machine

/-- The fields of a collective's descriptor (R231). -/
structure CollDesc where
  stok : Word32
  soff : Nat
  dtok : Word32
  doff : Nat
  count : Nat
  fmt : Nat
  op : Nat
  root : Nat
deriving DecidableEq, Repr

/-- Fields of 64 descriptor bytes. -/
def CollDesc.ofBits (d : BitVec 512) : CollDesc where
  stok := d.extractLsb' 0 32
  soff := (d.extractLsb' 32 32).toNat
  dtok := d.extractLsb' 64 32
  doff := (d.extractLsb' 96 32).toNat
  count := (d.extractLsb' 128 32).toNat
  fmt := (d.extractLsb' 160 8).toNat
  op := (d.extractLsb' 168 8).toNat
  root := (d.extractLsb' 176 16).toNat

/-- Bytes of one element. -/
def CollDesc.size (x : CollDesc) : Nat := if x.fmt = 2 then 2 else 4

/-- Whether a descriptor passes the range checks of R232 (0x0103); `ranks` are the ranks of its group. -/
def collDescOk (kind : Nat) (ranks : List Nat) (d : BitVec 512) : Bool :=
  let x := CollDesc.ofBits d
  d.extractLsb' 192 320 == 0#320 && decide (1 ≤ x.count) && decide (x.count ≤ 2 ^ 24) && (x.fmt == 1 || x.fmt == 2 || x.fmt == 4)
    && (if kind ≤ 1 then decide (x.op ≤ 2) else x.op == 0)
    && (if kind = 1 then x.root == 0 else ranks.contains x.root)

/-- The ranks of a member's group. -/
def State.ranks (s : State) (uid : Nat) (sc : Scope) : List Nat := (s.expected uid sc).map (fun v => s.rank v sc)

/-- Replaces a collective command of the task on a core. -/
def State.setColl (s : State) (core : Nat) (k : CollCmd) : State :=
  s.modTask core (fun t => { t with cq := t.cq.map (fun y => if y.id = k.id then k else y) })

/-- The first step of a collective (R231, R238): its descriptor is read, and the reads of its source stand to be made. Of a broadcast only the root
reads its source (log 105). Ranks of a group with unplaced records are not known yet (R147): a broadcast waits, another's ROOT is tested when
the instance completes (log 46). -/
def State.openColl (s : State) (core : Nat) (k : CollCmd) : Run := do
  let t := s.task core
  let known := s.groupKnown t.uid k.scope
  waitFor (k.kind != 3 || known)
  let (d, b) ← s.engineRead t.ctx k.k0 (k.off.toNat : Int) 64
  let desc : BitVec 512 := BitVec.ofNat 512 d
  let x := CollDesc.ofBits desc
  let reads := collDescOk k.kind (if known then s.ranks t.uid k.scope else [x.root]) desc && (k.kind != 3 || s.rank t.uid k.scope == x.root)
  let todo : List (Int × Nat) := if reads then [((x.soff : Int), x.count * x.size)] else []
  return (s.modTask core (·.raiseTks b)).setColl core { k with work := some (desc, RowReads.begin_ todo), held := none }

/-- A member's contribution goes to the packages that run other members of its group (R288). -/
def State.sendContribution (s : State) (uid : Nat) (sc : Scope) (n : BitVec 32) (b : Contrib) : State :=
  let pkgs := ((s.expected uid sc).filterMap (fun v => (s.member v).pkg)).eraseDups
  pkgs.foldl (fun s p => s.send (.contribution b.part p ⟨uid, sc, n, b.rank, b.kind, b.desc, b.source⟩)) s

/-- A collective's source has been read (R231): it joins its instance, or ends at an aborted one (R296). -/
def State.joinColl (s : State) (core : Nat) (k : CollCmd) (desc : BitVec 512) (source : List Byte) : State :=
  let t := s.task core
  let m := s.member t.uid
  let inst := m.collsAt k.scope + 1#32
  let key := s.groupKey t.uid k.scope
  let u := s.setColl core { k with read := true, work := none, held := none }
  let u := u.setMember t.uid { m with colls := m.colls.setIfInBounds (Scope.index k.scope) inst }
  let b : Contrib := ⟨t.uid, t.kid, t.ctx, t.part, s.order t.uid k.scope, k.id, k.kind, k.rb, desc, source⟩
  if u.instanceAborted key inst true then u.finishColl b (collErrorWord 0x0102) true
  else ((u.contribute key inst b).startTimer key inst true).sendContribution t.uid k.scope inst b

/-- The next step of a core's collective (R182, R231, R238): its descriptor, then its source, one row transaction at a time. -/
def State.collStep (s : State) (core : Nat) (k : CollCmd) : Run :=
  match k.work with
  | none => s.openColl core k
  | some (desc, r) => do
    let t := s.task core
    let r ← r.step s t.ctx (CollDesc.ofBits desc).stok
    let s := s.modTask core (·.raiseTks r.tks)
    let x := CollDesc.ofBits desc
    if r.todo.isEmpty then return s.joinColl core k desc (if r.got.isEmpty then [] else bytesOf (x.count * x.size) (r.got.headD 0))
    else return s.setColl core { k with work := some (desc, r), held := none }

/-- A contribution that a peer's member sends (R231, R288, R295). -/
def State.takeContribution (s : State) (c : PeerContrib) : State :=
  match NMap.get s.members c.member with
  | none => s
  | some m =>
    let key := s.groupKey c.member c.scope
    if m.pkg.isNone ∨ s.instanceAborted key c.n true ∨ reached (m.collsAt c.scope) c.n then s
    else
      let u := s.setMember c.member { m with colls := m.colls.setIfInBounds (Scope.index c.scope) c.n }
      (u.contribute key c.n ⟨c.member, m.kid, 0, m.part, c.rank, 0, c.kind, 0, c.desc, c.source⟩).startTimer key c.n true

/-- CONTRIBUTION (R231, R238, R288): the engine's next step for a core's next collective, or a peer's contribution. -/
def execContribution (c : ContribIn) (s : State) : Out :=
  match c with
  | .peer c => .next (s.takeContribution c)
  | .own core =>
    match (s.task core).cq.find? (fun k => !k.read) with
    | none => .next s
    | some k =>
      if (s.core core).holdsTask then settleEvent s (fun p => s.setColl core { k with held := p }) (s.collStep core k)
      else .next s

/-- Two FP32 values combined (R128, R231). -/
def combineFp (op a b : Nat) : Nat × Num.Ev :=
  let f := if op = 0 then Num.addF else if op = 1 then Num.minF else Num.maxF
  fpOut32 (f (fp a) (fp b))
/-- Two INT32 values combined (R231). -/
def combineInt (op a b : Nat) : Nat :=
  if op = 0 then (a + b) % 2 ^ 32
  else if op = 1 then (if Num.signExt 32 a ≤ Num.signExt 32 b then a else b)
  else (if Num.signExt 32 a ≤ Num.signExt 32 b then b else a)

/-- The reduction of one element's values in ascending rank order (R231), with the VST events of the result written (R101, log 63); one value
alone is copied (R238). -/
def reduceElem (fmt op : Nat) : List Nat → Nat × Num.Ev
  | [] => (0, .none)
  | [x] => (x, .none)
  | x :: l =>
    if fmt = 4 then (l.foldl (combineInt op) x, .none)
    else
      let wide (p : Nat) : Nat := if fmt = 2 then (Num.convert .bf16 .fp32 p).1 else p
      let r := l.foldl (fun (a : Nat × Num.Ev) p => combineFp op a.1 (wide p)) (wide x, .none)
      if fmt = 2 then Num.convert .fp32 .bf16 r.1 else r

/-- Value `j` of `k` bytes in a source. -/
def valueAt (k j : Nat) (l : List Byte) : Nat := natOf ((l.drop (k * j)).take k)

/-- The bytes that a reduction gives, with its VST events. -/
def reduceAll (x : CollDesc) (srcs : List (List Byte)) : List Byte × Num.Ev :=
  (List.range x.count).foldl (fun acc j =>
    let r := reduceElem x.fmt x.op (srcs.map (valueAt x.size j))
    (acc.1 ++ bytesOf x.size r.1, acc.2.or r.2)) ([], .none)

/-- Puts a contribution into a list in ascending rank, of two that stand at one core the member that started first before the other (log 46). -/
def insertRank (b : Contrib) : List Contrib → List Contrib
  | [] => [b]
  | x :: l => if b.rank < x.rank ∨ (b.rank = x.rank ∧ b.uid < x.uid) then b :: x :: l else x :: insertRank b l

/-- The contributions of a complete instance in ascending rank (R231): the ranks are TIDX in quad and team, else the places in the order. -/
def ranked (sc : Scope) (l : List Contrib) : List Contrib :=
  let sorted := l.foldl (fun l b => insertRank b l) []
  match sc with
  | .q | .t => sorted
  | .d | .p | .x => sorted.mapIdx (fun i b => { b with rank := i })

/-- What a member's destination receives: bytes, where from DOFF they go, VST events; nothing for a member that receives nothing (R231).
`l` is in ascending rank; a gather in a group of one goes to rank 0 (R238). -/
def received (kind : Nat) (x : CollDesc) (l : List Contrib) (b : Contrib) : List (Nat × List Byte) × Num.Ev :=
  match kind with
  | 0 => if b.rank = x.root then let r := reduceAll x (l.map (·.source)); ([(0, r.1)], r.2) else ([], .none)
  | 1 => let r := reduceAll x (l.map (·.source)); ([(0, r.1)], r.2)
  | 2 => if b.rank = x.root then (l.map (fun y => ((if l.length = 1 then 0 else y.rank) * x.count * x.size, y.source)), .none) else ([], .none)
  | _ => (match l.find? (fun y => y.rank == x.root) with
    | some y => ([(0, y.source)], .none)
    | none => ([], .none))

/-- What a completed instance owes a member of this package (R231). -/
def collPart (kind : Nat) (l : List Contrib) (b : Contrib) : CollPart :=
  let r := received kind (CollDesc.ofBits b.desc) l b
  ⟨b, (r.1.map (fun p => ((CollDesc.ofBits b.desc).doff + p.1, p.2))).filter (fun p => !p.2.isEmpty), r.2.toBits⟩

/-- Whether a write of a collective goes into the pool that its task has left by HALT: it is discarded (R282). -/
def State.discards (s : State) (uid ctx : Nat) (h : Word32) (off : Nat) : Bool :=
  match (s.member uid).halted, ((s.pieces ctx (handleIndex h) off 1).head?).bind (fun p => p.bytes.head?) with
  | some c, some b => (match place s.nstr b.2 with
    | some (.pool c' _) => c' == c
    | some (.near ..) | some (.far ..) | some (.host _) | some (.remote _) | none => false)
  | _, _ => false

/-- The next row transaction of what a member is owed (R182, R185, R231): bytes written and counted in its PB; at the end its VST and its
word. The rest, if any, is answered. -/
def State.payPart (s : State) (p : CollPart) : Except Stop (State × Option CollPart) :=
  let b := p.dest
  match p.todo with
  | [] => .ok ((s.modTaskOf b.uid (·.raiseVst p.vst)).finishColl b 0#64 false, none)
  | (off, bs) :: l => do
    let tok := (CollDesc.ofBits b.desc).dtok
    let core := (s.coreOf b.uid).getD (s.member b.uid).core
    let n := max 1 (s.rowPart b.ctx tok (off : Int) bs.length)
    let (s, k, m) ← if s.discards b.uid b.ctx tok off then .ok (s, 0#6, 0)
      else s.engineWrite (1536 + core) b.part b.ctx tok (off : Int) n (natOf (bs.take n))
    let s := (s.modTaskOf b.uid (·.raiseTks k)).countBytes b.uid m
    return (s, some { p with todo := if n < bs.length then (off + n, bs.drop n) :: l else l })

/-- The code of an instance's failure (R232), the lowest that applies (log 40). -/
def collFailure (ranks : List Nat) (l : List Contrib) : Option Nat :=
  match l with
  | [] => none
  | b :: r =>
    let f (y : Contrib) := let x := CollDesc.ofBits y.desc; (y.kind, x.count, x.fmt, x.op, x.root)
    if r.any (fun y => f y != f b) then some 0x0101
    else if l.any (fun y => !collDescOk y.kind ranks y.desc) then some 0x0103
    else none

/-- An instance whose members have all joined begins its completion (R231, R232): what it owes the members that this package runs, or
the error word of its failure to each. -/
def State.completeColl (s : State) (i : Nat) (x : CollInst) (b0 : Contrib) : State :=
  let l := ranked x.key.scope x.contribs
  let own := l.filter (fun b => (s.member b.uid).pkg.isNone)
  let s := s.stopTimer x.key x.n true
  match collFailure (l.map (·.rank)) l with
  | some code => own.foldl (fun u b => u.finishColl b (collErrorWord code) true) { s with collectives := removeAt s.collectives i }
  | none => { s with collectives := modifyAt s.collectives i (fun x => { x with work := some (own.map (collPart b0.kind l)) }) }

/-- COLLECTIVE_COMPLETION (R231, R232): instance `i` completes once every expected member has joined it: then its writes, one row
transaction at a time (R182), its members served one after another in ascending rank, each with its word at the end of its writes
(log 105). That of a virtual device that is PAUSED stands still (R318) (log 95). -/
def execCollectiveCompletion (i : Nat) (s : State) : Out :=
  match s.collectives[i]? with
  | none => .next s
  | some x =>
    match x.work, x.contribs with
    | some (p :: l), _ =>
      if (s.partOf p.dest.part).vstate = .paused then .next s else
      settleEvent s (fun h => { s with collectives := modifyAt s.collectives i (fun x => { x with held := h }) })
        ((s.payPart p).map (fun r =>
          let work := r.2.toList ++ l
          if work.isEmpty then { r.1 with collectives := removeAt r.1.collectives i }
          else { r.1 with collectives := modifyAt r.1.collectives i (fun x => { x with work := some work, held := none }) }))
    | some [], _ => .next { s with collectives := removeAt s.collectives i }
    | none, [] => .next s
    | none, b0 :: _ =>
      let sc := x.key.scope
      if s.groupKnown b0.uid sc && (s.expected b0.uid sc).all (fun v => (s.member v).hasJoined sc x.n) then .next (s.completeColl i x b0)
      else .next s

/-- COUNT (R185, R288, R295): written bytes are added to PB of a task, running or saved, or go on to the package that it has migrated to. -/
def execCount (uid n : Nat) (s : State) : Out := .next (s.countBytes uid n)

end Sys2Proof.Machine
end

