-- ==== Sys2Proof/Machine/Migration.lean ====
section
/-! DEFINITION. Migration of team records between dies and packages (R291 to R294): advertisements, offers, the handover, what a record
that crosses packages carries, and what the packages tell each other of a launch group (R147). -/
namespace Sys2Proof.Machine

/-- The other packages of a partition. -/
def Partition.peers (p : Partition) : List Nat := removeAt p.packages p.pkgIdx

/-! Advertisements (R291). -/

/-- The placements that a die holds, for each partition and shape with the parities of their origins. -/
def State.placementsOf (s : State) (die : Nat) : List Advert :=
  let shapes := (List.range 8).flatMap (fun h => (List.range 8).map (fun w => (w + 1, h + 1)))
  let holds (p : Nat) (wh o : Nat × Nat) : Bool :=
    (rectangle die o.1 o.2 wh.1 wh.2).all (fun c => s.vacant c && (s.core c).claim.isNone && s.tenant c p)
  ((NMap.keys s.partitions).flatMap (fun p => shapes.flatMap (fun wh =>
    ((origins wh.1 wh.2).filter (holds p wh)).map (fun o => (⟨p, wh.1, wh.2, o.1 % 2, o.2 % 2⟩ : Advert))))).eraseDups

/-- A die's advertisement goes to the other packages of each partition. -/
def State.sendAdverts (s : State) (die : Nat) (l : List Advert) : State :=
  s.partitions.foldl (fun s p => p.2.peers.foldl (fun s k => s.send (.advertisement p.1 k die (l.filter (fun a => a.part == p.1)))) s) s

/-- ADVERTISEMENT (R291): a die of this package tells its placements, to its own package and to the partition's others; or a peer's die
does. -/
def execAdvertisement (a : AdvertIn) (s : State) : Out :=
  match a with
  | .own die =>
    let l := s.placementsOf die
    .next (if die < 8 then (s.setDie die { s.die die with adverts := l }).sendAdverts die l else s)
  | .peer pkg die l =>
    let others := s.device.peerAdverts.filter (fun x => !(x.1 == pkg && x.2.1 == die))
    .next { s with device := { s.device with peerAdverts := others ++ [(pkg, die, l)] } }

/-! Candidates (R292). Candidate 8 * j + d is, for j = 0, die (origin die + d) mod 8 of this package, d from 1 to 7; for j from 1 on die d of
the package whose index is j above this one's, modulo the number of packages. -/

/-- The die of this package that candidate `k` below 8 is. -/
def RingRec.candidate (r : RingRec) (k : Nat) : Nat := (r.die + k) % 8
/-- The package of candidate `k` from 8 on. -/
def Partition.candidate (p : Partition) (k : Nat) : Nat := p.packages[(p.pkgIdx + k / 8) % p.packages.length]?.getD 0

/-- Whether an advertised placement fits a record: its shape, and for an image the saved parities. -/
def RingRec.fits (r : RingRec) (a : Advert) : Bool :=
  let p := originParity r.record.width r.img
  a.part == r.part && a.width == r.record.width && a.height == r.record.height && (r.img.isEmpty || (a.px == p.1 && a.py == p.2))

/-- Whether the images of a record can be sent to another package: no chain of its tasks runs on, and no collective is paying out to them; no
message of R288 would bring those words after them (log 76). -/
def State.movable (s : State) (r : RingRec) : Bool :=
  r.img.all (fun x => x.ended || ((s.chainsOf x.task.uid).isEmpty
    && !s.collectives.any (fun y => y.work.isSome && y.contribs.any (fun b => b.uid == x.task.uid))))

/-- Whether candidate `k` advertises a placement of a record (R292). -/
def State.offerable (s : State) (r : RingRec) (k : Nat) : Bool :=
  if k < 8 then k != 0 && (s.die (r.candidate k)).adverts.any r.fits
  else
    let pkg := (s.partOf r.part).candidate k
    s.device.peerAdverts.any (fun x => x.1 == pkg && x.2.1 == k % 8 && x.2.2.any r.fits)

/-- The first candidate after `k` that advertises a placement of a record. -/
def State.nextCandidate (s : State) (r : RingRec) (k : Nat) : Option Nat :=
  ((List.range (8 * (s.partOf r.part).packages.length)).filter (fun j => decide (k < j))).find? (s.offerable r)

/-- The entries of a context that a record's tasks keep (R294), scratchpads of other tasks left out. -/
def State.peerEntries (s : State) (r : RingRec) : List PeerEntry :=
  match NMap.get s.contexts r.ctx with
  | none => []
  | some x => x.pet.filterMap (fun e =>
    let owner := (List.range r.img.length).find? (fun j => (r.img[j]?.map (·.task.uid)) == some e.2.owner)
    let base := if e.2.origin = .scratchpad then e.2.base - poolBase e.2.core else e.2.base
    if !e.2.inUse || (e.2.origin == .scratchpad && owner.isNone) then none
    else some ⟨e.1, e.2.gen, e.2.state.code, e.2.origin.code, e.2.kid, e.2.r, e.2.w, e.2.priv, e.2.cmp, e.2.cls, e.2.tier, e.2.len, e.2.va,
      e.2.frames.map (fun f => ⟨f.size, f.phys, f.dte, f.swz, f.leaf, f.wake, f.dirty⟩), base, owner, e.2.freeLater⟩)

/-- An offer of a record to a die of a peer (R292, R293). -/
def State.peerOffer (s : State) (r : RingRec) (die number : Nat) : PeerOffer where
  part := r.part
  ctx := r.ctx
  die := die
  number := number
  deaths := ((s.kernel r.key).map (·.deaths)).getD 0
  record := r.record
  members := r.img.map (fun x => (x.task.doms, x.ended))
  entries := s.peerEntries r

/-- The other packages of the partition hear that a record of a launch group migrates, or does so no longer (R147, R293, R296) (log 47). -/
def State.tellMigrating (s : State) (r : RingRec) (on : Bool) : State :=
  match r.group with
  | some g => if 1 < (s.partOf r.part).packages.length then s.send (.migrating r.part g r.img.isEmpty on) else s
  | none => s

/-- Offers a record to candidate `j`, by a message to one on another package (R292). -/
def State.offerTo (s : State) (r : RingRec) (j : Nat) : State :=
  if j < 8 then s.modRecord r.id (fun r => { r with place := .offered j, offer := none })
  else
    let u := { s with fresh := s.fresh + 1 }.modRecord r.id (fun r => { r with place := .offered j, offer := some s.fresh })
    u.send (.migrationOffer ((s.partOf r.part).candidate j) (s.peerOffer r (j % 8) s.fresh))

/-- Offers a record to the next candidate after `k`; or leaves it in its ring until MIGT cycles later, and
so where its partition is out of slice (R269, R292) (log 103). -/
def State.offerNext (s : State) (r : RingRec) (k : Nat) : State :=
  match if (s.partOf r.part).inSlice then s.nextCandidate r k else none with
  | some j => (if r.migrates then s else s.tellMigrating r true).offerTo r j
  | none =>
    let u := if r.migrates then s.tellMigrating r false else s
    u.modRecord r.id (fun r => { r with place := .ring, headSince := some s.cyc, offer := none })

/-- Whether a record is offered, and no candidate has accepted it yet (R292). -/
def RingRec.offered (r : RingRec) : Bool :=
  match r.place with
  | .offered _ => true
  | .ring | .held | .moving .. | .fault .. | .awaited .. => false

/-- A record that will not be handed over: the peers hear that it migrates no longer, and a peer that has its offer gives it up (R292, R293). -/
def State.callBack (s : State) (r : RingRec) : State :=
  let u := if r.migrates then s.tellMigrating r false else s
  match r.place, r.offer with
  | .offered k, some n | .moving k false, some n => u.send (.migrationWithdraw r.part ((s.partOf r.part).candidate k) n)
  | _, _ => u

/-- The record of a number, or whose latest offer to a peer has that number. -/
def State.numbered (s : State) (i : Nat) : Option RingRec := s.records.find? (fun r => r.id == i || r.offer == some i)

/-- MIGRATION_OFFER (R118, R292): at MIGT record `i`, where it is still unplaced, gives up its claim, and is offered unless its partition is out of
slice; offer `i`, which a peer declines, is over. -/
def execMigrationOffer (i : Nat) (s : State) : Out :=
  match s.numbered i with
  | none => .next s
  | some r =>
    match r.place with
    | .ring =>
      let inSlice := (s.partOf r.part).inSlice
      if decide (1 < r.record.tasks) && decide ((s.partOf r.part).migt.toNat ≤ s.headWait r) && (!r.claim.isEmpty || (inSlice && s.atHead r)) then
        let u := (s.leaveCores r.id).modRecord r.id (fun r => { r with claim := [] })
        .next (if inSlice then u.offerNext { r with claim := [] } 0 else u)
      else .next s
    | .offered k => if r.offer = some i then .next (s.offerNext r k) else .next s
    | .held | .moving .. | .fault .. | .awaited .. => .next s

/-- The placement that a die accepts a record for: one that it holds now (R293). -/
def State.accepts (s : State) (d : Nat) (r : RingRec) : Option (List Nat) :=
  if s.dispatches d then s.placement d { r with die := d } else none

/-- State and origin of a code (R161). -/
def PetState.ofCode : Nat → PetState
  | 1 => .active
  | 2 => .quiescing
  | 3 => .held
  | 4 => .dead
  | 5 => .freeing
  | 6 => .quarantined
  | _ => .free
/-- Origin of a code (R161). -/
def Origin.ofCode : Nat → Origin
  | 0 => .translated
  | 1 => .anonymous
  | _ => .scratchpad

/-- The entry whose base is named by where it stands here: a scratchpad's offset counts from the pool of core 0 until the restore (R161, R267). -/
def baseOfPeer (x : PeerEntry) (run : Nat) : Nat :=
  if Origin.ofCode x.origin = .scratchpad then poolBase 0 + x.base else if x.frames.isEmpty then x.base else run

/-- An entry as a message brings it; `run` is its place in the frame-list area here (R193, R294). -/
def entryOfPeer (x : PeerEntry) (ids : List Nat) (run : Nat) : PetEntry where
  state := PetState.ofCode x.state
  origin := Origin.ofCode x.origin
  r := x.r
  w := x.w
  priv := x.priv
  cmp := x.cmp
  cls := x.cls
  tier := x.tier
  gen := x.gen
  kid := x.kid
  infl := 0
  len := x.len
  frames := x.frames.map (fun f => ⟨f.size, f.phys, f.dte, f.swz, f.leaf, f.wake, f.dirty⟩)
  base := baseOfPeer x run
  core := 0
  va := x.va
  owner := (x.owner.bind (fun j => ids[j]?)).getD 0
  freeLater := x.freeLater

/-- Whether an entry of a message is one that this package's table holds already: an earlier message has brought it. -/
def State.holdsEntry (s : State) (ctx : Nat) (x : PeerEntry) : Bool :=
  let e := s.entry ctx x.index
  e.inUse && e.gen == x.gen && e.kid == x.kid && e.origin.code == x.origin && e.len == x.len && e.va == x.va

/-- An entry that a migrated task keeps (R294): nothing where its index is in use by another or its frame list has no room. -/
def State.installEntry (s : State) (ctx : Nat) (ids : List Nat) (x : PeerEntry) : Option State :=
  match NMap.get s.contexts ctx with
  | none => none
  | some c =>
    if s.holdsEntry ctx x then
      some (s.setEntry ctx x.index (let e := s.entry ctx x.index; { e with owner := (x.owner.bind (fun j => ids[j]?)).getD e.owner }))
    else if x.index < c.petSize ∧ (c.entry x.index).state = .free then
      (c.listRoom x.frames.length).map (fun run => s.setEntry ctx x.index (entryOfPeer x ids run))
    else none

/-- Members of an offered image as the placement needs them: DOMS and whether each has ended (R266). -/
def offeredMembers (o : PeerOffer) : List SavedTask := o.members.map (fun m => ⟨{ Task.reset with doms := m.1 }, 0#1536, m.2, none, false⟩)

/-- What stands for a record whose offer has been accepted until it arrives: its claims, under a number of its own. -/
def awaitedRecord (o : PeerOffer) (pkg id : Nat) (cs : List Nat) : RingRec where
  id := id
  record := o.record
  part := o.part
  ctx := o.ctx
  die := o.die
  level := o.record.prio
  stamp := 0#40
  img := []
  group := none
  place := .awaited pkg o.number
  headSince := none
  claim := cs
  offer := none

/-- A peer's offer is accepted where its kernel lives here and has died no more often than there, the partition runs, the die holds a placement
now, and the entries have room, which they take (R293, R294): the placement is claimed; else it is declined (log 104). -/
def State.takeOffer (s : State) (pkg : Nat) (o : PeerOffer) : State :=
  let no := s.send (.migrationDecline o.part pkg o.number)
  let q := awaitedRecord o pkg s.fresh []
  let asked : RingRec := { q with img := offeredMembers o }
  match s.kernel (kernelKey o.ctx o.record.kid), s.accepts o.die asked, o.entries.foldlM (fun u x => u.installEntry o.ctx [] x) s with
  | some k, some cs, some u =>
    if k.dying.isSome || k.deaths != o.deaths || (s.partOf o.part).vstate != .running then no
    else
      let v : State := { u with fresh := u.fresh + 1, records := u.records ++ [{ q with claim := cs }] }
      (v.claimCores (asked.neededOf cs) q.id).send (.migrationAccept o.part pkg o.number)
  | _, _, _ => no

/-- Whether a partition of this package and its context are those that a peer's message names. -/
def State.knowsPeer (s : State) (pkg part ctx : Nat) : Bool :=
  (s.partOf part).packages.contains pkg && (NMap.get s.contexts ctx).isSome && s.partOfContext ctx == part

/-- The claim that waits for the record of a peer's offer. -/
def State.awaitedOf (s : State) (pkg number : Nat) : Option RingRec := s.records.find? (fun r => r.place == .awaited pkg number)

/-- MIGRATION_ACCEPT (R293): the die offered record `i` claims a placement it holds, or declines; a peer accepts offer `i`; a peer's offer is
answered, or given up. -/
def execMigrationAccept (a : AcceptIn) (s : State) : Out :=
  match a with
  | .own i =>
    (match s.numbered i with
    | none => .next s
    | some r =>
      match r.place with
      | .offered k =>
        if 8 ≤ k then .next (if r.offer = some i then s.modRecord r.id (fun r => { r with place := .moving k false }) else s)
        else
          match s.accepts (r.candidate k) r with
          | some cs => .next ((s.claimCores (r.neededOf cs) r.id).modRecord r.id (fun r => { r with place := .moving k false, claim := cs }))
          | none => .next (s.offerNext r k)
      | .ring | .held | .moving .. | .fault .. | .awaited .. => .next s)
  | .offered pkg o => .next (if s.knowsPeer pkg o.part o.ctx then s.takeOffer pkg o else s)
  | .withdrawn pkg n =>
    match s.awaitedOf pkg n with
    | some r => .next { s.leaveCores r.id with records := s.records.filter (fun x => x.id != r.id) }
    | none => .next s

/-! What the messages carry (R293, R294). -/

/-- The images of a record as the messages hold them: headers and written lines, read through the frame. -/
def State.sentImages (s : State) (r : RingRec) : Except Stop (List SavedTask) :=
  (List.range r.img.length).mapM (fun j => do
    let x := r.img[j]?.getD ⟨Task.reset, 0#1536, true, none, false⟩
    if x.ended || x.lines.isSome then return x
    else do
      let x ← s.readImage r x j
      let l ← s.frameLines r.ctx r.record j x.written
      return { x with lines := some l })

/-- A queued matrix command as a message carries it. -/
def MCmd.toPeer (m : MCmd) : PeerCmd :=
  match m.op with
  | .mmul sparse z a b dim => ⟨if sparse then 1 else 0, z, a, b, dim, false, 0, m.zexp⟩
  | .mld z st => ⟨2, z, st, 0, 0#64, false, 0, m.zexp⟩
  | .mst z st hist => ⟨3, z, st, 0, 0#64, hist, 0, m.zexp⟩
  | .mstQ z fmt q hist pushed => ⟨4, z, fmt, q, 0#64, hist, pushed, m.zexp⟩
  | .prec z wa wb => ⟨5, z, wa.toNat, wb.toNat, 0#64, false, 0, m.zexp⟩
  | .mclr z => ⟨6, z, 0, 0, 0#64, false, 0, m.zexp⟩
  | .histClr => ⟨7, 0, 0, 0, 0#64, false, 0, m.zexp⟩
  | .histRd q => ⟨8, 0, 0, q, 0#64, false, 0, m.zexp⟩

/-- A queued matrix command that a message has brought, under a number of this package. -/
def cmdOfPeer (id : Nat) (x : PeerCmd) : MCmd :=
  let op : MOp := match x.kind with
    | 0 => .mmul false x.z x.a x.b x.dim
    | 1 => .mmul true x.z x.a x.b x.dim
    | 2 => .mld x.z x.a
    | 3 => .mst x.z x.a x.hist
    | 4 => .mstQ x.z x.a x.b x.hist x.pushed
    | 5 => .prec x.z (BitVec.ofNat 4 x.a) (BitVec.ofNat 4 x.b)
    | 6 => .mclr x.z
    | 7 => .histClr
    | _ => .histRd x.b
  ⟨id, op, x.zexp⟩

/-- Package index and core of a member's first start. -/
def State.firstPlace (s : State) (m : Member) : Nat × Nat := (s.firstPackage m, m.core % 512)
/-- The core number that stands for a first start. -/
def State.placeNumber (s : State) (part : Nat) (x : Nat × Nat) : Nat :=
  if x.1 = (s.partOf part).pkgIdx then x.2 else 512 * (x.1 + 1) + x.2

/-- A member's image as a message carries it. -/
def State.peerTask (s : State) (r : RingRec) (x : SavedTask) : PeerTask :=
  let t := x.task
  let at_ (l : List Nat) (base : Nat) (deps : List Nat) : List Nat :=
    (List.range l.length).filterMap (fun i => if deps.contains (l[i]?.getD 0) then some (base + i) else none)
  { header := s.headerOf r.record r.img false x
    lines := x.lines.getD []
    cmds := t.mq.map (·.toPeer)
    started := t.mstart
    setters := t.setters.map (fun y => (y.flag, at_ (t.mq.map (·.id)) 0 y.deps ++ at_ (t.cq.map (·.id)) 8 y.deps))
    colls := t.cq.map (fun k => (k.scope, k.kind, k.k0, k.off, k.rb, k.read))
    errors := (List.range 32).filter (fun n => t.aAwait[n]? == some .error)
    names := t.names.filterMap (fun n => match n with
      | .nst k c m => some (k, c, m)
      | .value .. => none)
    halves := t.nstX.map (fun h => (h.k, h.imgs, h.mark))
    first := s.firstPlace (s.member t.uid)
    starts := (t.seqA.lc.toList ++ t.seqX.lc.toList).map (·.start)
    released := (s.member t.uid).released
    known := none }

/-- The members of a record's launch group that its image does not hold (R147). -/
def State.restOf (s : State) (r : RingRec) : List (Nat × Member) :=
  s.members.filter (fun x => r.group.isSome && x.2.group == r.group && !r.img.any (fun y => y.task.uid == x.1))

/-- The rest of a record's launch group as a message tells of it (R147, R148). -/
def State.peerRest (s : State) (r : RingRec) : List PeerMember :=
  (s.restOf r).map (fun x =>
    ⟨s.firstPlace x.2, x.2.joined.toList, x.2.colls.toList, if x.2.told then none else x.2.arrived, x.2.away, x.2.ended, x.2.pkg, none⟩)

/-- The open collective instances of a record's members, as a message carries them (R231, R295). -/
def State.peerInsts (s : State) (r : RingRec) : List PeerInst :=
  let ids := r.img.map (·.task.uid) ++ (s.restOf r).map (·.1)
  let mine (x : CollInst) : Bool := r.img.any (fun y => !y.ended && s.groupKey y.task.uid x.key.scope == x.key)
  (s.collectives.filter (fun x => x.work.isNone && mine x)).map (fun x =>
    ⟨x.key.scope, x.n, x.contribs.map (fun b =>
      let cq := ((r.img.find? (fun y => y.task.uid == b.uid)).map (·.task.cq)).getD []
      ⟨ids.idxOf b.uid, (cq.map (·.id)).idxOf b.cmd, b.rank, b.kind, b.desc, b.source⟩)⟩)

/-- A record as it crosses to a die of another package. -/
def State.peerRecord (s : State) (r : RingRec) (die : Nat) : PeerRecord where
  number := r.offer.getD 0
  part := r.part
  ctx := r.ctx
  die := die
  level := r.level
  group := r.group
  record := r.record
  tasks := r.img.map (s.peerTask r)
  entries := s.peerEntries r
  rest := s.peerRest r
  insts := s.peerInsts r

/-! The receiver of a peer's record (R293, R294). -/

/-- A sequencer as a message brings it: the first words of its loops' bodies, and the word at which a member waits (R149, R294). -/
def Seq.ofPeer (q : Seq) (starts : List (BitVec 32)) (waits : Bool) : Seq :=
  { q with lc := Vector.ofFn (fun n => { (q.lc[n.val]?.getD LoopCtr.reset) with start := starts[n.val]?.getD 0#32 }), waiting := waits }

/-- The scope of the barrier at which a header says that its member has arrived (R260). -/
def arrivedOf (h : Nat) : Option Scope := [Scope.q, .t, .d, .p, .x].find? (fun sc => field h (0x34 + 8 * Scope.index sc) 1 % 2 == 1)

/-- The saved task of a message (R260, R267): numbers from `base` on are its commands'. -/
def savedOfPeer (r : PeerRecord) (k : Kernel) (uid base : Nat) (x : PeerTask) : SavedTask :=
  let cmds := (List.range x.cmds.length).filterMap (fun i => x.cmds[i]?.map (cmdOfPeer (base + i)))
  let waits := (arrivedOf x.header).isSome || x.released
  let t := { Task.reset with
    uid := uid, kid := kernelKey r.ctx r.record.kid, ctx := r.ctx, part := r.part, record := r.record, partw := k.partw
    doms := BitVec.ofNat 52 (field x.header 0x20 8)
    dqb := BitVec.ofNat 22 (dqBase k.partw), dql := BitVec.ofNat 17 (dqCap k.partw)
    aAwait := Vector.ofFn (fun n => if x.errors.contains n.val then .error else .none)
    names := x.names.map (fun (n : BitVec 4 × Nat × BitVec 32) => .nst n.1 n.2.1 n.2.2)
    nstX := x.halves.map (fun (h : BitVec 4 × List Image × BitVec 32) => ⟨h.1, h.2.1, h.2.2⟩)
    mq := cmds, mstart := x.started
    setters := x.setters.map (fun (y : BitVec 8 × List Nat) => ⟨y.1, y.2.map (fun i => base + i)⟩)
    cq := (List.range x.colls.length).filterMap (fun i => x.colls[i]?.map (fun (c : Scope × Nat × Word32 × BitVec 64 × Nat × Bool) =>
      ⟨base + 8 + i, c.1, c.2.1, c.2.2.1, c.2.2.2.1, c.2.2.2.2.1, none, c.2.2.2.2.2, none⟩)) }
  let t := t.ofHeader x.header
  ⟨{ t with seqA := t.seqA.ofPeer x.starts waits, seqX := t.seqX.ofPeer (x.starts.drop 3) waits }, writtenOf x.header,
    field x.header 0x18 1 % 2 == 1, some x.lines, false⟩

/-- A member of a message's team as groups know it (R147, R149, R294). -/
def State.memberOfPeer (s : State) (r : PeerRecord) (team j : Nat) (group : Option Nat) (x : PeerTask) : Member :=
  let h := x.header
  { Member.first (kernelKey r.ctx r.record.kid) r.part team j r.record.width r.record.height group (s.placeNumber r.part x.first) with
    joined := Vector.ofFn (fun n => BitVec.ofNat 32 (field h (0x30 + 8 * n.val) 8))
    arrived := arrivedOf h
    released := x.released
    colls := Vector.ofFn (fun n => BitVec.ofNat 32 (field h (0x58 + 8 * n.val) 8))
    ended := field h 0x18 1 % 2 == 1
    away := field h 0x18 1 % 2 == 0 }

/-- A task of the group that another package runs: what the sender knows of it, over what was known here. -/
def State.restMember (s : State) (r : PeerRecord) (pkg group : Nat) (x : PeerMember) : Member :=
  { Member.first (kernelKey r.ctx r.record.kid) r.part 0 0 1 1 (some group) (s.placeNumber r.part x.first) with
    joined := Vector.ofFn (fun n => x.joined[n.val]?.getD 0#32)
    colls := Vector.ofFn (fun n => x.colls[n.val]?.getD 0#32)
    arrived := x.arrived
    away := x.away
    ended := x.ended
    pkg := some (x.pkg.getD pkg) }

/-- The numbers here of the tasks of a peer's record and of the rest of its group: those by which they are known, else new ones. -/
def State.peerNumbers (s : State) (r : PeerRecord) : List Nat :=
  let known := r.tasks.map (·.known) ++ r.rest.map (·.known)
  (List.range known.length).map (fun i => (known[i]?.join).getD (s.fresh + i))

/-- Tasks of a peer's record and of the rest of its group that have not ended and were not known here. -/
def newTasks (r : PeerRecord) : Nat :=
  (if r.tasks.isEmpty then r.record.tasks
    else (r.tasks.filter (fun x => x.known.isNone && field x.header 0x18 1 % 2 == 0)).length)
    + (r.rest.filter (fun x => x.known.isNone && !x.ended)).length

/-- The launch group of a peer's record: one that this package knows, where a record whose tasks have not started is unplaced elsewhere no longer;
or a new one. -/
def State.joinGroup (s : State) (r : PeerRecord) : State × Option Nat :=
  match r.group with
  | none => (s, none)
  | some g =>
    match NMap.get s.groups g with
    | some x =>
      if x.part = r.part then (if r.tasks.isEmpty then s.modGroup (some g) (fun x => { x with open_ := x.open_ - 1 }) else s, some g) else (s, none)
    | none =>
      let x : Group := ⟨r.part, kernelKey r.ctx r.record.kid, newTasks r, 0, 0⟩
      ({ s with fresh := s.fresh + 1, groups := NMap.set s.groups s.fresh x }, some s.fresh)

/-- The rest of a group, the tasks that this package itself runs left as they are. -/
def State.joinRest (s : State) (r : PeerRecord) (pkg : Nat) (group : Option Nat) (ids : List Nat) : State :=
  match group with
  | none => s
  | some g =>
    (List.range r.rest.length).foldl (fun s i => match r.rest[i]?, ids[r.tasks.length + i]? with
      | some x, some u =>
        if (NMap.get s.members u).any (·.pkg.isNone) then s else s.setMember u (s.restMember r pkg g x)
      | _, _ => s) s

/-- A peer's record as a record of this package, under a number, its tasks under numbers of their own and commands from `base` on. -/
def State.recordOfPeer (s : State) (r : PeerRecord) (k : Kernel) (id base : Nat) (group : Option Nat) (ids : List Nat) : RingRec where
  id := id
  record := r.record.stamped s.cyc
  part := r.part
  ctx := r.ctx
  die := r.die
  level := r.level
  stamp := s.cyc.setWidth 40
  img := (List.range r.tasks.length).filterMap (fun j => r.tasks[j]?.map (fun x => savedOfPeer r k (ids[j]?.getD 0) (base + 16 * j) x))
  group := group
  place := .ring
  headSince := none
  claim := []
  offer := none

/-- The contributions that come with a record stand in their instances here (R231, R295). -/
def State.joinInsts (s : State) (r : PeerRecord) (base : Nat) (ids : List Nat) : State :=
  r.insts.foldl (fun s x => x.given.foldl (fun s y =>
    match ids[y.who]? with
    | none => s
    | some u =>
      let m := s.member u
      let key := s.groupKey u x.scope
      let rb := ((r.tasks[y.who]?.bind (fun t => t.colls[y.place]?)).map (fun c => c.2.2.2.2.1)).getD 0
      let has := s.collectives.any (fun z => z.key == key && z.n == x.n && z.contribs.any (fun b => b.uid == u))
      if has then s
      else (s.contribute key x.n ⟨u, m.kid, r.ctx, r.part, y.rank, base + 16 * y.who + 8 + y.place, y.kind, rb, y.desc, y.source⟩).startTimer key x.n true) s) s

/-- A peer's record arrives for the claim that waits for it (R293, R294): head of its ring, members, the entries kept, the instances it stands in,
and the acknowledgement. Where a death of its kernel has taken the claim, it is discarded. An entry that has come to its context since the offer
stays behind where its index is in use here (log 104). -/
def State.takeRecord (s : State) (pkg : Nat) (r : PeerRecord) : State :=
  match s.kernel (kernelKey r.ctx r.record.kid), s.awaitedOf pkg r.number with
  | some k, some p =>
    let ids := s.peerNumbers r
    let team := s.fresh + ids.length
    let base := team + 1
    let (u, group) := { s with fresh := base + 16 * r.tasks.length }.joinGroup r
    let q := { u.recordOfPeer r k p.id base group ids with claim := p.claim }
    let u := (r.entries.foldl (fun u x => (u.installEntry r.ctx ids x).getD u) u).joinRest r pkg group ids
    let u := (List.range r.tasks.length).foldl (fun u j => match r.tasks[j]?, ids[j]? with
      | some x, some i => u.setMember i (u.memberOfPeer r team j group x)
      | _, _ => u) u
    let u := u.joinInsts r base ids
    { u with records := q :: u.records.filter (fun x => x.id != p.id) }.send (.migrationAck r.part pkg r.number)
  | _, _ => s

/-- Members of a record's image that a peer runs from now on: what reaches them here goes on to it (R295); instances of their quads and
teams are the peer's alone. -/
def State.sendMembers (s : State) (r : RingRec) (pkg : Nat) : State :=
  let s := r.img.foldl (fun s x => if x.ended then s else s.setMember x.task.uid { s.member x.task.uid with pkg := some pkg }) s
  { s with collectives := s.collectives.filter (fun x =>
      !((x.key.scope == .q || x.key.scope == .t) && x.contribs.all (fun b => r.img.any (fun y => y.task.uid == b.uid)))) }

/-- Tasks of a launch group's record have started on another package (R147) (log 47). -/
def State.startedElsewhere (s : State) (g : Nat) (x : Group) (pkg : Nat) (places : List (Nat × Nat)) : State :=
  (places.foldl (fun s y =>
    { s.setMember s.fresh { Member.first x.kid x.part 0 0 1 1 (some g) (s.placeNumber x.part y) with pkg := some pkg } with fresh := s.fresh + 1 }) s).modGroup
    (some g) (fun x => { x with open_ := x.open_ - 1 })

/-- MIGRATION (R293): the record goes with its images to the head of its ring at the target with a new STAMP, or to the peer that accepted it;
a peer's record comes in; or a peer tells of a member or of a launch group (R147, R296). -/
def execMigration (m : MigrationIn) (s : State) : Out :=
  match m with
  | .own i =>
    (match s.records.find? (fun r => r.id == i) with
    | none => .next s
    | some r =>
      match r.place with
      | .moving k false =>
        settleEvent s (s.noteFrame (r.claim.headD 0)) (do
          waitFor (decide (k < 8) || s.movable r)
          let img ← s.sentImages r
          let r := { r with img := img }
          if 8 ≤ k then
            let pkg := (s.partOf r.part).candidate k
            return ((s.modRecord i (fun r => { r with place := .moving k true })).sendMembers r pkg).send (.migration pkg (s.peerRecord r (k % 8)))
          else
            let r := { r with
              die := r.candidate k, stamp := s.cyc.setWidth 40, record := r.record.stamped s.cyc, place := .moving k true, headSince := none }
            return { s with records := r :: s.records.filter (fun x => x.id != i) })
      | .moving _ true | .ring | .held | .offered _ | .fault .. | .awaited .. => .next s)
  | .peer pkg r => .next (if s.knowsPeer pkg r.part r.ctx then s.takeRecord pkg r else s)
  | .away uid b => if (s.member uid).pkg.isSome then .next (s.setMember uid { s.member uid with away := b }) else .next s
  | .ended uid =>
    let m := s.member uid
    if m.pkg.isSome ∧ !m.ended then
      .next ((s.setMember uid { m with ended := true, arrived := none, away := false }).leaveGroup m.group 1)
    else .next s
  | .launched part key records tasks =>
    .next { s with fresh := s.fresh + 1, groups := NMap.set s.groups s.fresh ⟨part, key, tasks, records, 0⟩ }
  | .started g pkg places => .next (match NMap.get s.groups g with
    | some x => s.startedElsewhere g x pkg places
    | none => s)
  | .migrating g unstarted on =>
    let count (n : Nat) : Nat := if on then n + 1 else n - 1
    .next (s.modGroup (some g) (fun x => if unstarted then { x with moving := count x.moving } else { x with open_ := count x.open_ }))

/-- MIGRATION_ACK (R293): the origin removes its copy, and the record may be dispatched at the target; tasks that have not started are unplaced
there (R147). `i` is the record, or the offer that a peer had accepted. -/
def execMigrationAck (i : Nat) (s : State) : Out :=
  match s.numbered i with
  | none => .next s
  | some r =>
    match r.place with
    | .moving k true =>
      let u := s.tellMigrating r false
      if 8 ≤ k then
        let u := { u with records := s.records.filter (fun x => x.id != r.id) }
        .next (if r.img.isEmpty then u.modGroup r.group (fun x => { x with open_ := x.open_ + 1 }) else u)
      else .next (u.modRecord r.id (fun r => { r with place := .ring }))
    | .moving _ false | .ring | .held | .offered _ | .fault .. | .awaited .. => .next s

end Sys2Proof.Machine
end

