-- ==== Sys2Proof/Machine/Death.lean ====
section
/-! DEFINITION. Kernel death (R32, R162, R180, R207, R251, R268, R290): the sweep, the death record, kill messages and their
acknowledgements; and remote accesses and wakes that peers send (R288, R307). -/
namespace Sys2Proof.Machine

/-! The sweep (R268, steps 1 to 4). -/

/-- Pending stores are discarded, their accesses no longer in flight (R161, R180). -/
def State.discardStores (s : State) : List Store → State
  | [] => s
  | e :: l =>
    (if l.any (fun x => x.acc == e.acc && x.ent == e.ent && x.ctx == e.ctx) then s else s.lowerInfl e.ctx e.ent).discardStores l

/-- The accesses in flight of the task on a core are discarded (R161, R207). -/
def State.discardAccesses (s : State) (c : Nat) : State :=
  let t := s.task c
  let s := s.discardStores t.stores
  let ents := t.loads.filterMap (·.ent) ++ t.atomics.map (·.ent) ++ t.vatom.toList.map (·.ent) ++ t.owed.toList.map (·.ent)
  ents.foldl (fun s i => s.lowerInfl t.ctx i) s

/-- Whether a core holds a task of a kernel, running, saved, restored or stopped by its trap. -/
def Core.ofKernel (x : Core) (kid : Nat) : Bool := x.mode != .idle && x.task.kid == kid

/-- A JOIN, SPAWN or YIELD that has made its step completes by pushing its record, whatever its ring holds (R32) (log 84). -/
def State.pushStopped (s : State) (c : Nat) : State :=
  match (s.task c).push with
  | some r => s.pushRecord (s.task c).part (s.task c).ctx (c / 64) none r
  | none => s

/-- The words in execution on a core that raise no trap complete (R32): atomics take their steps, a QFLUSH goes on, a record is pushed. A
write that a full dirty log ring holds has no effect (log 100). -/
def State.finishWords (s : State) (c : Nat) : State :=
  ((((s.finishAtomics c).finishLanes c).finishFlush c .a).finishFlush c .x).pushStopped c

/-- The task on a core is stopped and discarded with all it holds, its loads among it (R207, R268, steps 1 and 3), once its words in execution
have completed (R32). -/
def State.stopTask (s : State) (c : Nat) : State :=
  let s := s.finishWords c
  let t := s.task c
  let g := (s.core c).group
  let s := ((((s.discardAccesses c).leaveShares c).releaseLease c).leaveGroup g 1).unhold t.part [c, 1024 + c, 1536 + c]
  s.setCore c { s.core c with
    mode := .idle, restoring := none, group := none, level := 0, blockedFor := 0, idleFor := 0, idleSince := s.cyc, held := none,
    keptLease := none
    task := { (s.core c).task with stores := [], loads := [], atomics := [], vatom := none, owed := none, port := none, push := none, mq := [], mstart := false, mwork := MatrixWork.idle, mheld := none, cq := [],
                                   setters := [], names := [], nstX := [], yreq := 0#42 } }

/-- Tasks that a record stands for: those of its team that have not ended; none where it only waits for a peer's record. -/
def RingRec.liveTasks (r : RingRec) : Nat :=
  match r.place with
  | .awaited .. => 0
  | .ring | .held | .offered _ | .moving .. | .fault .. => if r.img.isEmpty then r.record.tasks else (r.img.filter (fun x => !x.ended)).length

/-- The launch groups of a discarded record's tasks lose them. -/
def State.leaveByRecord (s : State) (r : RingRec) : State :=
  if r.img.isEmpty then s.leaveGroup r.group r.liveTasks
  else r.img.foldl (fun s x => if x.ended then s else s.leaveGroup (s.member x.task.uid).group 1) s

/-- Records and images of which a test holds are discarded, in rings, on fault lists and in shadow slots, and their claims released
(R268, step 2); a peer that has the offer of one gives it up (R293). -/
def State.discardRecords (s : State) (p : RingRec → Bool) : State :=
  let shadows := s.cores.filterMap (fun x => x.2.shadow)
  let gone := (s.records ++ shadows).filter p
  let s := gone.foldl (fun s r => (s.callBack r).leaveByRecord r) s
  { s with
    records := s.records.filter (fun r => !p r)
    cores := NMap.mapv s.cores (fun _ x => { x with
      shadow := match x.shadow with
        | some r => if p r then none else some r
        | none => none
      claim := match x.claim with
        | some i => if gone.any (fun r => r.id == i) then none else some i
        | none => none }) }

/-- The chains of which a test holds are cancelled with code 0x0008 (R218, R251). -/
def State.cancelChains (s : State) (p : Chain → Bool) : State :=
  let l := s.cores.flatMap (fun x => (x.2.chains.filter p).map (fun h => (x.1, h)))
  l.foldl (fun s x => s.chainError x.1 x.2 8) s

/-- The members of which a test holds have ended; their contributions to collectives and the timers they alone would wait at are gone, so an
instance whose members have all died posts no event 0x52 (R251, R296) (log 102). -/
def State.endMembers (s : State) (p : Member → Bool) : State :=
  let dead (uid : Nat) : Bool := p (s.member uid)
  let timers := s.timers.filter (fun t => (s.keyMembers t.key).isEmpty || (s.keyMembers t.key).any (fun x => !p x.2))
  let colls := (s.collectives.map (fun x => { x with
    contribs := x.contribs.filter (fun b => !dead b.uid), work := x.work.map (·.filter (fun p => !dead p.dest.uid)) })).filter
      (fun x => !x.contribs.isEmpty)
  { s with
    members := NMap.mapv s.members (fun _ m => if p m then { m with ended := true, arrived := none, away := false } else m)
    timers := timers
    collectives := colls }

/-- Whether the free event changes an entry: it holds something that a death frees (R162, R164). -/
def PetEntry.freeable (e : PetEntry) : Bool :=
  match e.state with
  | .active | .dead | .quiescing | .held => true
  | .free | .freeing | .quarantined => false

/-- Entries of a kernel that a death frees. -/
def State.entriesOf (s : State) (ctx kid : Nat) : Nat :=
  match NMap.get s.contexts ctx with
  | some x => (x.pet.filter (fun e => e.2.kid == kid && e.2.freeable)).length
  | none => 0

/-- Tasks of a kernel on the package: on cores, and in records and images. -/
def State.tasksOf (s : State) (kid : Nat) : Nat :=
  (s.cores.filter (fun x => x.2.ofKernel kid)).length
    + (((s.records ++ s.cores.filterMap (fun x => x.2.shadow)).filter (fun r => r.key == kid)).map (·.liveTasks)).sum

/-- The launch groups of a kernel stand for no task, and none of their records is unplaced: its tasks are gone on every package (R147, R290). -/
def State.closeGroups (s : State) (kid : Nat) : State :=
  { s with groups := NMap.mapv s.groups (fun _ x => if x.kid = kid then { x with live := 0, open_ := 0, moving := 0 } else x) }

/-- Steps 1 to 4 of R268 for a kernel. An offer of a record made before is declined from now on (R293). -/
def State.sweep (s : State) (kid ctx : Nat) : State :=
  let cs := (s.cores.filter (fun x => x.2.ofKernel kid)).map (·.1)
  let s := cs.foldl (fun s c => s.stopTask c) s
  let s := s.discardRecords (fun r => r.key == kid)
  let s := (s.cancelChains (fun h => h.kid == kid)).endMembers (fun m => m.kid == kid)
  ((s.closeGroups kid).modKernel kid (fun k => { k with deaths := k.deaths + 1 })).modContext ctx (fun x => { x with pet := NMap.mapv x.pet (fun i e => if e.kid = kid then s.freed ctx i e else e) })

/-! The death record and the other packages (R268, step 5, R290). -/

/-- Writes the death record once every package has acknowledged; the kernel may be launched again (log 38). -/
def State.closeDeath (s : State) (kid : Nat) : State :=
  match s.kernel kid with
  | none => s
  | some k =>
    match k.dying with
    | none => s
    | some d =>
      if d.swept && d.acks.isEmpty then
        (s.postRecord kid ⟨recWord 5#8 0#8 kid d.core 0, BitVec.ofNat 64 d.absorbed, BitVec.ofNat 64 d.tasks, BitVec.ofNat 64 d.freed⟩).modKernel kid
          (fun k => { k with dying := none })
      else s

/-- KERNEL_DEATH (R268, R290): the sweep here, the kill messages to the other packages, the death record. -/
def execKernelDeath (kid : Nat) (s : State) : Out :=
  match s.kernel kid with
  | none => .next s
  | some k =>
    match k.dying with
    | none => .next s
    | some d =>
      if d.swept then .next (s.closeDeath kid)
      else
        let peers := (s.partOf (s.partOfContext k.ctx)).peers
        let d' := { d with swept := true, tasks := s.tasksOf kid, freed := s.entriesOf k.ctx kid, acks := peers, since := s.cyc }
        let u := (s.sweep kid k.ctx).modKernel kid (fun k => { k with dying := some d' })
        .next ({ u with outbox := u.outbox ++ peers.map (fun p => Msg.kill p kid) }.closeDeath kid)

/-- KILL (R290): steps 1 to 4 of R268 at a peer's message, and the acknowledgement. -/
def execKill (kid : Nat) (s : State) : Out :=
  match s.kernel kid with
  | none => .next { s with outbox := s.outbox ++ [.killAck kid] }
  | some k =>
    let u := s.sweep kid k.ctx
    .next { u with outbox := u.outbox ++ [.killAck kid] }

/-- A package no longer awaited. -/
def State.acknowledge (s : State) (kid pkg : Nat) : State :=
  (s.modKernel kid (fun k => { k with dying := k.dying.map (fun d => { d with acks := d.acks.filter (fun p => p != pkg) }) })).closeDeath kid

/-- Whether a death waits for a package's acknowledgement. -/
def Kernel.awaits (k : Kernel) (pkg : Nat) : Bool :=
  match k.dying with
  | some d => d.swept && d.acks.contains pkg
  | none => false

/-- KILL_ACKNOWLEDGEMENT (R290). -/
def execKillAcknowledgement (kid pkg : Nat) (s : State) : Out :=
  match s.kernel kid with
  | some k => if k.awaits pkg then .next (s.acknowledge kid pkg) else .next s
  | none => .next s

/-- Kernel ids loaded into a context. -/
def State.kernelsIn (s : State) (ctx : Nat) : List Nat := (s.kernels.filter (fun k => k.2.ctx == ctx)).map (·.1)

/-- Whatever a context's kernels still do is stopped and discarded (R162, R318). -/
def State.sweepContext (s : State) (ctx : Nat) : State := (s.kernelsIn ctx).foldl (fun s k => s.sweep k ctx) s

/-- Contexts of a partition. -/
def State.contextsOf (s : State) (part : Nat) : List Nat := (s.contexts.filter (fun x => x.2.part == part)).map (·.1)

/-- The other packages of the partitions that a package belongs to. -/
def State.partnersOf (s : State) (pkg : Nat) : List Nat :=
  ((s.partitions.filter (fun p => p.2.packages.contains pkg)).flatMap (fun p => p.2.peers)).eraseDups.filter (fun p => p != pkg)

/-- A package counts as failed: every package of its partitions stops their kernels (R298): this one, and the others by a message. -/
def State.packageFails (s : State) (pkg : Nat) : State :=
  if s.device.failed.contains pkg then s
  else
    let s := { s with device := { s.device with failed := s.device.failed ++ [pkg] } }.notify (.packageFailed pkg)
    let hit := NMap.keys (s.partitions.filter (fun p => p.2.packages.contains pkg))
    let u := (hit.flatMap s.contextsOf).foldl (fun s c => s.sweepContext c) s
    (s.partnersOf pkg).foldl (fun u p => u.send (.packageFailed p pkg)) u

/-- KILL_ACK_TIMEOUT (R290, R298): 10 ms of the arithmetic clock without the acknowledgement. -/
def execKillAckTimeout (kid pkg : Nat) (s : State) : Out :=
  match s.kernel kid with
  | none => .next s
  | some k =>
    match k.dying with
    | none => .next s
    | some d =>
      if k.awaits pkg && decide (10000 * s.device.clock ≤ (s.cyc - d.since).toNat) then .next ((s.packageFails pkg).acknowledge kid pkg)
      else .next s

/-! Accesses and wakes from peers (R288, R307). -/

/-- Whether every byte of a range has a home on this package. -/
def State.atHome (s : State) (a n : Nat) : Bool :=
  (List.range n).all (fun i => match place s.nstr (a + i) with
    | some (.near ..) | some (.far ..) | some (.pool ..) => true
    | some (.host _) | some (.remote _) | none => false)

/-- The first byte of a range that has no home on this package. -/
def State.firstUnmapped (s : State) (a n : Nat) : Nat :=
  ((List.range n).find? (fun i => !s.atHome (a + i) 1)).elim a (fun i => a + i)

/-- Whether a partition owns the memory at home that an access may reach (R6, R313, R315): its far tier is read, never written. -/
def State.owns (s : State) (part a n : Nat) (wr : Bool) : Bool := (if wr then [0, 1] else [0, 1, 2]).any (fun tier => s.frameOk part tier a n)

/-- Whether a range is memory of another package or of the host, or lies in the wake windows of another package, whose counts it tells (R156,
R306). -/
def State.atPeer (s : State) (a n : Nat) : Bool :=
  (List.range n).all (fun i => match place s.nstr (a + i) with
    | some (.remote _) => decide (Config.remoteBase + 65536 ≤ a + i) && decide (a + i < Config.wakeBase)
    | some (.host _) => true
    | some (.near ..) | some (.far ..) | some (.pool ..) | none => false)

/-- A remote access takes its step at home here, or changes what stands at a peer's home; its answer goes back (R288). -/
def State.remoteStep (s : State) : RemoteOp → State
  | .read a n => s.send (.readData ((List.range n).map (fun i => s.homeByte (a + i))))
  | .write a bs => (s.writeCells ((List.range bs.length).map (fun i => (a + i, bs[i]?.getD 0#8)))).send .writeAck
  | .atomic a n op fp v cmp =>
    let old := s.readNat a n
    let lim := 2 ^ (8 * n)
    let new := if fp then (laneAtomic op true old (v.toNat % lim)).1 else op.apply n old (v.toNat % lim) (cmp.toNat % lim)
    let bs := bytesOf n new
    -- a compare that fails writes nothing (R200)
    let u := if op = .cas ∧ old ≠ cmp.toNat % lim then s else s.writeCells ((List.range bs.length).map (fun i => (a + i, bs[i]?.getD 0#8)))
    u.send (.fetched (BitVec.ofNat 64 old))
  | .home a bs => { s with mem := s.mem.writeCells ((List.range bs.length).map (fun i => (a + i, bs[i]?.getD 0#8))) }

/-- The bytes that a remote access concerns: address and number. -/
def remoteRange : RemoteOp → Nat × Nat
  | .read a n | .atomic a n .. => (a, n)
  | .write a bs | .home a bs => (a, bs.length)

/-- Whether a remote access may write at home. -/
def writesHome : RemoteOp → Bool
  | .read .. => false
  | .write .. | .atomic .. | .home .. => true

/-- Whether a range lies in this package's wake window as a partition reaches it, where it has wake registers (R306, R315). -/
def State.inOwnWindow (s : State) (part a n : Nat) : Bool :=
  decide (Config.wakeBase + 65536 * part ≤ a) && decide (a + n ≤ Config.wakeBase + 65536 * (part + 1)) && !(s.partOf part).own.wakeRegs.isEmpty

/-- REMOTE_ACCESS (R288, R306, R315): a peer's access in a partition's security domain; one outside what the partition owns is dropped, and a
write of its far tier (R6). In the wake window a load finds the pending counts; an 8-byte store is STOLOLAYR_WAKE, and no other write
comes. -/
def execRemoteAccess (part : Nat) (op : RemoteOp) (s : State) : Out :=
  let a := (remoteRange op).1
  let n := (remoteRange op).2
  match op with
  | .home .. => if s.atPeer a n then .next (s.remoteStep op) else .next s
  | .read .. | .write .. | .atomic .. =>
    if s.inOwnWindow part a n then .next (if writesHome op then s else s.remoteStep op)
    else if !s.atHome a n then .fault (.unmapped (s.firstUnmapped a n))
    else if s.owns part a n (writesHome op) then .next (s.remoteStep op)
    else .next s

/-- STOLOLAYR_WAKE (R288, R306, R307, R315): an 8-byte write of a peer to a wake register. -/
def execStololayrWake (part reg : Nat) (value : BitVec 64) (s : State) : Out := .next (s.wakeWrite part reg value)

/-- WAKE_REGISTER_WRITE (R306, R315): an 8-byte write of the host to a wake register. -/
def execWakeRegisterWrite (part reg : Nat) (value : BitVec 64) (s : State) : Out := .next (s.wakeWrite part reg value)

end Sys2Proof.Machine
end

