-- ==== Sys2Proof/Machine/Drydown.lean ====
section
/-! DEFINITION. What system software does to pinned entries, masks and the dirty log: Drydown (R164, R165, R169), the page-walk cache
(R158), the hash masks (R167), the dirty log's registers (R321, R322), and the patrol scrubber (R172). -/
namespace Sys2Proof.Machine

/-! Drydown (R164). -/

/-- Whether the stage gives service (R324): none in VERIFY, a new image only in RECOVERY. -/
def State.serves (s : State) : Bool := s.device.stage == .reduced || s.device.stage == .full
/-- A request that the front end rejects. -/
def State.reject (s : State) (what : String) : State := s.notify (.rejected what)

/-- Sends home every pending store through an entry (R164); a wake goes home by itself, after the storer's earlier accesses (R307). -/
def State.drainEntry (s : State) (ctx i : Nat) : State :=
  (NMap.keys s.cores).foldl (fun s c => s.drainWhere c (fun e => e.ent == i && e.ctx == ctx && e.wake.isNone)) s

/-- REVOCATION_REQUEST (R164): of an entry that is under revocation already it changes nothing, of one that holds nothing it is rejected (log
92). -/
def execRevocationRequest (ctx entry : Nat) (s : State) : Out :=
  let e := s.entry ctx entry
  match e.state with
  | .active => .next ((s.setEntry ctx entry { e with state := .quiescing }).drainEntry ctx entry)
  | .quiescing | .held => .next s
  | .free | .freeing | .dead | .quarantined => .next (s.reject "REVOCATION_REQUEST")

/-- ENTRY_HELD (R164). -/
def execEntryHeld (ctx entry : Nat) (s : State) : Out :=
  let e := s.entry ctx entry
  if e.state = .quiescing ∧ e.infl = 0 then .next ((s.setEntry ctx entry { e with state := .held }).notify (.entryHeld ctx entry))
  else .next s

/-- One word of a new frame list in place of a page (R161, R315): where it names a frame of the tier that the partition owns. -/
def State.newFrame (s : State) (part tier : Nat) (f : Frame) (w : Nat) : Option Frame :=
  let index := w / 2 ^ 16 % 2 ^ 32 * 2 ^ 16
  let swz := w / 4 % 8
  let phys := if tier = 3 then windowAt part index else index
  if w / 2 ^ 48 ≠ 0 ∨ w % 2 ≠ 0 ∨ w / 32 % 2 ^ 11 ≠ 0 ∨ (swz ≠ 0 ∧ tier ≠ 0) ∨ (f.size = 2 ^ 21 ∧ index % 2 ^ 21 ≠ 0)
      ∨ s.frameOk part tier phys f.size = false then none
  else
    let dirty := match f.leaf with
      | some a => (s.mem.read (a + 1)).getLsbD 2
      | none => false
    some { f with phys := phys, dte := w / 2 % 2 == 1, swz := swz, wake := tier == 3 && decide (index < windowEnd), dirty := dirty }

/-- A new frame list in place of an entry's pages, word by word. -/
def State.newFrames (s : State) (part tier : Nat) : List Frame → List Nat → Option (List Frame)
  | [], [] => some []
  | f :: fs, w :: ws =>
    match s.newFrame part tier f w, s.newFrames part tier fs ws with
    | some x, some l => some (x :: l)
    | _, _ => none
  | _, _ => none

/-- Granules of an anonymous entry. -/
def PetEntry.granules (e : PetEntry) : List Nat := (List.range (e.len / 4096)).map (fun j => e.base / 4096 + j)

/-- An anonymous entry moved to new granules: free ones of the partition's regions, in near memory. -/
def State.moveGranules (s : State) (part : Nat) (e : PetEntry) (a : Nat) : Option (PetEntry × State) :=
  let p := s.partOf part
  let new := { e with base := a }.granules
  let used := p.granules.filter (fun g => !e.granules.contains g)
  if a % 4096 = 0 ∧ inRanges (anonRanges p.own) a e.len ∧ s.frameOk part 1 a e.len ∧ new.all (fun g => !used.contains g) then
    some ({ e with base := a }, s.modPartition part (fun p => { p with granules := new ++ used }))
  else none

/-- The entry that a refresh gives, when the front end takes it: the frames of the same tier and number (R164, R315). -/
def State.refreshed (s : State) (ctx : Nat) (e : PetEntry) (words : List Nat) : Option (PetEntry × State) :=
  let part := s.partOfContext ctx
  match e.origin with
  | .translated => (s.newFrames part e.tier e.frames words).map (fun l => ({ e with frames := l }, s))
  | .anonymous => match words with
    | [a] => s.moveGranules part e a
    | _ => none
  | .scratchpad => if words = [e.base - poolBase e.core] then some (e, s) else none

/-- REFRESH (R164, R165): HELD to ACTIVE with a new frame list, which takes what context images owe it (R263); a free recorded meanwhile is
applied by ENTRY_FREED. Of an entry that is not HELD it is rejected (log 92). -/
def execRefresh (ctx entry : Nat) (frames : List Nat) (s : State) : Out :=
  let e := s.entry ctx entry
  if e.state = .held then
    match s.refreshed ctx e frames with
    | some (e', s') => .next ((s'.setEntry ctx entry { e' with state := .active }).payFrames ctx entry)
    | none => .next (s.reject "REFRESH")
  else .next (s.reject "REFRESH")

/-- ENTRY_KILL (R164): HELD to DEAD, event 0x41 to the kernel of the entry, with CORE 0 (log 39); of an entry that is not HELD it is
rejected (log 92). -/
def execEntryKill (ctx entry : Nat) (s : State) : Out :=
  let e := s.entry ctx entry
  if e.state = .held then
    .next ((s.setEntry ctx entry { e with state := .dead }).postEvent e.kid 0x41#8 0 ((handleOf e.gen entry).setWidth 64))
  else .next (s.reject "ENTRY_KILL")

/-- ENTRY_FREED (R164, R169): the free recorded while an entry was revoked is applied, once the
accesses held there have gone on; an entry whose last access is home releases its
frames and becomes FREE, or QUARANTINED when its generation has come back to 0 (log 50). -/
def execEntryFreed (ctx entry : Nat) (s : State) : Out :=
  let e := s.entry ctx entry
  match e.state with
  | .active | .dead => if e.freeLater && !s.accessHeld ctx entry then .next (s.setEntry ctx entry { e.free with freeLater := false }) else .next s
  | .freeing =>
    if e.infl = 0 then
      let s' := if e.origin = .anonymous then
          s.modPartition (s.partOfContext ctx) (fun p => { p with granules := p.granules.filter (fun g => !e.granules.contains g) })
        else s
      .next (s'.setEntry ctx entry (if e.gen = 0#12 then { e with state := .quarantined } else { PetEntry.fresh with gen := e.gen }))
    else .next s
  | .quiescing | .held | .free | .quarantined => .next s

/-! The page-walk cache and the hash masks. -/

/-- PWC_INVALIDATE (R158). -/
def execPwcInvalidate (ctx : Nat) (s : State) : Out := .next (s.modContext ctx (fun x => { x with pwc := [] }))

/-- Physical ranges that an entry holds: its frames, released with FREE and QUARANTINED. -/
def PetEntry.extents (e : PetEntry) : List (Nat × Nat) :=
  match e.state with
  | .free | .quarantined => []
  | .active | .quiescing | .held | .dead | .freeing =>
    match e.origin with
    | .translated => e.frames.map (fun f => (f.phys, f.size))
    | .anonymous | .scratchpad => [(e.base, e.len)]

/-- Whether any part of a range lies where a test says. -/
def State.rangeMeets (s : State) (f : Place → Bool) (r : Nat × Nat) : Bool :=
  let at_ (a : Nat) : Bool := match place s.nstr a with
    | some p => f p
    | none => false
  decide (0 < r.2) && (at_ (r.1 + r.2 - 1) || (List.range (r.2 / 4096 + 1)).any (fun i => decide (4096 * i < r.2) && at_ (r.1 + 4096 * i)))

/-- Whether any entry of any address space has frames where a test says. -/
def State.framesMeet (s : State) (f : Place → Bool) : Bool :=
  s.contexts.any (fun x => x.2.pet.any (fun e => e.2.extents.any (s.rangeMeets f)))

/-- Whether a place lies in a stack, near or far. -/
def Place.inStack (st : Nat) : Place → Bool
  | .near x _ | .far x _ => x == st
  | .pool .. | .host _ | .remote _ => false

/-- HMASK_SET (R167): rejected while any entry has frames in the stack; the reserved bits keep reading zero. -/
def execHmaskSet (stack : Nat) (masks : List (BitVec 64)) (s : State) : Out :=
  match masks with
  | [m0, m1, m2, m3, m4, m5] =>
    if !s.serves ∨ 8 ≤ stack ∨ s.framesMeet (Place.inStack stack) then .next (s.reject "HMASK_SET")
    else
      let f (m : BitVec 64) : BitVec 64 := m &&& 0x0000FFFFFFFFC000#64
      .next { s with hmask := s.hmask.setIfInBounds stack #v[f m0, f m1, f m2, f m3, f m4, f m5] }
  | _ => .next (s.reject "HMASK_SET")

/-! The dirty log (R321, R322). -/

/-- DLB_WRITE (R321): HEAD and TAIL return to 0; a LOG outside 0 and 6 to 20 is rejected, and a ring that does not lie in the near tier of
the partition (log 31). -/
def execDlbWrite (part : Nat) (value : BitVec 64) (s : State) : Out :=
  let log := (fld value 0 5).toNat
  if log = 0 ∨ (6 ≤ log ∧ log ≤ 20 ∧ s.frameOk part 1 (4096 * (fld value 12 36).toNat) (8 * 2 ^ log)) then
    .next (s.modPartition part (fun p => { p with dlb := value &&& 0x0000FFFFFFFFF01F#64, dlh := 0#32, dlt := 0#32, dltSeen := 0#32 }))
  else .next (s.reject "DLB_WRITE")

/-- DLT_WRITE (R321, R322): rejected where it would place TAIL after HEAD. -/
def execDltWrite (part : Nat) (value : BitVec 64) (s : State) : Out :=
  let t : BitVec 32 := value.setWidth 32
  if reached (s.partOf part).dlh t then .next (s.modPartition part (fun p => { p with dlt := t })) else .next (s.reject "DLT_WRITE")

/-- DLX_CLEAR (R321, R322): FULL clears where a one is written. -/
def execDlxClear (part : Nat) (value : BitVec 64) (s : State) : Out :=
  .next (s.modPartition part (fun p => { p with dlx := p.dlx &&& ~~~(value.setWidth 1) }))

/-! Counters (R330) and the patrol scrubber (R172, R329). -/

/-- Whether the package has a check point (R1, R330): eight core dies, and the hub die, 8 here, at the end of die-to-die links; sixteen stacks;
32 ports. -/
def pointHere : CheckPoint → Bool
  | .pool d | .mesh d => decide (d < 8)
  | .hbm st => decide (st < 16)
  | .dieToDie d => decide (d < 9)
  | .ethernet p => decide (p < 32)

/-- Number of a check point's counter. -/
def checkIndex : CheckPoint → Nat
  | .pool d => d % 16
  | .hbm st => 16 + st % 16
  | .mesh d => 32 + d % 16
  | .dieToDie d => 48 + d % 16
  | .ethernet p => 64 + p

/-- Every check point of the package (R330). -/
def checkPoints : List CheckPoint :=
  (List.range 8).map .pool ++ (List.range 16).map .hbm ++ (List.range 8).map .mesh ++ (List.range 9).map .dieToDie
    ++ (List.range 32).map .ethernet

/-- A counter of a check point. -/
def State.counter (s : State) (i : Nat) : CheckCounter := NMap.getD s.device.counters i ⟨0#16, 0#32, 0⟩
/-- Replaces a counter. -/
def State.setCounter (s : State) (i : Nat) (x : CheckCounter) : State :=
  { s with device := { s.device with counters := NMap.set s.device.counters i x } }

/-- `n` more corrected errors or retries, saturating. -/
def CheckCounter.correct (x : CheckCounter) (n : Nat) : CheckCounter := { x with cor := BitVec.ofNat 32 (min (2 ^ 32 - 1) (x.cor.toNat + n)) }
/-- One more uncorrectable error, saturating. -/
def CheckCounter.fail (x : CheckCounter) : CheckCounter := { x with unc := BitVec.ofNat 16 (min (2 ^ 16 - 1) (x.unc.toNat + 1)) }
/-- Counts `n` corrected errors at a check point. -/
def State.countCorrected (s : State) (p : CheckPoint) (n : Nat) : State := s.setCounter (checkIndex p) ((s.counter (checkIndex p)).correct n)

/-- Whether a task runs on the package (R329). -/
def State.taskRuns (s : State) : Bool := s.cores.any (fun x => x.2.mode != .idle)

/-- Whether a power state gives up dispatch. -/
def PowerState.down : PowerState → Bool
  | .parked | .off => true
  | .active | .idle => false

/-- The HBM stack that an address lies in: 0 to 7 near, 8 to 15 far. -/
def State.stackAt (s : State) (a : Nat) : Option Nat :=
  match place s.nstr a with
  | some (.near st _) => some st
  | some (.far st _) => some (8 + st)
  | some (.pool ..) | some (.host _) | some (.remote _) | none => none

/-- Whether the patrol scrubber may work on a stack: it has power (R326), and in locked-clock mode no task runs (R329). -/
def State.scrubs (s : State) (st : Nat) : Bool := !PowerState.down (s.die (st % 8)).power && !(s.device.locked && s.taskRuns)

/-- SCRUB_READ (R172, R330): a granule is read, its flag cleared, and an error that the codes correct counted at its stack. -/
def execScrubRead (granule : Nat) (corrected : Bool) (s : State) : Out :=
  match s.stackAt (64 * granule) with
  | none => .next s
  | some st =>
    if s.scrubs st then
      let u := if corrected then s.countCorrected (.hbm st) 1 else s
      .next { u with scrubbed := NMap.set s.scrubbed granule (BitVec.ofNat 512 (s.readNat (64 * granule) 64)) }
    else .next s

/-- SCRUB_WRITE_BACK (R172): the corrected data goes back only where the flag is still clear (log 62). -/
def execScrubWriteBack (granule : Nat) (s : State) : Out :=
  match NMap.get s.scrubbed granule, s.stackAt (64 * granule) with
  | some v, some st => if s.scrubs st then .next { s with mem := s.mem.writeRun (64 * granule) (bytesOf 64 v.toNat) } else .next s
  | _, _ => .next s

end Sys2Proof.Machine
end

