-- ==== Sys2Proof/Machine/Loader.lean ====
section
/-! DEFINITION. The kernel loader (R49 to R52, R151, R304, R333): the scan of a text, the checks and their statuses, the constant extent. -/
namespace Sys2Proof.Machine

/-! The scan (R49). -/

/-- Whether a word is a DATA header of an assigned kind (R47). -/
def isHeader (w : Word32) : Bool := fld w 30 2 == 3#2 && fld w 24 6 == 0x3F#6 && decide ((fld w 0 12).toNat < 2)
/-- COUNT of a DATA header. -/
def headerCount (w : Word32) : Nat := (fld w 12 12).toNat
/-- KIND of a DATA header. -/
def headerKind (w : Word32) : Nat := (fld w 0 12).toNat

/-- What the scan of a text finds: headers with the words they take and their kind, the executable B words, a body that runs past the
end. -/
structure Scan where
  data : List (Nat × Nat × Nat)
  marks : List Nat
  runsOut : Bool
deriving DecidableEq, Repr

/-- The scan of a text from word `i` on; `n` words of a body are still to be passed over (R49). -/
def scanText : List Word32 → Nat → Nat → Scan
  | [], _, n => ⟨[], [], decide (0 < n)⟩
  | _ :: l, i, n + 1 => scanText l (i + 1) n
  | w :: l, i, 0 =>
    if isHeader w then
      let r := scanText l (i + 1) (headerCount w)
      { r with data := (i, headerCount w + 1, headerKind w) :: r.data }
    else
      let r := scanText l (i + 1) 0
      if fld w 30 2 = 2#2 then { r with marks := i :: r.marks } else r

/-! The static targets (R50). -/

/-- The status that a word's static target gives, 0 for none: `k` is the kernel as scanned. -/
def targetStatus (k : Kernel) (i : Nat) (w : Word32) : Nat :=
  let op := (fld w 24 6).toNat
  let inText (t : Int) : Bool := decide (0 ≤ t) && decide (t < k.textLen)
  let t12 : Int := (i : Int) + (fld w 0 12).toInt
  let t24 : Int := (i : Int) + (fld w 0 24).toInt
  if fld w 30 2 = 0#2 ∨ fld w 30 2 = 1#2 then
    if op = 0x10 ∧ !(inText t12 && k.interval t12.toNat == k.interval i) then 3 else 0
  else if fld w 30 2 = 2#2 then
    if (op = 0x00 ∨ op = 0x03 ∨ op = 0x0B) ∧ !inText t24 then 4
    else if (op = 0x01 ∨ op = 0x02) ∧ !inText t12 then 4
    else if 0x05 ≤ op ∧ op ≤ 0x07 ∧ !k.executable (i + (fld w 0 12).toNat) then 5
    else 0
  else 0

/-- The statuses of the executable words of a text from word `i` on. -/
def targetStatuses (k : Kernel) : List Word32 → Nat → List Nat
  | [], _ => []
  | w :: l, i => (if k.executable i then targetStatus k i w else 0) :: targetStatuses k l (i + 1)

/-! The constant extent (R52). -/

/-- The bytes of words, little-endian (R8). -/
def bytesOfWords (l : List Word32) : List Byte := l.flatMap bytesOfWord

/-- Bodies laid out in text order, each on a 256-byte boundary: the bytes, and offset and length of the parameter block. -/
def constExtent (text : List Word32) (data : List (Nat × Nat × Nat)) : List Byte × Option (Nat × Nat) :=
  data.foldl (fun a x =>
    let body := bytesOfWords ((text.drop (x.1 + 1)).take (x.2.1 - 1))
    let pad := (256 - body.length % 256) % 256
    (a.1 ++ body ++ List.replicate pad 0#8, if x.2.2 = 1 then some (a.1.length, body.length) else a.2)) ([], none)

/-! LOAD (R304). -/

/-- The kernel that a load request asks for, as scanned. -/
def loadedKernel (req : LoadRequest) (x : Scan) (c : List Byte × Option (Nat × Nat)) : Kernel where
  ctx := req.ctx
  textAt := req.textAt
  textLen := req.text.length
  data := x.data.map (fun d => (d.1, d.2.1))
  marks := x.marks
  partw := req.partw.setWidth 22
  constAt := req.constAt
  constVa := req.constVa
  constLen := c.1.length
  param := c.2
  recLog := req.recLog
  area := []
  dropped := 0
  hostRing := []
  dying := none
  deaths := 0
  staged := none

/-- The lowest kernel id from `i` on that no kernel of a context has (R304); `fuel` bounds the search (log 8). -/
def State.freeKid (s : State) (ctx : Nat) : Nat → Nat → Option Nat
  | 0, _ => none
  | fuel + 1, i =>
    if 2 ^ 20 ≤ i then none
    else if (s.kernel (kernelKey ctx i)).isNone then some i
    else State.freeKid s ctx fuel (i + 1)

/-- Bytes that the staging memory of REDUCED holds (R325). -/
def State.staged (s : State) : Nat :=
  (s.kernels.map (fun k => if k.2.staged.isSome then 4 * k.2.textLen + k.2.constLen else 0)).sum

/-- The status of a load: the lowest that applies, 0 for success (R50, R151, R304, R325). -/
def State.loadStatus (s : State) (req : LoadRequest) : Nat :=
  let x := scanText req.text 0 0
  let c := constExtent req.text x.data
  let k := loadedKernel req x c
  let bad := targetStatuses k req.text 0
  if req.text.isEmpty || req.oddBytes != 0 || decide (2 ^ 22 < req.text.length) then 1
  else if x.runsOut then 2
  else if bad.contains 3 then 3
  else if bad.contains 4 then 4
  else if bad.contains 5 then 5
  else if decide (1 < (x.data.filter (fun (d : Nat × Nat × Nat) => d.2.2 == 1)).length) then 6
  else if !partwOk req.partw then 7
  else if (s.freeKid req.ctx (s.kernels.length + 1) 1).isNone then 8
  else if !req.room || (s.device.stage == .reduced && decide (2 ^ 20 < s.staged + 4 * k.textLen + k.constLen)) then 9
  else if decide (req.recLog < 6) || decide (16 < req.recLog) then 10
  else 0

/-- Whether two ranges share a byte. -/
def meets (a n b m : Nat) : Bool := decide (a < b + m) && decide (b < a + n)

/-- Whether a virtual range is free in a context: no constant extent lies in it, no translated entry names an address of it, and no page of it
is mapped. -/
def State.vaFree (s : State) (part ctx va n : Nat) : Bool :=
  s.kernels.all (fun x => x.2.ctx != ctx || !meets va n x.2.constVa.toNat x.2.constLen)
    && (match NMap.get s.contexts ctx with
      | some x => x.pet.all (fun e => e.2.origin != .translated || !e.2.inUse || !meets va n e.2.va.toNat e.2.len)
      | none => true)
    && (List.range ((n + 65535) / 2 ^ 16)).all (fun i => (s.walk ctx part (va + 2 ^ 16 * i)).1 == .miss && !s.stageMiss (s.device.stage == .reduced) ctx part (va + 2 ^ 16 * i))

/-- Whether the loader may choose these places (R52, R304, R333): near-tier memory of the partition that no other kernel's text or
constants use, and addresses of the device-managed half, from a multiple of 2^16 on and inside its 2^48 bytes, that nothing else uses
(log 54). -/
def State.loadPlaces (s : State) (part : Nat) (k : Kernel) : Bool :=
  let free (a n : Nat) : Bool := s.kernels.all (fun x => !meets a n x.2.textAt (4 * x.2.textLen) && !meets a n x.2.constAt x.2.constLen)
  s.frameOk part 1 k.textAt (4 * k.textLen) && free k.textAt (4 * k.textLen)
    && (k.constLen == 0 || (s.frameOk part 1 k.constAt k.constLen && free k.constAt k.constLen && !meets k.textAt (4 * k.textLen) k.constAt k.constLen))
    && k.constVa.msb && fld k.constVa 48 15 == 0#15 && fld k.constVa 0 16 == 0#16
    && decide ((fld k.constVa 0 48).toNat + k.constLen ≤ 2 ^ 48) && s.vaFree part k.ctx k.constVa.toNat k.constLen

/-- Copies a text and a constant extent to their places in the near tier (R52, R304). -/
def State.placeText (s : State) (k : Kernel) (text : List Word32) (consts : List Byte) : State :=
  (s.writeRun k.textAt (bytesOfWords text)).writeRun k.constAt consts

/-- Enters a kernel under a number, its text and constants in the near tier, or in REDUCED in staging memory (R52, R304, R325). -/
def State.enterKernel (s : State) (key : Nat) (k : Kernel) (text : List Word32) (consts : List Byte) : State :=
  if s.device.stage = .reduced then { s with kernels := NMap.set s.kernels key { k with staged := some (text, consts) } }
  else { s.placeText k text consts with kernels := NMap.set (s.placeText k text consts).kernels key k }

/-- The result word of a LOAD: kernel id in [19:0], offset and length of the parameter block in [41:20] and [63:42], in bytes and in units
of 256 bytes for the offset; zero without one (log 41). -/
def loadResult (kid : Nat) (p : Option (Nat × Nat)) : BitVec 64 :=
  match p with
  | some (o, n) => BitVec.ofNat 64 (kid % 2 ^ 20 + 2 ^ 20 * (o / 256 % 2 ^ 22) + 2 ^ 42 * (n % 2 ^ 22))
  | none => BitVec.ofNat 64 (kid % 2 ^ 20)

end Sys2Proof.Machine
end

