-- ==== Sys2Proof/Machine/FrontEnd.lean ====
section
/-! DEFINITION. Host command queues (R301 to R305): the read of packets, what each packet does, launch groups, and the records' way to the
host (R312, R319). -/
namespace Sys2Proof.Machine

/-! Service (R318, R324). -/

/-- Whether a partition's virtual device is RUNNING, in a stage that gives service. -/
def State.inService (s : State) (part : Nat) : Bool :=
  (s.device.stage == .reduced || s.device.stage == .full) && (NMap.get s.partitions part).isSome && (s.partOf part).vstate == .running
/-- Whether a partition's command queues take packets. -/
def State.takesPackets (s : State) (part : Nat) : Bool := s.inService part && !(s.partOf part).closing

/-! Packets. -/

/-- Opcode of a packet. -/
def packetOp (b : BitVec 512) : Nat := (fld b 0 8).toNat
/-- Whether bytes 1 to 7 of a packet are zero. -/
def packetClean (b : BitVec 512) : Bool := fld b 8 56 == 0#56
/-- Whether reading stops at a packet until it takes effect: a FENCE or an INDIRECT (R302, R303). -/
def packetStops (b : BitVec 512) : Bool := packetOp b == 4 || packetOp b == 5

/-- Replaces a command queue. -/
def State.setQueue (s : State) (n : Nat) (q : CmdQueue) : State := { s with queues := NMap.set s.queues n q }

/-- The packet of an opcode that takes effect next in a queue, with its depth (log 23). -/
def State.packet (s : State) (n op : Nat) : Option (CmdQueue × Nat) :=
  match NMap.get s.queues n with
  | none => none
  | some q =>
    match q.fetched with
    | [] => none
    | (b, d) :: _ => if !q.halted && s.takesPackets q.part && packetOp b == op && packetClean b then some (q, d) else none

/-- The block of the packet that takes effect next in a queue. -/
def State.headBlock (s : State) (n : Nat) : BitVec 512 := ((NMap.get s.queues n).bind (fun q => q.fetched.head?.map (·.1))).getD 0#512
/-- Operand `i` of that packet: 8 bytes, little-endian, from byte 8 on in the order of R301's table (log 23). -/
def State.operand (s : State) (n i : Nat) : Nat := (fld (s.headBlock n) (64 + 64 * i) 64).toNat

/-- The 16 bytes of a completion entry (R301). -/
def Completion.bytes (x : Completion) : List Byte :=
  bytesOf 4 (x.seqNo % 2 ^ 32) ++ bytesOf 2 (x.status % 2 ^ 16) ++ bytesOf 2 0 ++ bytesOf 8 x.value.toNat

/-- The packet at the head of a queue has taken effect: its completion entry, and the queue halted where the packet halts it (R301). -/
def CmdQueue.complete (q : CmdQueue) (status : Nat) (value : BitVec 64) (halt : Bool) : CmdQueue :=
  { q with
    fetched := q.fetched.drop 1, seqNo := q.seqNo + 1, completions := q.completions ++ [⟨q.seqNo, status, value⟩],
    stopped := q.stopped && !(q.fetched.drop 1).isEmpty, halted := halt }

/-- Puts a completion entry into a queue's completion ring in host memory (R301) (log 52). -/
def State.writeCompletion (s : State) (q : CmdQueue) (x : Completion) : State :=
  { s with mem := s.mem.writeRun (Config.hostBase + q.doneAt + 16 * (x.seqNo % 2 ^ q.log)) x.bytes }

/-- Completes the packet at the head of a queue. -/
def State.complete (s : State) (n status : Nat) (value : BitVec 64) (halt : Bool := false) : State :=
  match NMap.get s.queues n with
  | some q => (s.writeCompletion q ⟨q.seqNo, status, value⟩).setQueue n (q.complete status value halt)
  | none => s

/-- QUEUE_TAIL_WRITE (R301). -/
def execQueueTailWrite (queue tail : Nat) (s : State) : Out :=
  match NMap.get s.queues queue with
  | some q => .next (s.setQueue queue { q with tail := tail })
  | none => .next s

/-- The place of the next block that a queue reads, with its depth, and the queue once it is read: from the innermost buffer, else from
the ring (R302). -/
def CmdQueue.nextBlock (q : CmdQueue) : Option (Nat × Nat × CmdQueue) :=
  match q.buffers.dropWhile (fun b => b.2.1 == 0) with
  | (a, left, d) :: bs => some (a, d, { q with buffers := (a + 64, left - 64, d) :: bs })
  | [] =>
    if q.readPos < q.tail then some (q.base + 64 * (q.readPos % 2 ^ q.log), 0, { q with buffers := [], readPos := q.readPos + 1 }) else none

/-- PACKET_READ (R301, R303): one 64-byte block in one step, at most 4 KiB ahead; none behind a FENCE before it takes effect (log 43). -/
def execPacketRead (queue : Nat) (s : State) : Out :=
  match NMap.get s.queues queue with
  | none => .next s
  | some q =>
    if q.halted || q.stopped || decide (64 ≤ q.fetched.length) || !s.takesPackets q.part then .next s
    else
      match q.nextBlock with
      | none => .next s
      | some (a, d, q) =>
        let b : BitVec 512 := BitVec.ofNat 512 (s.readNat (Config.hostBase + a) 64)
        .next (s.setQueue queue { q with fetched := q.fetched ++ [(b, d)], stopped := packetStops b })

/-- UNKNOWN_COMMAND (R301): an unassigned opcode, status 0x10, or a nonzero byte 1 to 7, status 0x11, halts the queue; of both
the opcode (log 109). -/
def execUnknownCommand (queue : Nat) (s : State) : Out :=
  match NMap.get s.queues queue with
  | none => .next s
  | some q =>
    match q.fetched with
    | [] => .next s
    | (b, _) :: _ =>
      if q.halted || !s.takesPackets q.part then .next s
      else if packetOp b = 0 ∨ 7 < packetOp b then .next (s.complete queue 0x10 0#64 true)
      else if packetClean b then .next s
      else .next (s.complete queue 0x11 0#64 true)

/-- QUEUE_RESET (R301): a halted queue is emptied and takes packets again (log 53). -/
def execQueueReset (queue : Nat) (s : State) : Out :=
  match NMap.get s.queues queue with
  | some q =>
    if q.halted then
      .next (s.setQueue queue { q with halted := false, stopped := false, fetched := [], buffers := [], readPos := q.tail, launching := [] })
    else .next s
  | none => .next s

/-! LOAD (R304). -/

/-- Whether a load request is what its packet asks for (R301, log 23): the words at the host address, by the length in bytes, PARTW and the
capacity. -/
def State.loadNamed (s : State) (n : Nat) (req : LoadRequest) : Bool :=
  req.text == (List.range (s.operand n 1 / 4)).map (fun i => BitVec.ofNat 32 (s.readNat (Config.hostBase + s.operand n 0 + 4 * i) 4))
    && req.oddBytes == s.operand n 1 % 4 && req.partw.toNat == s.operand n 2 && req.recLog == s.operand n 3

/-- Whether a launch request is what its packet asks for (R301, log 23): a record of four words, COUNT, stride. -/
def State.launchNamed (s : State) (n : Nat) (req : LaunchRequest) : Bool :=
  req.record == ⟨BitVec.ofNat 64 (s.operand n 0), BitVec.ofNat 64 (s.operand n 1), BitVec.ofNat 64 (s.operand n 2), BitVec.ofNat 64 (s.operand n 3)⟩
    && req.count == s.operand n 4 && req.stride == BitVec.ofNat 32 (s.operand n 5)

/-- LOAD (R304): a load that fails does not halt its queue (log 17). -/
def execLoad (queue : Nat) (req : LoadRequest) (s : State) : Out :=
  match s.packet queue 1 with
  | none => .next s
  | some (q, _) =>
    if !s.loadNamed queue req || s.partOfContext req.ctx != q.part || (NMap.get s.contexts req.ctx).isNone then .next s
    else
      match s.loadStatus req with
      | 0 =>
        let x := scanText req.text 0 0
        let c := constExtent req.text x.data
        let k := loadedKernel req x c
        match s.freeKid req.ctx (s.kernels.length + 1) 1 with
        | some kid =>
          if s.loadPlaces q.part k then
            .next ((s.enterKernel (kernelKey req.ctx kid) k req.text c.1).complete queue 0 (loadResult kid k.param))
          else .next s
        | none => .next s
      | st => .next (s.complete queue st 0#64)

/-! LAUNCH and launch groups (R147, R305). -/

/-- Moves a record that waits for room into its ring (R113). -/
def State.letIn (s : State) (r : RingRec) : State :=
  if s.ringRoom r.part r.die r.level 1 then
    { s with records := s.records.filter (fun x => x.id != r.id)
        ++ [{ r with place := .ring, stamp := s.cyc.setWidth 40, record := r.record.stamped s.cyc }] }
  else s

/-- Records of a launch group that wait for room. -/
def State.heldOf (s : State) (g : Nat) : List RingRec := s.records.filter (fun r => r.place == .held && r.group == some g)
/-- Moves what has room into the rings. -/
def State.admitGroup (s : State) (g : Nat) : State := (s.heldOf g).foldl (fun s r => s.letIn r) s

/-- The records of a launch. -/
def launchRecords (r : Rec) (count : Nat) (stride : BitVec 32) : List Rec := (List.range count).map (fun i => r.strided i stride)

/-- The other packages of the partition hear of a launch group that begins (R147) (log 47). -/
def State.tellLaunch (s : State) (part g : Nat) (x : Group) (records : Nat) : State :=
  if 1 < (s.partOf part).packages.length then s.send (.launched part g x.kid records x.live) else s

/-- Pushes the records of one launch group, spread over dies in ascending order, record by record (R147, R305): all of them wait for
room, and go into their rings as far as there is room. -/
def State.launchGroup (s : State) (part ctx : Nat) (dies : List Nat) (recs : List Rec) : State :=
  let g := s.fresh
  let x : Group := ⟨part, kernelKey ctx ((recs.head?.map (·.kid)).getD 0), (recs.map Rec.tasks).sum, 0, 0⟩
  let s := { s with fresh := s.fresh + 1, groups := NMap.set s.groups g x }.tellLaunch part g x recs.length
  let s := (List.range recs.length).foldl (fun s i =>
    match recs[i]? with
    | some r =>
      let x := s.ringRec part ctx (dies[i % dies.length]?.getD 0) (some g) r
      { s with records := s.records ++ [{ x with place := .held }], fresh := s.fresh + 1 }
    | none => s) s
  s.admitGroup g

/-- Whether every frame of a launch is usable, none beyond 2^32 bytes (R259, R305). -/
def State.framesUsable (s : State) (ctx : Nat) (r : Rec) (count : Nat) (stride : BitVec 32) : Bool :=
  (List.range count).all (fun i => decide (r.foff + i * stride.toNat < 2 ^ 32) && s.frameUsable ctx (r.strided i stride))

/-- The status of a LAUNCH, 0 for success (R305). -/
def State.launchStatus (s : State) (part : Nat) (req : LaunchRequest) : Nat :=
  if req.count = 0 ∨ 4096 < req.count then 0x22
  else if s.partOfContext req.ctx ≠ part ∨ s.recordOk req.ctx req.record = false then 0x20
  else if !s.framesUsable req.ctx req.record req.count req.stride then 0x21
  else 0

/-- A group starts only when no task runs, in locked-clock mode (R329). -/
def State.mayStartGroup (s : State) : Bool := !(s.device.locked && s.taskRuns)

/-- Goes on with a LAUNCH or WAKE whose records wait for room in rings (R320). -/
def State.launchOn (s : State) (queue : Nat) (q : CmdQueue) : State :=
  let u := q.launching.foldl (fun s g => s.admitGroup g) s
  if q.launching.all (fun g => (u.heldOf g).isEmpty) then (u.setQueue queue { q with launching := [] }).complete queue 0 0#64
  else u.setQueue queue q

/-- LAUNCH (R305, R320): checks before anything is pushed; once begun it pushes all its records, a deschedule waits. -/
def execLaunch (queue : Nat) (req : LaunchRequest) (s : State) : Out :=
  match NMap.get s.queues queue with
  | none => .next s
  | some q =>
    if !q.launching.isEmpty then .next (s.launchOn queue q)
    else
      match s.packet queue 2 with
      | none => .next s
      | some (q, _) =>
        if !s.launchNamed queue req then .next s
        else
        match s.launchStatus q.part req with
        | 0 =>
          if s.mayStartGroup then
            .next ((s.launchGroup q.part req.ctx q.dies (launchRecords req.record req.count req.stride)).launchOn queue
              { q with launching := [s.fresh], groups := s.fresh :: q.groups })
          else .next s
        | st => .next (s.complete queue st 0#64)

/-! INDIRECT and FENCE (R302, R303). -/

/-- Whether a graph belongs to a partition. -/
def State.graphIn (s : State) (part i : Nat) : Bool :=
  match NMap.get s.graphs i with
  | some g => g.part == part
  | none => false

/-- INDIRECT (R302): its buffer's packets come next, address and length rounded down to packets (log 109); at depth 4 it halts the queue. -/
def execIndirect (queue addr len : Nat) (s : State) : Out :=
  match s.packet queue 4 with
  | none => .next s
  | some (q, d) =>
    if addr ≠ s.operand queue 0 ∨ len ≠ s.operand queue 1 then .next s
    else if d = 4 then .next (s.complete queue 0x12 0#64 true)
    else .next ((s.setQueue queue { q with buffers := (addr / 64 * 64, min (len / 64 * 64) (2 ^ 20), d + 1) :: q.buffers }).complete queue 0 0#64)

/-- Whether every task of a launch group has ended. -/
def State.groupEnded (s : State) (g : Nat) : Bool :=
  match NMap.get s.groups g with
  | some x => x.live == 0
  | none => true

/-- Whether every launch group that a queue's packets started has ended, those of its wakes that wait in a graph among them (R303, R320)
(log 51). -/
def State.launchesEnded (s : State) (queue : Nat) (q : CmdQueue) : Bool :=
  q.groups.all s.groupEnded && s.graphs.all (fun g => !g.2.sources.contains (some queue))

/-- FENCE (R303). -/
def execFence (queue : Nat) (s : State) : Out :=
  match s.packet queue 5 with
  | none => .next s
  | some (q, _) => if s.launchesEnded queue q then .next (s.complete queue 0 0#64) else .next s

/-! Records to the host (R312, R319). -/

/-- RECORD_COPY (R312, R319): the oldest record of a record area goes to the host's event ring while the device runs, or is discarded
and counted when its stamp is old. -/
def execRecordCopy (kid : Nat) (s : State) : Out :=
  match s.kernel kid with
  | none => .next s
  | some k =>
    match k.area with
    | [] => .next s
    | r :: rs =>
      let part := s.partOfContext k.ctx
      if !s.inService part then .next s
      else if r.incarnation ≠ (s.partOf part).incarnation then
        .next ((s.modKernel kid (fun k => { k with area := rs })).modPartition part (fun p => { p with stale := p.stale + 1 }))
      else if k.hostRing.length < Config.eventRingCapacity then
        .next (s.modKernel kid (fun k => { k with area := rs, hostRing := k.hostRing ++ [r.words] }))
      else .next s

/-- EVENT_RING_DRAIN (R312): the host takes what its event ring holds. -/
def execEventRingDrain (kid : Nat) (s : State) : Out := .next (s.modKernel kid (fun k => { k with hostRing := [] }))

end Sys2Proof.Machine
end

