-- ==== Sys2Proof/Machine/Graphs.lean ====
section
/-! DEFINITION. Task graphs (R308 to R310): registration, runs, loop and conditional nodes. -/
namespace Sys2Proof

/-! Descriptors (R308). -/

/-- Whether a node does tasks. -/
def NodeDesc.isTask (n : NodeDesc) : Bool :=
  match n.kind with
  | .task => true
  | .loop .. | .cond .. => false
/-- Body of a loop node. -/
def NodeDesc.body (n : NodeDesc) : List Nat :=
  match n.kind with
  | .loop _ b => b
  | .task | .cond .. => []
/-- The two successors of a conditional node. -/
def NodeDesc.successors (n : NodeDesc) : List Nat :=
  match n.kind with
  | .cond _ _ a b => [a, b]
  | .task | .loop .. => []
/-- Whether a node's limits hold: COUNT and, for a loop, the trip count. -/
def NodeDesc.inLimits (n : NodeDesc) : Bool :=
  match n.kind with
  | .task => decide (1 ≤ n.count) && decide (n.count ≤ 4096)
  | .loop t _ => decide (1 ≤ t) && decide (t ≤ 2 ^ 20)
  | .cond .. => true

/-- What is left of nodes after nodes without a predecessor among them are taken out, `fuel` times. -/
def unsorted (edges : List (Nat × Nat)) : Nat → List Nat → List Nat
  | 0, l => l
  | fuel + 1, l => unsorted edges fuel (l.filter (fun v => edges.any (fun e => e.2 == v && l.contains e.1)))

/-- Which node leads to which: by an edge, or as a conditional node to its successors (R308, R310). -/
def GraphDesc.leads (g : GraphDesc) : List (Nat × Nat) :=
  g.edges.map (fun e => (e.src, e.dst))
    ++ (List.range g.nodes.length).flatMap (fun u => ((g.nodes[u]?.map (·.successors)).getD []).map (fun v => (u, v)))

/-- Whether a graph has a cycle outside the bodies of its loops. -/
def GraphDesc.cyclic (g : GraphDesc) : Bool :=
  let inner (e : Nat × Nat) : Bool := g.nodes.any (fun n => n.body.contains e.1 && n.body.contains e.2)
  let edges := g.leads.filter (fun e => !inner e)
  !(unsorted edges g.nodes.length (List.range g.nodes.length)).isEmpty

end Sys2Proof

namespace Sys2Proof.Machine

/-! REGISTER and UNREGISTER (R308). -/

/-- The status of a REGISTER, 0 for success: 1 a record, 2 a frame, 3 an edge, body or successor that names no node, 4 a cycle, 5 a kind
that a plain graph has not, 6 a limit (log 42). -/
def State.registerStatus (s : State) (part : Nat) (g : GraphDesc) : Nat :=
  let tasks := g.nodes.filter (·.isTask)
  let named (i : Nat) : Bool := decide (i < g.nodes.length)
  if s.partOfContext g.ctx != part || tasks.any (fun n => !s.recordOk g.ctx n.record) then 1
  else if tasks.any (fun n => !s.framesUsable g.ctx n.record n.count n.stride) then 2
  else if g.edges.any (fun e => !named e.src || !named e.dst) || g.nodes.any (fun n => (n.body ++ n.successors).any (fun i => !named i)) then 3
  else if g.cyclic then 4
  else if !g.resident && g.nodes.any (fun n => !n.isTask) then 5
  else if g.nodes.any (fun n => !n.inLimits) || g.edges.any (fun e => decide (e.cap < 1) || decide (16 < e.cap)) || decide (256 < g.nodes.length)
      || decide (4096 ≤ (s.graphs.filter (fun x => x.2.part == part && x.2.registered)).length) then 6
  else 0

/-- The lowest index from `i` on that no registered graph has, of the 2^20 that a handle can hold (R308); `fuel` bounds the search. -/
def State.freeGraph (s : State) : Nat → Nat → Option Nat
  | 0, _ => none
  | fuel + 1, i =>
    if 2 ^ 20 ≤ i then none
    else
      match NMap.get s.graphs i with
      | some g => if g.registered then State.freeGraph s fuel (i + 1) else some i
      | none => some i

/-- A registered graph before its first wake. -/
def Graph.ofDesc (g : GraphDesc) (part : Nat) (gen : BitVec 12) (dies : List Nat) : Graph where
  part := part
  ctx := g.ctx
  gen := gen
  resident := g.resident
  nodes := g.nodes.map (fun n => ⟨n, none, false, false, 0, 0, none⟩)
  edges := g.edges.map (fun e => ⟨e.src, e.dst, e.cap, e.cap, 0⟩)
  dies := dies
  wakes := 0
  sources := []
  wakeErrors := 0
  registered := true

/-- The graph descriptor at a host address (log 23): three words, whether it is RESIDENT, its nodes and its edges; for each node 128 bytes, the
record, COUNT, stride, kind 0 to 2 and four words for it (trips; or token, offset and successors), the set of its body's nodes; for each edge
three words, from, to and capacity. `ctx` is the context that the front end reads it for. -/
def State.graphAt (s : State) (ctx a : Nat) : GraphDesc :=
  let w (i : Nat) : Nat := s.readNat (Config.hostBase + a + 8 * i) 8
  let node (i : Nat) : NodeDesc :=
    let n := 3 + 16 * i
    let body := (List.range 256).filter (fun j => w (n + 11 + j / 64) / 2 ^ (j % 64) % 2 == 1)
    let r (j : Nat) : BitVec 64 := BitVec.ofNat 64 (w (n + j))
    ⟨⟨r 0, r 1, r 2, r 3⟩, w (n + 4), BitVec.ofNat 32 (w (n + 5)),
      match w (n + 6) with
      | 0 => .task
      | 1 => .loop (w (n + 7)) body
      | _ => .cond (BitVec.ofNat 32 (w (n + 7))) (w (n + 8)) (w (n + 9)) (w (n + 10))⟩
  let edge (i : Nat) : EdgeDesc :=
    let e := 3 + 16 * w 1 + 3 * i
    ⟨w e, w (e + 1), w (e + 2)⟩
  ⟨ctx, w 0 != 0, (List.range (w 1)).map node, (List.range (w 2)).map edge⟩

/-- REGISTER (R308): a handle, or a status and no handle; the descriptor is the one in host memory that its packet names (log 23). -/
def execRegister (queue : Nat) (desc : GraphDesc) (s : State) : Out :=
  match s.packet queue 6 with
  | none => .next s
  | some (q, _) =>
    if desc ≠ s.graphAt desc.ctx (s.operand queue 0) then .next s
    else
      match s.registerStatus q.part desc, s.freeGraph (s.graphs.length + 1) 1 with
      | 0, some i =>
        let gen := match NMap.get s.graphs i with
          | some g => g.gen
          | none => 0#12
        .next ({ s with graphs := NMap.set s.graphs i (Graph.ofDesc desc q.part gen q.dies) }.complete queue 0 ((handleOf gen i).setWidth 64))
      | 0, none => .next (s.complete queue 6 0#64)
      | st, _ => .next (s.complete queue st 0#64)

/-! Runs (R309). -/

/-- Node `u` of a graph. -/
def Graph.node (g : Graph) (u : Nat) : GraphNode := g.nodes[u]?.getD ⟨⟨⟨0#64, 0#64, 0#64, 0#64⟩, 0, 0#32, .task⟩, none, false, false, 0, 0, none⟩
/-- Replaces a graph. -/
def State.setGraph (s : State) (i : Nat) (g : Graph) : State := { s with graphs := NMap.set s.graphs i g }
/-- Whether a node is a root: no incoming edge, in no loop's body, no successor of a conditional node. -/
def Graph.isRoot (g : Graph) (u : Nat) : Bool :=
  g.edges.all (fun e => e.dst != u) && g.nodes.all (fun n => !n.desc.body.contains u && !n.desc.successors.contains u)
/-- Whether a node has an item on every incoming edge. -/
def Graph.hasItems (g : Graph) (u : Nat) : Bool := g.edges.all (fun e => e.dst != u || decide (1 ≤ e.items))
/-- Whether every outgoing edge of a node has room for a run. -/
def Graph.hasFree (g : Graph) (u : Nat) : Bool := g.edges.all (fun e => e.src != u || decide (1 ≤ e.free))
/-- First nodes of a loop's body: no incoming edge from within, no successor of a conditional node within (log 56). -/
def Graph.bodyRoots (g : Graph) (body : List Nat) : List Nat :=
  body.filter (fun v => g.edges.all (fun e => e.dst != v || !body.contains e.src)
    && body.all (fun w => !(g.node w).desc.successors.contains v))
/-- Whether a node is a first node of a loop's body. -/
def Graph.opensBody (g : Graph) (u : Nat) : Bool := g.nodes.any (fun n => (g.bodyRoots n.desc.body).contains u)
/-- Whether a node runs only where it has been enabled: as a first node of a loop's body by a pass, as a successor without an edge by its
conditional node (R310). -/
def Graph.awaitsEnabling (g : Graph) (u : Nat) : Bool :=
  g.opensBody u || (List.range g.nodes.length).any (fun w => (g.node w).desc.successors.contains u && g.edges.all (fun e => e.src != w || e.dst != u))
/-- Whether a run of a node is due (R309, R310): a root has a wake pending; another an item on every incoming edge, enabled where it has to
be. -/
def Graph.due (g : Graph) (u : Nat) : Bool :=
  if g.isRoot u then decide ((g.node u).taken < g.wakes) else g.hasItems u && ((g.node u).enabled || !g.awaitsEnabling u)
/-- Whether a run of a node can start (R309): it is due, none is in progress, and every outgoing edge has room. -/
def Graph.canStart (g : Graph) (u : Nat) : Bool :=
  decide (u < g.nodes.length) && (g.node u).run.isNone && !(g.node u).busy && g.hasFree u && g.due u

/-- Whether a run of a graph is in progress. -/
def Graph.runs (g : Graph) : Bool := g.nodes.any (fun n => n.run.isSome || n.busy)

/-- Whether runs of a graph are in progress or still to come of the wakes that it has accepted (R308, R309). -/
def Graph.unfinished (g : Graph) : Bool := g.runs || (List.range g.nodes.length).any g.due

/-- UNREGISTER (R308): once the runs have ended, those of accepted wakes and of items on edges among them, the generation rises; a handle of no graph of the partition gives status 1. -/
def execUnregister (queue : Nat) (handle : BitVec 32) (s : State) : Out :=
  match s.packet queue 7 with
  | none => .next s
  | some (q, _) =>
    let i := handleIndex handle
    if handle ≠ BitVec.ofNat 32 (s.operand queue 0) then .next s
    else
    match NMap.get s.graphs i with
    | none => .next (s.complete queue 1 0#64)
    | some g =>
      if g.part ≠ q.part ∨ !g.registered ∨ handle ≠ handleOf g.gen i then .next (s.complete queue 1 0#64)
      else if g.unfinished then .next s
      else
        let g' := { g with registered := false, gen := g.gen + 1#12, wakes := 0, sources := [], nodes := g.nodes.map (fun n => { n with taken := 0, enabled := false }) }
        .next ({ s with graphs := NMap.set s.graphs i g' }.complete queue 0 0#64)

/-- Takes a pending wake off a graph once each of its roots has taken it (log 48). -/
def Graph.settleWakes (g : Graph) : Graph :=
  let roots := (List.range g.nodes.length).filter g.isRoot
  if roots.all (fun u => decide (1 ≤ (g.node u).taken)) && decide (1 ≤ g.wakes) then
    { g with wakes := g.wakes - 1, sources := g.sources.drop 1, nodes := g.nodes.map (fun n => { n with taken := n.taken - 1 }) }
  else g

/-- What the start of a run of node `u` does to an edge: the run takes an item of each incoming edge. -/
def GraphEdge.take (e : GraphEdge) (u : Nat) : GraphEdge :=
  { e with items := if e.dst = u then e.items - 1 else e.items, free := if e.src = u then e.free - 1 else e.free }
/-- What the end of a run of node `u` does to an edge: an item where `gives` allows, FREE back otherwise, and FREE of the edge that it took an item from. -/
def GraphEdge.finish (e : GraphEdge) (u : Nat) (gives : Nat → Bool) : GraphEdge :=
  let back := if e.src = u ∧ !gives e.dst then 1 else 0
  let room := if e.dst = u then 1 else 0
  { e with items := if e.src = u ∧ gives e.dst then e.items + 1 else e.items, free := e.free + back + room }

/-- A run of a node takes its wake or its enabling, and one item of each incoming edge, and lowers FREE of each outgoing edge (R309). -/
def Graph.take (g : Graph) (u : Nat) : Graph :=
  let g : Graph := { g with edges := g.edges.map (fun e => e.take u) }
  let root := g.isRoot u
  let g : Graph := { g with nodes := modifyAt g.nodes u (fun n => { n with enabled := false, taken := if root then n.taken + 1 else n.taken }) }
  if root then g.settleWakes else g

/-- The end of a run (R309): an item on each outgoing edge that `gives` allows, else its FREE back; FREE of the incoming edges it took from. -/
def Graph.finish (g : Graph) (u : Nat) (gives : Nat → Bool) : Graph :=
  { g with
    edges := g.edges.map (fun e => e.finish u gives)
    nodes := modifyAt g.nodes u (fun n => { n with run := none, busy := false, trips := 0, held := none }) }

/-- A new pass of a loop node (R310): of its body the first nodes, and no others, are enabled. -/
def Graph.beginPass (g : Graph) (u : Nat) : Graph :=
  let body := (g.node u).desc.body
  let roots := g.bodyRoots body
  { g with nodes := (List.range g.nodes.length).map (fun v =>
      { g.node v with enabled := if body.contains v then roots.contains v else (g.node v).enabled }) }

/-- Whether a pass of a loop node is over (R310): its first nodes have run, no run of its body is in progress, and none is due. -/
def Graph.passOver (g : Graph) (u : Nat) : Bool :=
  let body := (g.node u).desc.body
  body.all (fun v => (g.node v).run.isNone && !(g.node v).busy && !g.due v && !((g.node v).enabled && (g.bodyRoots body).contains v))

/-- The command queue whose wake a run of a root takes (R303). -/
def Graph.sourceOf (g : Graph) (u : Nat) : Option Nat := if g.isRoot u then (g.sources[(g.node u).taken]?).join else none

/-- A launch group counts among those that a queue's packets started. -/
def State.creditGroup (s : State) (queue : Option Nat) (n : Nat) : State :=
  match queue with
  | none => s
  | some k => match NMap.get s.queues k with
    | some q => s.setQueue k { q with groups := n :: q.groups }
    | none => s

/-- A run of a node that can start (R309, R310): a task node pushes its launch group, a loop node begins its first pass, a conditional node
waits for its read. In locked-clock mode a launch group waits until no task runs (R329). -/
def State.startRun (s : State) (graph node : Nat) (g : Graph) : State :=
  let d := (g.node node).desc
  let t := g.take node
  match d.kind with
  | .task =>
    if s.mayStartGroup then
      let t := { t with nodes := modifyAt t.nodes node (fun n => { n with run := some s.fresh }) }
      ((s.setGraph graph t).launchGroup g.part g.ctx g.dies (launchRecords d.record d.count d.stride)).creditGroup (g.sourceOf node) s.fresh
    else s
  | .loop trips _ =>
    s.setGraph graph ({ t with nodes := modifyAt t.nodes node (fun n => { n with busy := true, trips := trips - 1 }) }.beginPass node)
  | .cond .. => s.setGraph graph { t with nodes := modifyAt t.nodes node (fun n => { n with busy := true }) }

/-- RUN_START (R309, R310). -/
def execRunStart (graph node : Nat) (s : State) : Out :=
  match NMap.get s.graphs graph with
  | none => .next s
  | some g => if !g.registered || !s.inService g.part || !g.canStart node then .next s else .next (s.startRun graph node g)

/-- Starts the runs of a graph's roots that can start now, and the launch groups that this started. -/
def State.startRoots (s : State) (graph : Nat) : State × List Nat :=
  match NMap.get s.graphs graph with
  | none => (s, [])
  | some g =>
    ((List.range g.nodes.length).filter g.isRoot).foldl (fun a u =>
      match NMap.get a.1.graphs graph with
      | none => a
      | some g =>
        if g.canStart u then
          let s := a.1.startRun graph u g
          match (NMap.get s.graphs graph).bind (fun g => (g.node u).run) with
          | some n => (s, a.2 ++ [n])
          | none => (s, a.2)
        else a) (s, [])

/-- WAKE (R301, R309, R320): the wake, and all records of the root runs that it lets start. -/
def execWake (queue : Nat) (handle : BitVec 32) (s : State) : Out :=
  match NMap.get s.queues queue with
  | none => .next s
  | some q =>
    if !q.launching.isEmpty then .next (s.launchOn queue q)
    else
      match s.packet queue 3 with
      | none => .next s
      | some (q, _) =>
        let i := handleIndex handle
        if handle ≠ BitVec.ofNat 32 (s.operand queue 0) then .next s
        else if s.graphIn q.part i then
          let r := (s.wakeGraph i handle (some queue)).startRoots i
          .next (r.1.launchOn queue { (NMap.get r.1.queues queue).getD q with launching := r.2 })
        else .next (s.complete queue 0 0#64)

/-- RUN_END (R309): of a task node once every task of its group has ended, of a loop node once its last pass is over. Records that
wait for room go on into their rings. -/
def execRunEnd (graph node : Nat) (s : State) : Out :=
  match NMap.get s.graphs graph with
  | none => .next s
  | some g =>
    let n := g.node node
    match n.run with
    | some r =>
      let u := s.admitGroup r
      if s.groupEnded r then .next (u.setGraph graph (g.finish node (fun _ => true))) else .next u
    | none =>
      match n.desc.kind with
      | .loop .. => if n.busy && n.trips == 0 && g.passOver node then .next (s.setGraph graph (g.finish node (fun _ => true))) else .next s
      | .task | .cond .. => .next s

/-- LOOP_NODE_PASS (R310): a body without nodes passes at once. -/
def execLoopNodePass (graph node : Nat) (s : State) : Out :=
  match NMap.get s.graphs graph with
  | none => .next s
  | some g =>
    let n := g.node node
    if n.busy && decide (0 < n.trips) && g.passOver node then
      .next (s.setGraph graph ({ g with nodes := modifyAt g.nodes node (fun n => { n with trips := n.trips - 1 }) }.beginPass node))
    else .next s

/-- CONDITIONAL_NODE_READ (R310): the word at home chooses the successor that may run; edges to the other take no item (log 55). -/
def execConditionalNodeRead (graph node : Nat) (s : State) : Out :=
  match NMap.get s.graphs graph with
  | none => .next s
  | some g =>
    match (g.node node).desc.kind with
    | .cond tok off z o =>
      if (g.node node).busy then
        let note (p : Held) := s.setGraph graph { g with nodes := modifyAt g.nodes node (fun n => { n with held := p }) }
        settleEvent s note ((s.engineRead g.ctx tok (off : Int) 8).map (fun r =>
          let (to_, other) := if r.1 = 0 then (z, o) else (o, z)
          let t := g.finish node (fun v => v == to_ || v != other)
          let edged := t.edges.any (fun e => e.src == node && e.dst == to_)
          s.setGraph graph (if edged then t else { t with nodes := modifyAt t.nodes to_ (fun n => { n with enabled := true }) })))
      else .next s
    | .task | .loop .. => .next s

end Sys2Proof.Machine
end

