-- ==== Sys2Proof/Machine/Tenants.lean ====
section
/-! DEFINITION. Partitions, contexts and virtual devices (R115, R160, R162, R269, R313 to R320): their creation and end, slices, quotas,
deschedule, pause, reset, parameters. -/
namespace Sys2Proof.Machine

/-! Slices and quotas (R115, R269, R317). -/

/-- Records staged for a partition in shadow slots go back to the heads of their rings, their claims released and the requests that they
caused cancelled (R119, R265, R269). -/
def State.withdrawPart (s : State) (part : Nat) : State :=
  (s.cores.filter (fun x => match x.2.shadow with | some r => r.part == part | none => false)).foldl (fun s x => s.withdraw x.1) s

/-- The offers of a partition's records that no candidate has accepted end, and they wait in their rings (R269, R292, R293). -/
def State.endOffers (s : State) (part : Nat) : State :=
  (s.records.filter (fun r => r.part == part && r.offered)).foldl (fun s r =>
    (s.callBack r).modRecord r.id (fun r => { r with place := .ring, headSince := some s.cyc, offer := none })) s

/-- A partition leaves the in-slice set (R269): nothing of it is dispatched or offered, its running tasks receive a request of WHY = 1. -/
def State.closeSlice (s : State) (part : Nat) : State :=
  let s := ((s.withdrawPart part).endOffers part).modPartition part (fun p => { p with inSlice := false })
  (s.cores.filter (fun x => x.2.running && x.2.task.part == part)).foldl (fun s x => s.requestYield x.1 true 0) s

/-- TENANT_SLICE_END (R269). -/
def execTenantSliceEnd (part : Nat) (s : State) : Out := .next (s.closeSlice part)

/-- TENANT_SLICE_OPEN (R115): of a RUNNING virtual device. -/
def execTenantSliceOpen (part : Nat) (s : State) : Out :=
  if s.takesPackets part then .next (s.modPartition part (fun p => { p with inSlice := true })) else .next s

/-- QUOTA_WINDOW (R115, R317): both uses are zero from the first cycle of a window on; the clock has seen to it where it has passed that
cycle (log 57). -/
def execQuotaWindow (part : Nat) (s : State) : Out := .next (s.modPartition part (·.openWindow s.cyc))

/-! Virtual devices (R318 to R320). -/

/-- Whether a partition has a task on a core or in a shadow slot. -/
def State.occupied (s : State) (part : Nat) : Bool :=
  s.cores.any (fun x => (x.2.mode != .idle && x.2.task.part == part)
    || (match x.2.shadow with | some r => r.part == part | none => false))

/-- Descheduling (R318, R320): the queues stop at a packet boundary, a LAUNCH or WAKE under way first pushing all its records; then the slice closes;
the state is DESCHEDULED once every task has ended or been saved. -/
def State.deschedule (s : State) (part : Nat) : State :=
  let s := s.modPartition part (fun p => { p with closing := true })
  if s.queues.any (fun q => q.2.part == part && !q.2.launching.isEmpty) then s
  else
    let s := if (s.partOf part).inSlice then s.closeSlice part else s
    if s.occupied part then s else s.modPartition part (fun p => { p with vstate := .descheduled, closing := false })

/-- DESCHEDULE (R318): taken again until the state is DESCHEDULED. -/
def execDeschedule (part : Nat) (s : State) : Out :=
  if (NMap.get s.partitions part).isSome ∧ (s.partOf part).vstate = .running then .next (s.deschedule part) else .next s

/-- RESCHEDULE (R318): the slice opens, the queues go on, every record waiting in a ring takes a new STAMP. -/
def execReschedule (part : Nat) (s : State) : Out :=
  if (NMap.get s.partitions part).isSome ∧ (s.partOf part).vstate = .descheduled then
    let s := s.modPartition part (fun p => { p with vstate := .running, inSlice := true })
    .next { s with records := s.records.map (fun r =>
      if r.part = part ∧ r.place = .ring then { r with stamp := s.cyc.setWidth 40, record := r.record.stamped s.cyc } else r) }
  else .next s

/-- Whether an address lies in what a partition owns of the package: pools of its quads, and its near and far ranges. -/
def State.inOwned (s : State) (o : Ownership) (a : Nat) : Bool :=
  match place s.nstr a with
  | some (.pool k _) => o.quads.contains (quadOf k)
  | some (.near ..) | some (.far ..) => inRanges (o.ranges ++ anonRanges o) a 1
  | some (.host _) | some (.remote _) | none => false
/-- Whether an address lies in what a partition alone owns: the pools of a quad that several share in time are no one's between tasks (R314). -/
def State.ownsAlone (s : State) (part : Nat) (o : Ownership) (a : Nat) : Bool :=
  s.inOwned o a && s.partitions.all (fun p => p.1 == part || !s.inOwned p.2.own a)
/-- Bytes of memory in what a partition owns. -/
def State.ownedCells (s : State) (part : Nat) (o : Ownership) : List Host.Cell := s.mem.filter (fun c => s.ownsAlone part o c.1)
/-- What a partition owns reads zero, and counts as written for the patrol scrubber (R172). -/
def State.clearOwned (s : State) (part : Nat) (o : Ownership) : State :=
  { s with mem := s.mem.filter (fun c => !s.ownsAlone part o c.1), scrubbed := s.scrubbed.filter (fun g => !s.ownsAlone part o (64 * g.1)) }
/-- A range of memory holds certain bytes and else zero, which counts as a write for the patrol scrubber (R172). -/
def State.rewrite (s : State) (a n : Nat) (l : List Host.Cell) : State :=
  ({ s with mem := Memory.clear s.mem a n }.markDirtyGranule a n).writeCells l

/-- The tables of the next level that tables name: pointer entries (R158). -/
def State.tablesBelow (s : State) (l : List Nat) : List Nat :=
  (l.flatMap (fun a => (s.mem.filter (fun c => decide (a ≤ c.1) && decide (c.1 < a + 4096) && c.1 % 8 == 0)).filterMap (fun c =>
    if c.2.getLsbD 0 && !c.2.getLsbD 1 then some (256 * (s.readNat (c.1 + 1) 5)) else none))).eraseDups

/-- The page tables of an address space from its roots down, four levels (R157, R158): base, bytes, and what they hold. -/
def State.pageTables (s : State) (x : Context) : List (Nat × Nat × List Host.Cell) :=
  let l1 := [x.hostRoot, x.devRoot]
  let l2 := s.tablesBelow l1
  let l3 := s.tablesBelow l2
  let range (n a : Nat) := (a, n, s.mem.filter (fun c => decide (a ≤ c.1) && decide (c.1 < a + n)))
  (l1 ++ l2 ++ l3).map (range 4096) ++ (s.tablesBelow l3).map (range 256)

/-- A virtual device's migration image (R318): records and task images, memory, tables, queues, graphs, groups, undelivered records, and the
chains that run on (R263). -/
def State.migrationImage (s : State) (part : Nat) : MigrationImage :=
  let ctx (i : Nat) : Bool := (NMap.get s.contexts i).isSome && s.partOfContext i == part
  let mine (k : GroupKey) : Bool := s.members.any (fun x => x.2.part == part && s.groupKey x.1 k.scope == k)
  { part := part
    partition := s.partOf part
    records := (s.records.filter (fun r => r.part == part)).map (fun r => { r with claim := [] })
    contexts := s.contexts.filter (fun x => x.2.part == part)
    kernels := s.kernels.filter (fun x => ctx x.2.ctx)
    queues := s.queues.filter (fun x => x.2.part == part)
    graphs := s.graphs.filter (fun x => x.2.part == part)
    members := s.members.filter (fun x => x.2.part == part)
    groups := s.groups.filter (fun x => x.2.part == part)
    timers := s.timers.filter (fun t => mine t.key)
    collectives := s.collectives.filter (fun x => mine x.key)
    chains := (s.cores.map (fun x => (x.1, x.2.chains.filter (fun h => s.partOfContext h.ctx == part)))).filter (fun x => !x.2.isEmpty)
    tables := (s.contexts.filter (fun x => x.2.part == part)).flatMap (fun x => s.pageTables x.2)
    cells := s.ownedCells part (s.partOf part).own }

/-- Whether a record of a partition is on its way from a die to another, or awaited from a peer (R293). -/
def State.handsOver (s : State) (part : Nat) : Bool :=
  s.records.any (fun r => r.part == part && (match r.place with
    | .moving .. | .awaited .. => true
    | .ring | .held | .offered _ | .fault .. => false))

/-- PAUSE (R318): deschedules, then writes the migration image, once no record of the device is in transit (log 95). -/
def execPause (part : Nat) (s : State) : Out :=
  if (NMap.get s.partitions part).isNone then .next s
  else
    match (s.partOf part).vstate with
    | .running => .next (s.deschedule part)
    | .descheduled =>
      if s.handsOver part then .next s
      else
      let u : State := { s with images := s.images.filter (fun x => x.part != part) ++ [s.migrationImage part] }
      .next (u.modPartition part (fun p => { p with vstate := .paused }))
    | .paused | .resetting => .next s

/-- Puts the entries of one map over those of another. -/
def overlay {α : Type} (m : NMap α) (l : NMap α) : NMap α := l.foldl (fun m x => NMap.set m x.1 x.2) m

/-- Cores of quads that the machine has to watch stand in the map of cores. -/
def State.materialise (s : State) (quads : List Nat) : State :=
  (quads.flatMap (fun q => (List.range 4).map (coreAt q))).foldl (fun s c =>
    match NMap.get s.cores c with
    | some _ => s
    | none => s.setCore c Core.reset) s

/-- Completes the faults that only REDUCED has made (R325). -/
def State.completeStaged (s : State) : State :=
  let due (r : RingRec) : Bool := match r.place with
    | .fault _ _ reduced => reduced
    | .ring | .held | .offered _ | .moving .. | .awaited .. => false
  let back (r : RingRec) : RingRec :=
    { r with record := r.record.stamped s.cyc, stamp := s.cyc.setWidth 40, level := r.record.prio, place := .ring, headSince := none }
  { s with records := (s.records.filter due).map back ++ s.records.filter (fun r => !due r) }

/-- Staged texts and constant extents move to the near tier (R325). -/
def State.moveStaged (s : State) : State :=
  s.kernels.foldl (fun s x => match x.2.staged with
    | some (text, consts) => (s.placeText x.2 text consts).modKernel x.1 (fun k => { k with staged := none })
    | none => s) s

/-- The memory of a migration image stands again (R318): page tables, and in what the partition owns what the image holds of it, all else there
zero. -/
def State.restoreMemory (s : State) (x : MigrationImage) : State :=
  let own := x.partition.own
  let s := x.tables.foldl (fun s r => s.rewrite r.1 r.2.1 r.2.2) (s.clearOwned x.part own)
  s.writeCells (x.cells.filter (fun c => s.ownsAlone x.part own c.1))

/-- A kernel of a migration image as it enters a stage (R325): in REDUCED its text and constants are in staging memory. -/
def State.restage (s : State) (k : Kernel) : Kernel :=
  if s.device.stage = .reduced then
    { k with staged := some (k.staged.getD ((List.range k.textLen).map (fun i => BitVec.ofNat 32 (s.readNat (k.textAt + 4 * i) 4)),
      bytesOf k.constLen (s.readNat k.constAt k.constLen))) }
  else k

/-- The chains of an image's tasks stand in their cores' copy engines again, behind those that run there (R263, R318). -/
def State.restoreChains (s : State) (l : NMap (List Chain)) : State :=
  l.foldl (fun s x => s.setCore x.1 { s.core x.1 with chains := (s.core x.1).chains ++ x.2 }) s

/-- The virtual device of a migration image on a package that does not hold it, as DESCHEDULED (R318, R319). What its hosts' rings held has
been delivered. -/
def State.restoreImage (s : State) (x : MigrationImage) : State :=
  let s := s.restoreMemory x
  let u : State := { s with
    partitions := NMap.set s.partitions x.part { x.partition with vstate := .descheduled, closing := false, inSlice := false }
    records := x.records ++ s.records.filter (fun r => r.part != x.part)
    contexts := overlay s.contexts x.contexts
    kernels := overlay s.kernels (NMap.mapv x.kernels (fun _ k => { s.restage k with hostRing := [] }))
    queues := overlay s.queues x.queues
    graphs := overlay s.graphs x.graphs
    members := overlay s.members x.members
    groups := overlay s.groups x.groups
    timers := s.timers.filter (fun t => !x.timers.any (fun y => y.key == t.key && y.n == t.n && y.coll == t.coll)) ++ x.timers
    collectives := s.collectives.filter (fun c => !x.collectives.any (fun y => y.key == c.key && y.n == c.n)) ++ x.collectives }
  ((if u.device.stage = .full then u.moveStaged.completeStaged else u).restoreChains x.chains).materialise x.partition.own.quads

/-- Whether another partition uses the number of a context or graph of an image. -/
def State.numberTaken (s : State) (x : MigrationImage) : Bool :=
  x.contexts.any (fun c => (NMap.get s.contexts c.1).any (fun y => y.part != x.part))
    || x.graphs.any (fun g => (NMap.get s.graphs g.1).any (fun y => y.part != x.part))

/-- Whether an image can stand on a package that does not hold its device (log 95): its numbers are free, and in REDUCED the staging memory holds its
texts and constant extents and no ring holds more than 1,024 records (R325). -/
def State.imageFits (s : State) (x : MigrationImage) : Bool :=
  let u := s.restoreImage x
  !s.numberTaken x && (s.device.stage != .reduced || (decide (u.staged ≤ 2 ^ 20) && u.ringsFit x.part))

/-- MIGRATION_IMAGE_RESTORE (R318, R319, R324, R325): the virtual device of an image stands as DESCHEDULED. Where it stands here and is PAUSED, it
is what the image holds, with what system software has written since; else it comes from the image, its records before any new one.
Rejected in a stage without service, over a device that is not paused, and where it does not fit (log 95). -/
def execMigrationImageRestore (i : Nat) (s : State) : Out :=
  match s.images[i]? with
  | none => .next s
  | some x =>
    if !s.serves then .next (s.reject "MIGRATION_IMAGE_RESTORE")
    else
      match NMap.get s.partitions x.part with
      | some p =>
        .next (if p.vstate = .paused then s.modPartition x.part (fun p => { p with vstate := .descheduled, closing := false, inSlice := false })
          else s.reject "MIGRATION_IMAGE_RESTORE")
      | none => .next (if s.imageFits x then s.restoreImage x else s.reject "MIGRATION_IMAGE_RESTORE")

/-! The end of contexts and partitions (R162, R318). -/

/-- A graph whose handle is retired and whose runs are forgotten. -/
def Graph.retire (g : Graph) : Graph :=
  { g with
    registered := false, gen := if g.registered then g.gen + 1#12 else g.gen, wakes := 0, sources := [],
    nodes := g.nodes.map (fun n => { n with run := none, busy := false, enabled := false, trips := 0, taken := 0, held := none }),
    edges := g.edges.map (fun e => { e with free := e.cap, items := 0 }) }

/-- A context and its address space are gone (R162): entries, generations, kernel ids; its graphs are retired (log 58). -/
def State.dropContext (s : State) (ctx : Nat) : State :=
  match NMap.get s.contexts ctx with
  | none => s
  | some x =>
    let gone := x.pet.flatMap (fun e => if e.2.origin = .anonymous ∧ e.2.state ≠ .free ∧ e.2.state ≠ .quarantined then e.2.granules else [])
    let s := s.modPartition x.part (fun p => { p with granules := p.granules.filter (fun g => !gone.contains g) })
    { s with
      contexts := NMap.del s.contexts ctx
      kernels := s.kernels.filter (fun k => k.2.ctx != ctx)
      graphs := NMap.mapv s.graphs (fun _ g => if g.ctx = ctx then g.retire else g) }

/-- CONTEXT_DESTRUCTION (R162). -/
def execContextDestruction (ctx : Nat) (s : State) : Out := .next ((s.sweepContext ctx).dropContext ctx)

/-- Everything a partition's virtual device holds is gone (R318, R319): tasks, records and images, graphs, queues, contexts, kernel ids;
undelivered records, those of the reset included, are counted in STALE. -/
def State.emptyDevice (s : State) (part : Nat) : State :=
  let ctxs := s.contextsOf part
  let s := ctxs.foldl (fun s c => s.sweepContext c) s
  let s := (s.discardRecords (fun r => r.part == part)).endMembers (fun m => m.part == part)
  let stale := ((s.kernels.filter (fun k => ctxs.contains k.2.ctx)).map (fun k => k.2.area.length)).sum
  let s := ctxs.foldl (fun s c => s.dropContext c) s
  let u := s.modPartition part (fun p => { p with stale := p.stale + stale, dirtyHeld := [], granules := [] })
  { u with
    members := s.members.filter (fun x => x.2.part != part)
    groups := s.groups.filter (fun x => x.2.part != part)
    graphs := NMap.mapv s.graphs (fun _ g => if g.part = part then g.retire else g)
    queues := NMap.mapv s.queues (fun _ q =>
      if q.part = part then
        { q with halted := true, stopped := false, fetched := [], buffers := [], readPos := q.tail, launching := [], groups := [] }
      else q) }

/-- VIRTUAL_DEVICE_RESET (R318, R319): an empty RUNNING device, its ownership unchanged, its incarnation one higher. -/
def execVirtualDeviceReset (part : Nat) (s : State) : Out :=
  if (NMap.get s.partitions part).isSome then
    .next ((s.emptyDevice part).modPartition part (fun p =>
      { p with vstate := .running, closing := false, inSlice := true, incarnation := p.incarnation + 1#16 }))
  else .next s

/-! Partitions and contexts (R113, R116, R157, R160, R313). -/

/-- Whether an ownership keeps the limits of the package (R1, R6, R168, R300, R306, R313): quads, ports with one role each, one anonymous region
in a stack and inside its 2^24 granules, wake registers. -/
def ownershipOk (o : Ownership) : Bool :=
  o.quads.all (fun q => decide (q < 128)) && o.ports.all (fun p => decide (p.1 < 32)) && o.anon.all (fun r => decide (r.1 < 8) && decide (r.2.1 + r.2.2 ≤ 2 ^ 24))
    && decide (o.anon.map (·.1)).Nodup && decide (o.ports.map (·.1)).Nodup && o.wakeRegs.all (fun r => decide (r < 8192))

/-- Whether a partition's parts keep the limits of R1, R113, R301, R313: four rings on each of eight dies, queues to those dies. -/
def partitionOk (r : PartitionRequest) : Bool :=
  decide (r.id ≤ 4095) && decide (1 ≤ r.packages.length) && decide (r.packages.length ≤ 8192) && decide (r.pkgIdx < r.packages.length)
    && r.ringLog.length == 32 && r.ringLog.all (fun n => decide (10 ≤ n) && decide (n ≤ 20)) && ownershipOk r.own
    && decide (r.queues.length ≤ 64) && r.queues.all (fun q => q.dies.all (fun d => decide (d < 8)))

/-- A command queue as it is created (R301). -/
def CmdQueue.create (part : Nat) (x : QueueRequest) : CmdQueue where
  part := part
  ctx := x.ctx
  base := x.base
  log := x.log
  doneAt := x.doneAt
  dies := x.dies.mergeSort
  tail := 0
  readPos := 0
  fetched := []
  buffers := []
  stopped := false
  halted := false
  seqNo := 0
  completions := []
  groups := []
  launching := []

/-- PARTITION_CREATION (R113, R313): its rings, ownership and command queues; its virtual device RUNNING. -/
def execPartitionCreation (req : PartitionRequest) (s : State) : Out :=
  if s.serves ∧ partitionOk req ∧ (NMap.get s.partitions req.id).isNone then
    let p : Partition := { Partition.default with
      packages := req.packages, pkgIdx := req.pkgIdx, ringLog := req.ringLog, own := req.own, inSlice := true,
      window := s.cyc.toNat / Partition.default.pqwin.toNat }
    let qs := (List.range req.queues.length).filterMap (fun j => (req.queues[j]?).map (fun x => (64 * req.id + j, CmdQueue.create req.id x)))
    .next ({ s with partitions := NMap.set s.partitions req.id p, queues := overlay s.queues qs }.materialise req.own.quads)
  else .next (s.reject "PARTITION_CREATION")

/-- PARTITION_DESTRUCTION (R116): round-robin pointers that name it name none. -/
def execPartitionDestruction (part : Nat) (s : State) : Out :=
  if (NMap.get s.partitions part).isNone then .next s
  else
    let s := s.emptyDevice part
    .next { s with
      partitions := NMap.del s.partitions part
      queues := s.queues.filter (fun q => q.2.part != part)
      graphs := s.graphs.filter (fun g => g.2.part != part)
      dies := s.dies.map (fun d => { d with rr := d.rr.map (fun x => if x.part = some part then ⟨none, 0⟩ else x),
                                            adverts := d.adverts.filter (fun a => a.part != part) }) }

/-- CONTEXT_CREATION (R157, R160): an empty table, every generation 0. -/
def execContextCreation (req : ContextRequest) (s : State) : Out :=
  if s.serves ∧ (NMap.get s.contexts req.id).isNone ∧ (NMap.get s.partitions req.part).isSome ∧ req.petSize ≤ 2 ^ 20 then
    .next { s with contexts := NMap.set s.contexts req.id ⟨req.part, req.hostRoot, req.devRoot, req.petAt, req.petSize, req.listAt, req.listCap, [], []⟩ }
  else .next (s.reject "CONTEXT_CREATION")

/-- OWNERSHIP_CHANGE (R313): only while the partition is paused. -/
def execOwnershipChange (part : Nat) (own : Ownership) (s : State) : Out :=
  if (NMap.get s.partitions part).isSome ∧ (s.partOf part).vstate = .paused ∧ ownershipOk own then
    .next ((s.modPartition part (fun p => { p with own := own })).materialise own.quads)
  else .next (s.reject "OWNERSHIP_CHANGE")

/-! Parameter registers (R114, R166, R168, R225, R265, R274, R306, R316, R328, R330). -/

/-- Where the byte at a near-tier address is named once `n` GiB of each stack are striped (R166): it stays at its stack address. -/
def State.restriped (s : State) (n a : Nat) : Nat :=
  match place s.nstr a with
  | some (.near st d) => if d < 2 ^ 30 * n then 2 ^ 15 * (d / 4096) + 4096 * st + d % 4096 else nearLocal st + d
  | some (.far ..) | some (.pool ..) | some (.host _) | some (.remote _) | none => a

/-- A new NSTR (R166): every byte keeps its stack and stack address (log 59). -/
def State.setNstr (s : State) (n : Nat) : State :=
  { s with nstr := n, mem := s.mem.foldl (fun m c => m.write (s.restriped n c.1) c.2) [], scrubbed := [] }

/-- Whether a wake register may be bound to a graph (R306, R313, R315): its partition owns the register. -/
def State.mayBind (s : State) (r gi : Nat) : Bool :=
  match NMap.get s.graphs gi with
  | some g => (s.partOf g.part).own.wakeRegs.contains r
  | none => false

/-- The write of a parameter register, where its value lies in range (R316). -/
def State.setParam (s : State) (reg : ParamReg) (v : BitVec 64) : Option State :=
  let inside (lo hi x : Nat) (u : State) : Option State := if lo ≤ x ∧ x ≤ hi then some u else none
  match reg with
  | .pwgt p => inside 1 16 (fld v 0 5).toNat (s.modPartition p (fun x => { x with pwgt := fld v 0 5 }))
  | .pqcyc p => some (s.modPartition p (fun x => { x with pqcyc := v }))
  | .pqbit p => some (s.modPartition p (fun x => { x with pqbit := v }))
  | .pqwin p => inside 10000 (2 ^ 40 - 1) (fld v 0 40).toNat
      (s.modPartition p (fun x => { x with pqwin := fld v 0 40, window := s.cyc.toNat / (fld v 0 40).toNat }))
  | .age p => some (s.modPartition p (fun x => { x with age := fld v 0 40 }))
  | .migt p => some (s.modPartition p (fun x => { x with migt := fld v 0 40 }))
  | .colt p => some (s.modPartition p (fun x => { x with colt := fld v 0 40 }))
  | .ydl p => inside 1000 (2 ^ 31) (fld v 0 32).toNat (s.modPartition p (fun x => { x with ydl := fld v 0 32 }))
  | .lbud p => inside 256 (2 ^ 31) (fld v 0 32).toNat (s.modPartition p (fun x => { x with lbud := fld v 0 32 }))
  | .anqt p => some (s.modPartition p (fun x => { x with anqt := fld v 0 8 }))
  | .tripTemp => inside 85 105 v.toNat { s with device := { s.device with trip := v.toNat } }
  | .nstr => inside 0 64 v.toNat (s.setNstr v.toNat)
  | .counter i => if (checkPoints.map checkIndex).contains i then some (s.setCounter i { s.counter i with cor := fld v 0 32 }) else none
  | .wakeBind r =>
    if v = 0#64 then inside 0 8191 r { s with wakeRegs := NMap.del s.wakeRegs r }
    else if s.mayBind r v.toNat then inside 0 8191 r { s with wakeRegs := NMap.set s.wakeRegs r v.toNat }
    else none

/-- PARAMETER_REGISTER_WRITE (R316, R324): a value out of range is rejected and the register keeps its own. -/
def execParameterRegisterWrite (reg : ParamReg) (value : BitVec 64) (s : State) : Out :=
  .next ((if s.serves then s.setParam reg value else none).getD (s.reject "PARAMETER_REGISTER_WRITE"))

end Sys2Proof.Machine
end

