-- ==== Sys2Proof/Machine/Device.lean ====
section
/-! DEFINITION. The device outside its cores: bring-up (R324, R325), power and clock (R4, R326 to R329), integrity (R330), trust (R331,
R332), heartbeats, checkpoints and recovery (R297 to R299). -/
namespace Sys2Proof.Machine

/-- Applies a function to the device. -/
def State.modDevice (s : State) (f : Device → Device) : State := { s with device := f s.device }

/-! Bring-up (R324, R325). -/

/-- MODULE_RESET (R324): the state after reset; what lies outside the module, the fuses and the stored image stay (log 49). -/
def execModuleReset (s : State) : Out :=
  .next { State.reset with
    turns := s.turns
    free := s.free
    fresh := s.fresh
    mem := s.mem.filter (fun c => match place s.nstr c.1 with
      | some (.host _) | some (.remote _) => true
      | some (.near ..) | some (.far ..) | some (.pool ..) | none => false)
    outbox := s.outbox
    notices := s.notices
    checkpoints := s.checkpoints
    images := s.images
    device := { Device.reset with fuses := s.device.fuses, keyDigest := s.device.keyDigest, image := s.device.image } }

/-- Whether the security block accepts an image (R331): the key by its digest in fuses, the signature over the image's digest, the version. -/
def State.trusts (s : State) (f : ImageFile) : Bool :=
  Config.shake256 f.key == s.device.keyDigest && Config.falconVerifies f.key (Config.shake256 f.image) f.signature
    && decide (s.device.fuses ≤ f.version.toNat)

/-- VERIFY_COMPLETE (R324, R331): REDUCED at 0.7 GHz where the image held is accepted, else RECOVERY. A trip in VERIFY or RECOVERY has set 0.6
GHz (R328), which the entry to REDUCED raises (R4, R325) (log 77). -/
def execVerifyComplete (s : State) : Out :=
  if s.device.stage = .verify then
    if s.trusts s.device.image then .next (s.modDevice (fun d => { d with stage := .reduced, clock := 700 }))
    else .next (s.modDevice (fun d => { d with stage := .recovery }))
  else .next s

/-- RECOVERY_IMAGE (R324): a new image in RECOVERY, which is verified next. -/
def execRecoveryImage (file : ImageFile) (s : State) : Out :=
  if s.device.stage = .recovery then .next (s.modDevice (fun d => { d with stage := .verify, image := file })) else .next s

/-- TRAINING_COMPLETE (R324, R325): FULL at the commanded clock when every stack has trained; a stack that failed is reported, and keeps
REDUCED until the module is reset. The package has sixteen stacks (R1, R6). -/
def execTrainingComplete (failed : List Nat) (s : State) : Out :=
  let failed := failed.filter (fun x => decide (x < 16))
  if s.device.stage = .reduced then
    if failed.isEmpty && s.device.failedStacks.isEmpty then
      .next (s.modDevice (fun d => { d with stage := .full, clock := d.commanded, reachedFull := true })).moveStaged.completeStaged
    else .next (failed.foldl (fun s x => s.notify (.stackFailed x)) (s.modDevice (fun d => { d with failedStacks := d.failedStacks ++ failed })))
  else .next s

/-! Power (R326). -/

/-- Whether a place lies in what OFF loses: the die's pools and its near stack. -/
def Place.lostWith (die : Nat) : Place → Bool
  | .pool c _ => c / 64 == die
  | .near st _ => st == die
  | .far .. | .host _ | .remote _ => false

/-- Whether a place lies in the die's pools or its near or far stack. -/
def Place.ofDie (die : Nat) : Place → Bool
  | .pool c _ => c / 64 == die
  | .near st _ | .far st _ => st == die
  | .host _ | .remote _ => false

/-- Whether a core of a die holds a running or a shadow task. -/
def State.dieBusy (s : State) (die : Nat) : Bool :=
  s.cores.any (fun x => x.1 / 64 == die && (x.2.mode != .idle || x.2.shadow.isSome))

/-- POWER_STATE_CHANGE (R326): rejected while a task or, for OFF, pinned frames would be lost. -/
def execPowerStateChange (die : Nat) (st : PowerState) (s : State) : Out :=
  let d := s.die die
  if !s.serves then .next (s.reject "POWER_STATE_CHANGE")
  else if PowerState.down st ∧ s.dieBusy die then .next (s.reject "POWER_STATE_CHANGE")
  else if st = .off ∧ s.framesMeet (Place.ofDie die) then .next (s.reject "POWER_STATE_CHANGE")
  else
    let s := s.setDie die { d with power := st, entering := !PowerState.down st && (d.entering || PowerState.down d.power) }
    if st = .off then
      let kept (a : Nat) : Bool := match place s.nstr a with
        | some p => !Place.lostWith die p
        | none => true
      .next { s with mem := s.mem.filter (fun c => kept c.1), scrubbed := s.scrubbed.filter (fun g => kept (64 * g.1)) }
    else .next s

/-- ENTRY_TO_ACTIVE (R326): dispatch resumes on a die that was PARKED or OFF. -/
def execEntryToActive (die : Nat) (s : State) : Out := .next (s.setDie die { s.die die with entering := false })

/-! The clock (R4, R327 to R329). -/

/-- CLOCK_COMMAND (R4, R325, R327): steps of 25 MHz from 600 to 1,200 MHz, never in locked-clock mode. -/
def execClockCommand (mhz : Nat) (s : State) : Out :=
  if s.serves ∧ mhz % 25 = 0 ∧ 600 ≤ mhz ∧ mhz ≤ 1200 ∧ s.device.locked = false then .next (s.modDevice (fun d => { d with commanded := mhz }))
  else .next (s.reject "CLOCK_COMMAND")

/-- CLOCK_CHANGE (R325, R327): the commanded frequency takes effect, in FULL and outside locked-clock mode. -/
def execClockChange (s : State) : Out :=
  if s.device.stage = .full ∧ s.device.locked = false then .next (s.modDevice (fun d => { d with clock := d.commanded })) else .next s

/-- Kills every kernel with a running task with cause 0x60, its lowest core named (R328). -/
def State.killRunning (s : State) : State :=
  let running := s.cores.filter (fun x => x.2.holdsTask)
  let first := running.filter (fun x => running.all (fun y => y.2.task.kid != x.2.task.kid || decide (x.1 ≤ y.1)))
  first.foldl (fun s x => s.takeKill x.1 .a 0x60#8 0#32) s

/-- Shadow records of every core go back to their rings (R119). -/
def State.withdrawAll (s : State) : State := (NMap.keys s.cores).foldl (fun s c => s.withdraw c) s

/-- THERMAL_TRIP (R328): the sensor of a die, of the hub die as number 8 (R1), reads a temperature. At the trip temperature the clock falls
to 0.6 GHz with a report, or in locked-clock mode the running kernels die with 0x60 and dispatch stops. In REDUCED the trip sets 0.6 GHz as
well, below its 0.7 GHz (R4, R325), and the frequency commanded before the trip is forgotten: FULL begins at 0.6 GHz unless the host
commands again (log 77). -/
def execThermalTrip (die temp : Nat) (s : State) : Out :=
  let u := if die = 8 then s.modDevice (fun d => { d with hubTemp := temp }) else s.setDie die { s.die die with temp := temp }
  if 9 ≤ die then .next s
  else if temp < s.device.trip then .next u
  else if s.device.locked then .next (u.withdrawAll.killRunning.modDevice (fun d => { d with dispatchStopped := true }))
  else .next ((u.modDevice (fun d => { d with clock := 600, commanded := 600 })).notify (.thermal die))

/-- THERMAL_RECOVERY (R328): the sensors of the eight core dies and of the hub die, the ninth, read temperatures; dispatch goes on once each is
5 °C below the trip. -/
def execThermalRecovery (temps : List Nat) (s : State) : Out :=
  let u : State := { s with
    dies := Vector.ofFn (fun d => { s.dies[d] with temp := temps[d.val]?.getD s.dies[d].temp })
    device := { s.device with hubTemp := temps[8]?.getD s.device.hubTemp } }
  if (u.device.hubTemp :: u.dies.toList.map (·.temp)).all (fun x => decide (x + 5 ≤ s.device.trip)) then .next (u.modDevice (fun d => { d with dispatchStopped := false }))
  else .next u

/-- LOCKED_CLOCK_ENTER (R329): only in FULL; it waits until no task runs; the clock is 1.000 GHz. The frequency commanded before is forgotten:
once the mode is left the clock stays at 1.000 GHz until the host commands again (log 77). -/
def execLockedClockEnter (s : State) : Out :=
  if s.device.stage ≠ .full then .next (s.reject "LOCKED_CLOCK_ENTER")
  else if s.taskRuns then .next s
  else .next (s.modDevice (fun d => { d with locked := true, clock := 1000, commanded := 1000 }))

/-- LOCKED_CLOCK_LEAVE (R329). -/
def execLockedClockLeave (s : State) : Out :=
  if s.device.stage ≠ .full then .next (s.reject "LOCKED_CLOCK_LEAVE")
  else if s.taskRuns then .next s
  else .next (s.modDevice (fun d => { d with locked := false }))

/-! Integrity (R330). -/

/-- This package's number in each of its partitions. -/
def State.ownNumbers (s : State) : List Nat := s.partitions.filterMap (fun p => p.2.packages[p.2.pkgIdx]?)

/-- The packages that share a partition with this one. -/
def State.peerPackages (s : State) : List Nat := (s.partitions.flatMap (fun p => p.2.peers)).eraseDups

/-- An uncorrectable error at a check point (R298, R330): counted, every kernel stopped, reported here and to the peers, the package failed. -/
def State.failsAt (s : State) (p : CheckPoint) : State :=
  let s := s.setCounter (checkIndex p) (s.counter (checkIndex p)).fail
  let s := (NMap.keys s.contexts).foldl (fun s c => s.sweepContext c) s
  let own := s.ownNumbers.filter (fun p => !s.device.failed.contains p)
  let s := (s.modDevice (fun d => { d with halted := true, failed := d.failed ++ own.eraseDups })).notify .uncorrectable
  s.peerPackages.foldl (fun s k => s.send (.uncorrectable k)) s

/-- UNCORRECTABLE_ERROR (R298, R300, R330): what a check point finds: a corrected error, retries of a beat, an uncorrectable error where the
check point knows one, a packet of another delivery mode; or a peer's report (log 61). Check points that the package has not find nothing. -/
def execUncorrectableError (e : ErrorReport) (s : State) : Out :=
  match e with
  | .corrected p => (match p with
    | .pool _ | .hbm _ | .ethernet _ => if pointHere p then .next (s.countCorrected p 1) else .next s
    | .mesh _ | .dieToDie _ => .next s)
  | .retried die n =>
    let u := s.countCorrected (.dieToDie die) (min n 16)
    if !pointHere (.dieToDie die) then .next s else if n ≤ 16 then .next u else .next (u.failsAt (.dieToDie die))
  | .uncorrectable p => (match p with
    | .pool _ | .hbm _ | .mesh _ => if pointHere p then .next (s.failsAt p) else .next s
    | .dieToDie _ | .ethernet _ => .next s)
  | .otherMode port =>
    let i := checkIndex (.ethernet port)
    if port < 32 then .next (s.setCounter i { s.counter i with dropped := (s.counter i).dropped + 1 }) else .next s
  | .peer pkg => .next (s.packageFails pkg)

/-! Trust (R331, R332). -/

/-- COMMIT (R331): the fused counter rises to the version of an image that has reached FULL; a version above 64 cannot be committed. -/
def execCommit (s : State) : Out :=
  if s.device.reachedFull ∧ s.device.image.version.toNat ≤ 64 then
    .next (s.modDevice (fun d => { d with fuses := max d.fuses d.image.version.toNat }))
  else .next (s.reject "COMMIT")

/-- Code of a stage in a report. -/
def Stage.code : Stage → Nat
  | .verify => 0
  | .recovery => 1
  | .reduced => 2
  | .full => 3

/-- The partition table as a report digests it (R313, R332): for each partition its id, then each resource of R313, its list behind its
length: packages, quads, ranges, anonymous regions, ports, route entries, wake registers, command queues, graphs, contexts with place and size
of their PETs (log 86). -/
def State.tableBytes (s : State) : List Byte :=
  let n (x : Nat) : List Byte := bytesOf 8 x
  let l (f : List (List Byte)) : List Byte := n f.length ++ f.flatten
  l (s.partitions.map (fun p => n p.1 ++ l (p.2.packages.map n) ++ n p.2.pkgIdx ++ l (p.2.own.quads.map n)
    ++ l (p.2.own.ranges.map (fun r => n r.1 ++ n r.2)) ++ l (p.2.own.anon.map (fun r => n r.1 ++ n r.2.1 ++ n r.2.2))
    ++ l (p.2.own.ports.map (fun r => n r.1 ++ n (if r.2 then 1 else 0))) ++ l (p.2.own.routes.map (fun r => n r.1 ++ n r.2))
    ++ l (p.2.own.wakeRegs.map n) ++ l ((s.queues.filter (fun q => q.2.part == p.1)).map (fun q => n q.1))
    ++ l ((s.graphs.filter (fun g => g.2.part == p.1 && g.2.registered)).map (fun g => n g.1))
    ++ l ((s.contexts.filter (fun c => c.2.part == p.1)).map (fun c => n c.1 ++ n c.2.petAt ++ n c.2.petSize))))

/-- What a report holds (R332): nonce, digest of the image, its version, the fused counter, the stage, locked-clock mode, digest of the
partition table, each little-endian in this order (log 86). -/
def State.report (s : State) (nonce : BitVec 256) : List Byte :=
  let d := s.device
  bytesOf 32 nonce.toNat ++ bytesOf 32 (Config.shake256 d.image.image).toNat ++ bytesOf 4 d.image.version.toNat ++ bytesOf 8 d.fuses
    ++ bytesOf 1 d.stage.code ++ bytesOf 1 (if d.locked then 1 else 0) ++ bytesOf 32 (Config.shake256 s.tableBytes).toNat

/-- ATTESTATION_REPORT (R332): signed over the state when it is signed. -/
def execAttestationReport (nonce : BitVec 256) (s : State) : Out :=
  .next (s.notify (.report (s.report nonce ++ Config.identitySignature (s.report nonce))))

/-! Heartbeats (R298). -/

/-- HEARTBEAT (R298): a peer's arrives, or this package's own goes out on the fabric ports. -/
def execHeartbeat (pkg : Nat) (s : State) : Out :=
  if s.ownNumbers.contains pkg then .next (s.peerPackages.foldl (fun s k => s.send (.heartbeat k)) s) else .next (s.modDevice (fun d => { d with missed := NMap.set d.missed pkg 0 }))

/-- HEARTBEAT_TIMEOUT (R298): one more heartbeat of a package missed; at the eighth in a row the package is failed. -/
def execHeartbeatTimeout (pkg : Nat) (s : State) : Out :=
  let n := NMap.getD s.device.missed pkg 0 + 1
  let u := s.modDevice (fun d => { d with missed := NMap.set d.missed pkg n })
  .next (if 8 ≤ n then u.packageFails pkg else u)

/-! Checkpoints and recovery (R297 to R299). -/

/-- The task on a core as a checkpoint holds it. -/
def State.snapshot (s : State) (c : Nat) : SavedTask :=
  ⟨(s.task c).saved (s.member (s.task c).uid).atBarrier, (s.core c).written, false, none, false⟩

/-- Bytes of memory in a range. -/
def Memory.within (m : Memory) (a n : Nat) : List Host.Cell := m.filter (fun c => decide (a ≤ c.1) && decide (c.1 < a + n))

/-- Cores that hold a task of a partition. -/
def State.coresOf (s : State) (part : Nat) : List Nat := (s.cores.filter (fun x => x.2.mode != .idle && x.2.task.part == part)).map (·.1)

/-- Whether a core's task stands still, so that a checkpoint can hold it: no access, matrix step or chain under way (log 60). -/
def State.still (s : State) (c : Nat) : Bool :=
  (s.core c).mode == .run && s.accessesSettled c && s.matrixStops c && (s.chainsOf (s.task c).uid).isEmpty

/-- A place without the acceptance that a recovery takes back: the record is offered still (R293, R299). -/
def RecPlace.unaccepted : RecPlace → RecPlace
  | .moving k false => .offered k
  | .moving k true => .moving k true
  | .offered k => .offered k
  | .awaited pkg n => .awaited pkg n
  | .fault c e b => .fault c e b
  | .held => .held
  | .ring => .ring

/-- Whether a record of a partition is on its way to another package, or awaited from one (R293). -/
def State.crosses (s : State) (part : Nat) : Bool :=
  s.records.any (fun r => r.part == part && (match r.place with
    | .moving k b => b && decide (8 ≤ k)
    | .awaited .. => true
    | .ring | .held | .offered _ | .fault .. => false))

/-- The records of a partition that wait, those staged in shadow slots among them, with the images of saved tasks as their frames hold them
(R297); a frame that is lost gives none, one under revocation lets the checkpoint wait. -/
def State.heldRecords (s : State) (part : Nat) : Except Stop (List RingRec) :=
  ((s.cores.filterMap (fun x => x.2.shadow) ++ s.records).filter (fun r => r.part == part)).mapM (fun r =>
    match s.sentImages r with
    | .ok l => .ok { r with img := l, claim := [], place := r.place.unaccepted }
    | .error (.held c e) => .error (.held c e)
    | .error _ => .ok { r with claim := [], place := r.place.unaccepted })

/-- What a checkpoint of a partition holds (R297): the images of its tasks, the records that wait with theirs, its pools and the memory ranges
named, the collectives that are open with their timers, and the tables that they resume with. -/
def State.checkpointOf (s : State) (part : Nat) (ranges : List (Nat × Nat)) (records : List RingRec) : Checkpoint where
  part := part
  tasks := (s.coresOf part).map (fun c => (c, s.snapshot c))
  records := records
  ranges := (ranges ++ (s.coresOf part).map (fun c => (poolBase c, poolSize))).map (fun r => (r.1, r.2, s.mem.within r.1 r.2))
  contexts := s.contexts.filter (fun x => x.2.part == part)
  members := s.members.filter (fun x => x.2.part == part)
  groups := s.groups.filter (fun x => x.2.part == part)
  areas := (s.kernels.filter (fun x => s.partOfContext x.2.ctx == part)).map (fun x => (x.1, x.2.area))
  collectives := s.collectives.filter (fun x => x.contribs.any (fun b => b.part == part))
  timers := s.timers.filter (fun t => s.members.any (fun x => x.2.part == part && s.groupKey x.1 t.key.scope == t.key))
  hostRings := (s.kernels.filter (fun x => s.partOfContext x.2.ctx == part)).map (fun x => (x.1, x.2.hostRing, x.2.dropped))
  granules := (s.partOf part).granules

/-- Bytes that a checkpoint takes on the package: its ranges, and an image for each task (R260, R297); the pool of a task on a core stands among
the ranges. -/
def Checkpoint.size (k : Checkpoint) : Nat :=
  (k.ranges.map (fun r => r.2.1)).sum + (imageSize - poolSize) * k.tasks.length + imageSize * (k.records.map (fun r => r.img.length)).sum

/-- CHECKPOINT (R297): at the completion of a PHASE.X instance, in its cycle, with every task of the partition still on its core or saved,
and none on its way between packages; at most 256 GiB (log 60). -/
def execCheckpoint (part : Nat) (ranges : List (Nat × Nat)) (s : State) : Out :=
  if (s.partOf part).phasedAt ≠ some s.cyc ∨ !(s.coresOf part).all s.still ∨ s.crosses part then .next s
  else
    match s.heldRecords part with
    | .error _ => .next s
    | .ok l =>
      let k := s.checkpointOf part ranges l
      if 2 ^ 38 < k.size then .next (s.reject "CHECKPOINT")
      else .next { s with checkpoints := s.checkpoints.filter (fun x => x.part != part) ++ [k] }

/-- A task of a checkpoint resumes on its core (R267, R299): streams unshared, the lease waited for. -/
def State.resumeFrom (s : State) (c : Nat) (x : SavedTask) : State :=
  let t := { x.task with
    lease := if x.task.lease = .none then .none else .waiting
    streams := x.task.streams.map (fun y => { y with share := none }) }
  (s.setCore c { Core.reset with mode := .restore, task := t, group := (s.member t.uid).group, written := x.written, level := t.record.prio }).resumeTask c

/-- The memory of a partition after recovery (R299): what the checkpoint names as it was, the rest as it stood at the stop, or zero where this
package is the spare. -/
def State.recoverMemory (s : State) (k : Checkpoint) (spare : Bool) : State :=
  let s := if spare then s.clearOwned k.part (s.partOf k.part).own else s
  k.ranges.foldl (fun s r => s.rewrite r.1 r.2.1 r.2.2) s

/-- The records of a host's event ring after recovery: those that stood there at the checkpoint, unless the host has taken them (R299, R312). -/
def ringAfter (kept now : List Rec) : List Rec := if kept.isPrefixOf now then kept else []

/-- The offers of a partition's records to dies of peers are made again: a recovery has ended what the peers knew of them (R292, R299) (log 60). -/
def State.offerAgain (s : State) (part : Nat) : State :=
  s.records.foldl (fun u r => match r.place with
    | .offered k => if r.part = part ∧ 8 ≤ k then u.offerTo r k else u
    | .ring | .held | .moving .. | .fault .. | .awaited .. => u) s

/-- The tables of a partition after recovery (R299): as the checkpoint holds them; what followed it is lost, its tasks and groups among it. -/
def State.recoverTables (s : State) (k : Checkpoint) (pkg : Nat) : State :=
  let u : State := { s with
    records := k.records ++ s.records.filter (fun r => r.part != k.part)
    contexts := overlay s.contexts k.contexts
    members := overlay (s.members.filter (fun x => x.2.part != k.part)) k.members
    groups := overlay s.groups k.groups
    timers := s.timers.filter (fun t => !k.members.any (fun x => s.groupKey x.1 t.key.scope == t.key)) ++ k.timers
    collectives := k.collectives ++ s.collectives.filter (fun x => !x.contribs.any (fun b => b.part == k.part))
    kernels := NMap.mapv s.kernels (fun i x => match NMap.get k.areas i, NMap.get k.hostRings i with
      | some a, some h => { x with area := a, dying := none, deaths := 0, hostRing := ringAfter h.1 x.hostRing, dropped := h.2 }
      | _, _ => x)
    device := { s.device with failed := s.device.failed.filter (fun p => p != pkg), missed := NMap.set s.device.missed pkg 0, halted := false } }
  u.modPartition k.part (fun p => { p with granules := k.granules })

/-- PACKAGE_RECOVERY (R298, R299): with a spare in the failed package's place the partition resumes from its last checkpoint, once no other
partition's task is on its cores; in REDUCED only where no ring would hold more than 1,024 records (R325) (log 60). -/
def execPackageRecovery (part pkg : Nat) (s : State) : Out :=
  match s.checkpoints.find? (fun x => x.part == part) with
  | none => .next s
  | some k =>
    if !s.serves || !s.device.failed.contains pkg || k.tasks.any (fun x => (s.core x.1).mode != .idle && (s.task x.1).part != part) then .next s
    else
      let u := (s.contextsOf part).foldl (fun s c => s.sweepContext c) s
      let u := (u.recoverMemory k (s.ownNumbers.contains pkg)).recoverTables k pkg
      if !u.ringsFit part then .next s
      else .next ((k.tasks.foldl (fun s x => (s.withdraw x.1).resumeFrom x.1 x.2) u).offerAgain part)

end Sys2Proof.Machine
end

