-- ==== Sys2Proof/Machine/Dispatch.lean ====
section
/-! DEFINITION. One arm per instruction: the meaning it has. -/
namespace Sys2Proof.Machine

/-- What a step of the machine does. -/
def exec (i : Instr) (s : State) : Host.Outcome State Fault Refusal :=
  match i with
  | .add fs d a b => Sys2Proof.Machine.execAdd fs d a b s
  | .sub fs d a b => Sys2Proof.Machine.execSub fs d a b s
  | .and fs d a b => Sys2Proof.Machine.execAnd fs d a b s
  | .or fs d a b => Sys2Proof.Machine.execOr fs d a b s
  | .xor fs d a b => Sys2Proof.Machine.execXor fs d a b s
  | .sll fs d a b => Sys2Proof.Machine.execSll fs d a b s
  | .srl fs d a b => Sys2Proof.Machine.execSrl fs d a b s
  | .sra fs d a b => Sys2Proof.Machine.execSra fs d a b s
  | .mul fs d a b => Sys2Proof.Machine.execMul fs d a b s
  | .mulh fs d a b => Sys2Proof.Machine.execMulh fs d a b s
  | .mulhu fs d a b => Sys2Proof.Machine.execMulhu fs d a b s
  | .clz fs d a => Sys2Proof.Machine.execClz fs d a s
  | .slt fs d a b => Sys2Proof.Machine.execSlt fs d a b s
  | .sltu fs d a b => Sys2Proof.Machine.execSltu fs d a b s
  | .seq fs d a b => Sys2Proof.Machine.execSeq fs d a b s
  | .sne fs d a b => Sys2Proof.Machine.execSne fs d a b s
  | .min fs d a b => Sys2Proof.Machine.execMin fs d a b s
  | .max fs d a b => Sys2Proof.Machine.execMax fs d a b s
  | .minu fs d a b => Sys2Proof.Machine.execMinu fs d a b s
  | .maxu fs d a b => Sys2Proof.Machine.execMaxu fs d a b s
  | .sel fs d a b => Sys2Proof.Machine.execSel fs d a b s
  | .addi fs d a fi => Sys2Proof.Machine.execAddi fs d a fi s
  | .andi fs d a fi => Sys2Proof.Machine.execAndi fs d a fi s
  | .ori fs d a fi => Sys2Proof.Machine.execOri fs d a fi s
  | .xori fs d a fi => Sys2Proof.Machine.execXori fs d a fi s
  | .slti fs d a fi => Sys2Proof.Machine.execSlti fs d a fi s
  | .sltiu fs d a fi => Sys2Proof.Machine.execSltiu fs d a fi s
  | .slli fs d a n => Sys2Proof.Machine.execSlli fs d a n s
  | .srli fs d a n => Sys2Proof.Machine.execSrli fs d a n s
  | .srai fs d a n => Sys2Proof.Machine.execSrai fs d a n s
  | .bfx fs d a l n => Sys2Proof.Machine.execBfx fs d a l n s
  | .bfxs fs d a l n => Sys2Proof.Machine.execBfxs fs d a l n s
  | .movi fs d fi => Sys2Proof.Machine.execMovi fs d fi s
  | .movhi fs d h v => Sys2Proof.Machine.execMovhi fs d h v s
  | .qmov fs d a => Sys2Proof.Machine.execQmov fs d a s
  | .qflush fs a => Sys2Proof.Machine.execQflush fs a s
  | .bpa d c fi => Sys2Proof.Machine.execBpa d c fi s
  | .bpx d c fi => Sys2Proof.Machine.execBpx d c fi s
  | .jmpi fs a fi => Sys2Proof.Machine.execJmpi fs a fi s
  | .lds k d o fi => Sys2Proof.Machine.execLds k d o fi s
  | .sts k d o fi => Sys2Proof.Machine.execSts k d o fi s
  | .ldv k d o fi => Sys2Proof.Machine.execLdv k d o fi s
  | .stv k d o fi => Sys2Proof.Machine.execStv k d o fi s
  | .ldq k d o fi => Sys2Proof.Machine.execLdq k d o fi s
  | .stq k d o fi => Sys2Proof.Machine.execStq k d o fi s
  | .ldg k d o => Sys2Proof.Machine.execLdg k d o s
  | .stg k d o => Sys2Proof.Machine.execStg k d o s
  | .aadd k d o z fi => Sys2Proof.Machine.execAadd k d o z fi s
  | .amin k d o z fi => Sys2Proof.Machine.execAmin k d o z fi s
  | .amax k d o z fi => Sys2Proof.Machine.execAmax k d o z fi s
  | .aand k d o z fi => Sys2Proof.Machine.execAand k d o z fi s
  | .aor k d o z fi => Sys2Proof.Machine.execAor k d o z fi s
  | .axor k d o z fi => Sys2Proof.Machine.execAxor k d o z fi s
  | .axchg k d o z fi => Sys2Proof.Machine.execAxchg k d o z fi s
  | .acas k d o z fi => Sys2Proof.Machine.execAcas k d o z fi s
  | .vaadd k d o f => Sys2Proof.Machine.execVaadd k d o f s
  | .vaor k d o => Sys2Proof.Machine.execVaor k d o s
  | .vamin k d o f => Sys2Proof.Machine.execVamin k d o f s
  | .vamax k d o f => Sys2Proof.Machine.execVamax k d o f s
  | .trans k d o p w => Sys2Proof.Machine.execTrans k d o p w s
  | .tqry k d fs => Sys2Proof.Machine.execTqry k d fs s
  | .kmov k d r => Sys2Proof.Machine.execKmov k d r s
  | .relq k => Sys2Proof.Machine.execRelq k s
  | .nstQ k d n => Sys2Proof.Machine.execNstQ k d n s
  | .sbind u v a => Sys2Proof.Machine.execSbind u v a s
  | .sdrop u => Sys2Proof.Machine.execSdrop u s
  | .copy a b => Sys2Proof.Machine.execCopy a b s
  | .collRed u a b => Sys2Proof.Machine.execCollRed u a b s
  | .collAr u a b => Sys2Proof.Machine.execCollAr u a b s
  | .collGat u a b => Sys2Proof.Machine.execCollGat u a b s
  | .collBc u a b => Sys2Proof.Machine.execCollBc u a b s
  | .ewait f => Sys2Proof.Machine.execEwait f s
  | .esig f => Sys2Proof.Machine.execEsig f s
  | .spawn k o fi => Sys2Proof.Machine.execSpawn k o fi s
  | .join k o fi => Sys2Proof.Machine.execJoin k o fi s
  | .cycrd fs d => Sys2Proof.Machine.execCycrd fs d s
  | .trap fs c => Sys2Proof.Machine.execTrap fs c s
  | .rds fs d r => Sys2Proof.Machine.execRds fs d r s
  | .wrs fs a r => Sys2Proof.Machine.execWrs fs a r s
  | .vadd d a b m => Sys2Proof.Machine.execVadd d a b m s
  | .vsub d a b m => Sys2Proof.Machine.execVsub d a b m s
  | .vmul d a b m => Sys2Proof.Machine.execVmul d a b m s
  | .vmin d a b m => Sys2Proof.Machine.execVmin d a b m s
  | .vmax d a b m => Sys2Proof.Machine.execVmax d a b m s
  | .vabs d a m => Sys2Proof.Machine.execVabs d a m s
  | .vneg d a m => Sys2Proof.Machine.execVneg d a m s
  | .vmov d a m => Sys2Proof.Machine.execVmov d a m s
  | .vfma d a b m => Sys2Proof.Machine.execVfma d a b m s
  | .vrcp d a m => Sys2Proof.Machine.execVrcp d a m s
  | .vrsq d a m => Sys2Proof.Machine.execVrsq d a m s
  | .vexp2 d a m => Sys2Proof.Machine.execVexp2 d a m s
  | .vlog2 d a m => Sys2Proof.Machine.execVlog2 d a m s
  | .viadd d a b m => Sys2Proof.Machine.execViadd d a b m s
  | .visub d a b m => Sys2Proof.Machine.execVisub d a b m s
  | .vimul d a b m => Sys2Proof.Machine.execVimul d a b m s
  | .vimin d a b m => Sys2Proof.Machine.execVimin d a b m s
  | .vimax d a b m => Sys2Proof.Machine.execVimax d a b m s
  | .vshl d a b m => Sys2Proof.Machine.execVshl d a b m s
  | .vshr d a b m => Sys2Proof.Machine.execVshr d a b m s
  | .vsra d a b m => Sys2Proof.Machine.execVsra d a b m s
  | .viaddH d a b m => Sys2Proof.Machine.execViaddH d a b m s
  | .visubH d a b m => Sys2Proof.Machine.execVisubH d a b m s
  | .vimulH d a b m => Sys2Proof.Machine.execVimulH d a b m s
  | .viminH d a b m => Sys2Proof.Machine.execViminH d a b m s
  | .vimaxH d a b m => Sys2Proof.Machine.execVimaxH d a b m s
  | .vshlH d a b m => Sys2Proof.Machine.execVshlH d a b m s
  | .vshrH d a b m => Sys2Proof.Machine.execVshrH d a b m s
  | .vsraH d a b m => Sys2Proof.Machine.execVsraH d a b m s
  | .viaddB d a b m => Sys2Proof.Machine.execViaddB d a b m s
  | .visubB d a b m => Sys2Proof.Machine.execVisubB d a b m s
  | .vimulB d a b m => Sys2Proof.Machine.execVimulB d a b m s
  | .viminB d a b m => Sys2Proof.Machine.execViminB d a b m s
  | .vimaxB d a b m => Sys2Proof.Machine.execVimaxB d a b m s
  | .vshlB d a b m => Sys2Proof.Machine.execVshlB d a b m s
  | .vshrB d a b m => Sys2Proof.Machine.execVshrB d a b m s
  | .vsraB d a b m => Sys2Proof.Machine.execVsraB d a b m s
  | .viaddS d a b m => Sys2Proof.Machine.execViaddS d a b m s
  | .visubS d a b m => Sys2Proof.Machine.execVisubS d a b m s
  | .viaddHS d a b m => Sys2Proof.Machine.execViaddHS d a b m s
  | .visubHS d a b m => Sys2Proof.Machine.execVisubHS d a b m s
  | .viaddBS d a b m => Sys2Proof.Machine.execViaddBS d a b m s
  | .visubBS d a b m => Sys2Proof.Machine.execVisubBS d a b m s
  | .vand d a b m => Sys2Proof.Machine.execVand d a b m s
  | .vor d a b m => Sys2Proof.Machine.execVor d a b m s
  | .vxor d a b m => Sys2Proof.Machine.execVxor d a b m s
  | .vandn d a b m => Sys2Proof.Machine.execVandn d a b m s
  | .vcvt d a t f w => Sys2Proof.Machine.execVcvt d a t f w s
  | .vceq d a b m => Sys2Proof.Machine.execVceq d a b m s
  | .vcne d a b m => Sys2Proof.Machine.execVcne d a b m s
  | .vclt d a b m => Sys2Proof.Machine.execVclt d a b m s
  | .vcle d a b m => Sys2Proof.Machine.execVcle d a b m s
  | .vcun d a b m => Sys2Proof.Machine.execVcun d a b m s
  | .viceq d a b m => Sys2Proof.Machine.execViceq d a b m s
  | .vicne d a b m => Sys2Proof.Machine.execVicne d a b m s
  | .viclt d a b m => Sys2Proof.Machine.execViclt d a b m s
  | .vicle d a b m => Sys2Proof.Machine.execVicle d a b m s
  | .vicltu d a b m => Sys2Proof.Machine.execVicltu d a b m s
  | .vicleu d a b m => Sys2Proof.Machine.execVicleu d a b m s
  | .mand d a b => Sys2Proof.Machine.execMand d a b s
  | .mor d a b => Sys2Proof.Machine.execMor d a b s
  | .mxor d a b => Sys2Proof.Machine.execMxor d a b s
  | .mandn d a b => Sys2Proof.Machine.execMandn d a b s
  | .mnot d a => Sys2Proof.Machine.execMnot d a s
  | .vsel d a b m => Sys2Proof.Machine.execVsel d a b m s
  | .vbcast d a m => Sys2Proof.Machine.execVbcast d a m s
  | .vlid d m => Sys2Proof.Machine.execVlid d m s
  | .vrotm d a b fs => Sys2Proof.Machine.execVrotm d a b fs s
  | .vperm d a b m => Sys2Proof.Machine.execVperm d a b m s
  | .vzipl d a b m => Sys2Proof.Machine.execVzipl d a b m s
  | .vziph d a b m => Sys2Proof.Machine.execVziph d a b m s
  | .vradd d a m => Sys2Proof.Machine.execVradd d a m s
  | .vrmax d a m => Sys2Proof.Machine.execVrmax d a m s
  | .vrmin d a m => Sys2Proof.Machine.execVrmin d a m s
  | .defer a n m => Sys2Proof.Machine.execDefer a n m s
  | .drain d n l => Sys2Proof.Machine.execDrain d n l s
  | .drainF d n l m => Sys2Proof.Machine.execDrainF d n l m s
  | .prec z a b => Sys2Proof.Machine.execPrec z a b s
  | .mclr z => Sys2Proof.Machine.execMclr z s
  | .mmul z a b fs => Sys2Proof.Machine.execMmul z a b fs s
  | .mmuls z a b fs => Sys2Proof.Machine.execMmuls z a b fs s
  | .mld z fs => Sys2Proof.Machine.execMld z fs s
  | .mst z fs f h => Sys2Proof.Machine.execMst z fs f h s
  | .mstQ z f q h => Sys2Proof.Machine.execMstQ z f q h s
  | .lease => Sys2Proof.Machine.execLease s
  | .unlease => Sys2Proof.Machine.execUnlease s
  | .histClr => Sys2Proof.Machine.execHistClr s
  | .histRd q => Sys2Proof.Machine.execHistRd q s
  | .ewaitX f => Sys2Proof.Machine.execEwaitX f s
  | .esigX f => Sys2Proof.Machine.execEsigX f s
  | .b o => Sys2Proof.Machine.execB o s
  | .brx d c fi => Sys2Proof.Machine.execBrx d c fi s
  | .bra d c fi => Sys2Proof.Machine.execBra d c fi s
  | .call o => Sys2Proof.Machine.execCall o s
  | .ret => Sys2Proof.Machine.execRet s
  | .loop d n e => Sys2Proof.Machine.execLoop d n e s
  | .loopS d fs e => Sys2Proof.Machine.execLoopS d fs e s
  | .loopA d a e => Sys2Proof.Machine.execLoopA d a e s
  | .bar fs w a => Sys2Proof.Machine.execBar fs w a s
  | .phase fs w a => Sys2Proof.Machine.execPhase fs w a s
  | .nst k d n => Sys2Proof.Machine.execNst k d n s
  | .tend => Sys2Proof.Machine.execTend s
  | .ychk o => Sys2Proof.Machine.execYchk o s
  | .yield k o => Sys2Proof.Machine.execYield k o s
  | .halt => Sys2Proof.Machine.execHalt s
  | .illegalInstruction => Sys2Proof.Machine.execIllegalInstruction s
  | .executeData => Sys2Proof.Machine.execExecuteData s
  | .queueDeadlock core => Sys2Proof.Machine.execQueueDeadlock core s
  | .pendingEntryDrain core fi => Sys2Proof.Machine.execPendingEntryDrain core fi s
  | .loadReadStep core fi => Sys2Proof.Machine.execLoadReadStep core fi s
  | .loadDataArrival core fi => Sys2Proof.Machine.execLoadDataArrival core fi s
  | .atomicStep core fi => Sys2Proof.Machine.execAtomicStep core fi s
  | .vectorAtomicLaneStep core => Sys2Proof.Machine.execVectorAtomicLaneStep core s
  | .faultComplete part fi => Sys2Proof.Machine.execFaultComplete part fi s
  | .faultFail part fi => Sys2Proof.Machine.execFaultFail part fi s
  | .forcedSave core => Sys2Proof.Machine.execForcedSave core s
  | .saveComplete core => Sys2Proof.Machine.execSaveComplete core s
  | .contextRestore core => Sys2Proof.Machine.execContextRestore core s
  | .taskLaunch core => Sys2Proof.Machine.execTaskLaunch core s
  | .dispatchChoice core => Sys2Proof.Machine.execDispatchChoice core s
  | .otherDieTake core => Sys2Proof.Machine.execOtherDieTake core s
  | .promotion fi => Sys2Proof.Machine.execPromotion fi s
  | .teamClaim fi => Sys2Proof.Machine.execTeamClaim fi s
  | .teamClaimStart fi => Sys2Proof.Machine.execTeamClaimStart fi s
  | .migrationOffer fi => Sys2Proof.Machine.execMigrationOffer fi s
  | .advertisement a => Sys2Proof.Machine.execAdvertisement a s
  | .migrationAccept fi => Sys2Proof.Machine.execMigrationAccept fi s
  | .migration m => Sys2Proof.Machine.execMigration m s
  | .migrationAck fi => Sys2Proof.Machine.execMigrationAck fi s
  | .kernelDeath kid => Sys2Proof.Machine.execKernelDeath kid s
  | .kill kid => Sys2Proof.Machine.execKill kid s
  | .killAckTimeout kid pkg => Sys2Proof.Machine.execKillAckTimeout kid pkg s
  | .remoteAccess part op => Sys2Proof.Machine.execRemoteAccess part op s
  | .count uid n => Sys2Proof.Machine.execCount uid n s
  | .contribution c => Sys2Proof.Machine.execContribution c s
  | .arrival group member a => Sys2Proof.Machine.execArrival group member a s
  | .stololayrWake part reg value => Sys2Proof.Machine.execStololayrWake part reg value s
  | .barrierCompletion core => Sys2Proof.Machine.execBarrierCompletion core s
  | .collectiveTimerAbort group sc n => Sys2Proof.Machine.execCollectiveTimerAbort group sc n s
  | .collectiveCompletion fi => Sys2Proof.Machine.execCollectiveCompletion fi s
  | .chainStart core => Sys2Proof.Machine.execChainStart core s
  | .chainCopy core => Sys2Proof.Machine.execChainCopy core s
  | .copyTransaction core => Sys2Proof.Machine.execCopyTransaction core s
  | .chainLoop core => Sys2Proof.Machine.execChainLoop core s
  | .chainCond core => Sys2Proof.Machine.execChainCond core s
  | .chainSignal core => Sys2Proof.Machine.execChainSignal core s
  | .chainWait core => Sys2Proof.Machine.execChainWait core s
  | .chainEnd core => Sys2Proof.Machine.execChainEnd core s
  | .setterTakesEffect uid fi => Sys2Proof.Machine.execSetterTakesEffect uid fi s
  | .shareGroupTimeout fi => Sys2Proof.Machine.execShareGroupTimeout fi s
  | .arrayCommandStart core => Sys2Proof.Machine.execArrayCommandStart core s
  | .arrayStep core => Sys2Proof.Machine.execArrayStep core s
  | .arrayCommandEnd core => Sys2Proof.Machine.execArrayCommandEnd core s
  | .precAtHead core => Sys2Proof.Machine.execPrecAtHead core s
  | .mclrAtHead core => Sys2Proof.Machine.execMclrAtHead core s
  | .mldAtHead core => Sys2Proof.Machine.execMldAtHead core s
  | .mstAtHead core => Sys2Proof.Machine.execMstAtHead core s
  | .mstElementPush core => Sys2Proof.Machine.execMstElementPush core s
  | .histClrAtHead core => Sys2Proof.Machine.execHistClrAtHead core s
  | .histRdAtHead core => Sys2Proof.Machine.execHistRdAtHead core s
  | .revocationRequest ctx entry => Sys2Proof.Machine.execRevocationRequest ctx entry s
  | .entryHeld ctx entry => Sys2Proof.Machine.execEntryHeld ctx entry s
  | .refresh ctx entry frames => Sys2Proof.Machine.execRefresh ctx entry frames s
  | .entryKill ctx entry => Sys2Proof.Machine.execEntryKill ctx entry s
  | .entryFreed ctx entry => Sys2Proof.Machine.execEntryFreed ctx entry s
  | .pwcInvalidate ctx => Sys2Proof.Machine.execPwcInvalidate ctx s
  | .hmaskSet stack masks => Sys2Proof.Machine.execHmaskSet stack masks s
  | .dlbWrite part value => Sys2Proof.Machine.execDlbWrite part value s
  | .dltWrite part value => Sys2Proof.Machine.execDltWrite part value s
  | .dlxClear part value => Sys2Proof.Machine.execDlxClear part value s
  | .scrubRead granule corrected => Sys2Proof.Machine.execScrubRead granule corrected s
  | .scrubWriteBack granule => Sys2Proof.Machine.execScrubWriteBack granule s
  | .queueTailWrite queue tail => Sys2Proof.Machine.execQueueTailWrite queue tail s
  | .packetRead queue => Sys2Proof.Machine.execPacketRead queue s
  | .load queue req => Sys2Proof.Machine.execLoad queue req s
  | .launch queue req => Sys2Proof.Machine.execLaunch queue req s
  | .wake queue handle => Sys2Proof.Machine.execWake queue handle s
  | .indirect queue addr len => Sys2Proof.Machine.execIndirect queue addr len s
  | .fence queue => Sys2Proof.Machine.execFence queue s
  | .register queue desc => Sys2Proof.Machine.execRegister queue desc s
  | .unregister queue handle => Sys2Proof.Machine.execUnregister queue handle s
  | .unknownCommand queue => Sys2Proof.Machine.execUnknownCommand queue s
  | .queueReset queue => Sys2Proof.Machine.execQueueReset queue s
  | .wakeRegisterWrite part reg value => Sys2Proof.Machine.execWakeRegisterWrite part reg value s
  | .runStart graph node => Sys2Proof.Machine.execRunStart graph node s
  | .runEnd graph node => Sys2Proof.Machine.execRunEnd graph node s
  | .loopNodePass graph node => Sys2Proof.Machine.execLoopNodePass graph node s
  | .conditionalNodeRead graph node => Sys2Proof.Machine.execConditionalNodeRead graph node s
  | .recordCopy kid => Sys2Proof.Machine.execRecordCopy kid s
  | .tenantSliceEnd part => Sys2Proof.Machine.execTenantSliceEnd part s
  | .tenantSliceOpen part => Sys2Proof.Machine.execTenantSliceOpen part s
  | .quotaWindow part => Sys2Proof.Machine.execQuotaWindow part s
  | .deschedule part => Sys2Proof.Machine.execDeschedule part s
  | .reschedule part => Sys2Proof.Machine.execReschedule part s
  | .pause part => Sys2Proof.Machine.execPause part s
  | .migrationImageRestore fi => Sys2Proof.Machine.execMigrationImageRestore fi s
  | .virtualDeviceReset part => Sys2Proof.Machine.execVirtualDeviceReset part s
  | .ownershipChange part own => Sys2Proof.Machine.execOwnershipChange part own s
  | .parameterRegisterWrite reg value => Sys2Proof.Machine.execParameterRegisterWrite reg value s
  | .moduleReset => Sys2Proof.Machine.execModuleReset s
  | .verifyComplete => Sys2Proof.Machine.execVerifyComplete s
  | .recoveryImage file => Sys2Proof.Machine.execRecoveryImage file s
  | .trainingComplete failed => Sys2Proof.Machine.execTrainingComplete failed s
  | .powerStateChange die st => Sys2Proof.Machine.execPowerStateChange die st s
  | .clockCommand mhz => Sys2Proof.Machine.execClockCommand mhz s
  | .clockChange => Sys2Proof.Machine.execClockChange s
  | .thermalTrip die temp => Sys2Proof.Machine.execThermalTrip die temp s
  | .thermalRecovery temps => Sys2Proof.Machine.execThermalRecovery temps s
  | .lockedClockEnter => Sys2Proof.Machine.execLockedClockEnter s
  | .lockedClockLeave => Sys2Proof.Machine.execLockedClockLeave s
  | .uncorrectableError e => Sys2Proof.Machine.execUncorrectableError e s
  | .commit => Sys2Proof.Machine.execCommit s
  | .attestationReport nonce => Sys2Proof.Machine.execAttestationReport nonce s
  | .heartbeat pkg => Sys2Proof.Machine.execHeartbeat pkg s
  | .heartbeatTimeout pkg => Sys2Proof.Machine.execHeartbeatTimeout pkg s
  | .checkpoint part ranges => Sys2Proof.Machine.execCheckpoint part ranges s
  | .packageRecovery part pkg => Sys2Proof.Machine.execPackageRecovery part pkg s
  | .killAcknowledgement kid pkg => Sys2Proof.Machine.execKillAcknowledgement kid pkg s
  | .partitionCreation req => Sys2Proof.Machine.execPartitionCreation req s
  | .partitionDestruction part => Sys2Proof.Machine.execPartitionDestruction part s
  | .contextCreation req => Sys2Proof.Machine.execContextCreation req s
  | .contextDestruction ctx => Sys2Proof.Machine.execContextDestruction ctx s
  | .entryToActive die => Sys2Proof.Machine.execEntryToActive die s
  | .eventRingDrain kid => Sys2Proof.Machine.execEventRingDrain kid s

end Sys2Proof.Machine
end

