-- ==== Sys2Proof/Machine/Step.lean ====
section
/-! DEFINITION. One step: whose turn it is (log 1), the fetch, and the instruction; and the load that places one word. -/
namespace Sys2Proof.Machine

/-- One step of the machine: the agent whose turn it is acts; with no turn given the clock ticks (log 1). A sequencer that has
issued in this cycle issues in the next (R66). -/
def step (s : State) : Host.Outcome State Fault Refusal :=
  match s.turns with
  | [] => .next s.tick
  | .tick :: ts => .next { s with turns := ts }.tick
  | .issue c d :: ts =>
    let s := { s with turns := ts, cur := c, side := d }
    let s := if (s.seq c d).issued then s.tick else s
    match s.fetch c d with
    | .idle => .next s
    | .slip s => .next (s.setSeq c d { s.seq c d with blocked := true })
    | .run i s => exec i s
  | .event i :: ts =>
    let s := { s with turns := ts }
    if isEvent i then exec i s else .next s

/-- The PARTW under which a placed word runs: 32 vector registers, 8 tiles, one 64 KiB unit of deferral carve (log 18). -/
def placedPartw : BitVec 22 := 0x2082#22

/-- The kernel of a text of one word (log 18). -/
def placedKernel (w : Word32) : Kernel where
  ctx := 1
  textAt := nearLocal 0
  textLen := 1
  data := []
  marks := if fld w 30 2 = 2#2 then [0] else []
  partw := placedPartw
  constAt := 0
  constVa := 0#64
  constLen := 0
  param := none
  recLog := 6
  area := []
  dropped := 0
  hostRing := []
  dying := none
  deaths := 0
  staged := none

/-- The sequencer that executes a placed word first: the owner of a B word's condition, else A (R29, R77). -/
def placedSide (w : Word32) : Side :=
  if fld w 30 2 = 1#2 then .x
  else if fld w 30 2 = 2#2 ∧ (fld w 24 6 = 1#6 ∨ fld w 24 6 = 6#6) then .x
  else .a

/-- Places one word as the text of kernel 1 of context 1, run by core 0 from offset 0 with the next turn (log 18). -/
def State.withFetchWord (s : State) (nbits w : Nat) : State :=
  let v : Word32 := BitVec.ofNat 32 (w % 2 ^ nbits)
  let d := placedSide v
  let x := s.core 0
  let t := { x.task with kid := kernelKey 1 1, ctx := 1, partw := placedPartw, dqb := BitVec.ofNat 22 (dqBase placedPartw), dql := BitVec.ofNat 17 (dqCap placedPartw) }
  let t := (t.setSeq .a { t.seqA with pc := 0#32, issued := false }).setSeq .x { t.seqX with pc := 0#32, issued := false }
  { s with
    turns := .issue 0 d :: s.turns
    mem := s.mem.writeRun (nearLocal 0) (bytesOfWord v)
    kernels := NMap.set s.kernels (kernelKey 1 1) (placedKernel v)
    cores := NMap.set s.cores 0 { x with mode := .run, task := t } }

end Sys2Proof.Machine
end

