-- ==== Sys2Proof/Safety.lean ====
section
/-! DEFINITION. What claims mean by a safe run: no fault and no refusal is met. -/
namespace Sys2Proof.Machine

/-- The step answers a next state. -/
def Completes (o : Host.Outcome State Fault Refusal) : Prop := ∃ t, o = .next t

/-- A step from the state meets no fault and no refusal. -/
def SafeStep (s : State) : Prop := Completes (step s)

end Sys2Proof.Machine
end

