-- ==== Sys2Proof/Certificates/Slice0/Obligations.lean ====
section
/-! DEFINITION. The statements about the machine. Helper predicates stand in Sys2Proof.Claims; every statement is a definition
Obligations.<Name>. A hypothesis such as `s.readOp c d f = .ok (x, t)` says that the operand can be read now (registers not awaited,
queue elements present); what those operations do is stated of its own. -/
namespace Sys2Proof.Claims
open Sys2Proof Sys2Proof.Machine

/-- The instruction answers this next state. -/
abbrev Runs (i : Instr) (s t : State) : Prop := exec i s = .next t

/-- The steps that no word encodes: what agents outside the sequencers do (R35), and what a word that is no instruction comes to. -/
def stepOnly : Instr → Bool
  | .illegalInstruction | .executeData | .queueDeadlock .. | .pendingEntryDrain .. | .loadReadStep .. | .loadDataArrival ..
  | .atomicStep .. | .vectorAtomicLaneStep .. | .faultComplete .. | .faultFail .. | .forcedSave .. | .saveComplete ..
  | .contextRestore .. | .taskLaunch .. | .dispatchChoice .. | .otherDieTake .. | .promotion .. | .teamClaim .. | .teamClaimStart ..
  | .migrationOffer .. | .advertisement .. | .migrationAccept .. | .migration .. | .migrationAck .. | .kernelDeath .. | .kill ..
  | .killAckTimeout .. | .remoteAccess .. | .count .. | .contribution .. | .arrival .. | .stololayrWake .. | .barrierCompletion ..
  | .collectiveTimerAbort .. | .collectiveCompletion .. | .chainStart .. | .chainCopy .. | .copyTransaction .. | .chainLoop ..
  | .chainCond .. | .chainSignal .. | .chainWait .. | .chainEnd .. | .setterTakesEffect .. | .shareGroupTimeout ..
  | .arrayCommandStart .. | .arrayStep .. | .arrayCommandEnd .. | .precAtHead .. | .mclrAtHead .. | .mldAtHead .. | .mstAtHead ..
  | .mstElementPush .. | .histClrAtHead .. | .histRdAtHead .. | .revocationRequest .. | .entryHeld .. | .refresh .. | .entryKill ..
  | .entryFreed .. | .pwcInvalidate .. | .hmaskSet .. | .dlbWrite .. | .dltWrite .. | .dlxClear .. | .scrubRead .. | .scrubWriteBack ..
  | .queueTailWrite .. | .packetRead .. | .load .. | .launch .. | .wake .. | .indirect .. | .fence .. | .register .. | .unregister ..
  | .unknownCommand .. | .queueReset .. | .wakeRegisterWrite .. | .runStart .. | .runEnd .. | .loopNodePass ..
  | .conditionalNodeRead .. | .recordCopy .. | .tenantSliceEnd .. | .tenantSliceOpen .. | .quotaWindow .. | .deschedule ..
  | .reschedule .. | .pause .. | .migrationImageRestore .. | .virtualDeviceReset .. | .ownershipChange .. | .parameterRegisterWrite ..
  | .moduleReset | .verifyComplete | .recoveryImage .. | .trainingComplete .. | .powerStateChange .. | .clockCommand .. | .clockChange
  | .thermalTrip .. | .thermalRecovery .. | .lockedClockEnter | .lockedClockLeave | .uncorrectableError .. | .commit
  | .attestationReport .. | .heartbeat .. | .heartbeatTimeout .. | .checkpoint .. | .packageRecovery .. | .killAcknowledgement ..
  | .partitionCreation .. | .partitionDestruction .. | .contextCreation .. | .contextDestruction .. | .entryToActive ..
  | .eventRingDrain .. => true
  | _ => false

/-- Everything of the state but its cores, memory, scrubber flags and kernels is unchanged. -/
def SameOutside (s t : State) : Prop :=
  t.turns = s.turns ∧ t.cur = s.cur ∧ t.side = s.side ∧ t.cyc = s.cyc ∧ t.quads = s.quads ∧ t.dies = s.dies ∧ t.hmask = s.hmask ∧
  t.nstr = s.nstr ∧ t.contexts = s.contexts ∧ t.partitions = s.partitions ∧ t.records = s.records ∧ t.members = s.members ∧
  t.groups = s.groups ∧ t.timers = s.timers ∧ t.collectives = s.collectives ∧ t.shares = s.shares ∧ t.queues = s.queues ∧
  t.graphs = s.graphs ∧ t.wakeRegs = s.wakeRegs ∧ t.outbox = s.outbox ∧ t.notices = s.notices ∧ t.checkpoints = s.checkpoints ∧
  t.images = s.images ∧ t.device = s.device

/-- The system registers and status bits of a task are unchanged. -/
def SameSystem (t u : Task) : Prop :=
  u.partw = t.partw ∧ u.doms = t.doms ∧ u.slipw = t.slipw ∧ u.stat = t.stat ∧ u.tks = t.tks ∧ u.vst = t.vst ∧ u.zst = t.zst ∧
  u.spk = t.spk ∧ u.spov = t.spov ∧ u.dqb = t.dqb ∧ u.dql = t.dql ∧ u.dqHead = t.dqHead ∧ u.dqCount = t.dqCount ∧ u.mprog = t.mprog ∧ u.yreq = t.yreq ∧
  u.qfmt = t.qfmt ∧ u.zexp = t.zexp ∧ u.zpw = t.zpw ∧ u.bins = t.bins ∧ u.pb = t.pb ∧ u.raised = t.raised

/-! Scalar instructions. -/

/-- An instruction of two scalar sources (R65, R68): it pops or reads a, then b, and writes or pushes `f` of them to d. -/
def TwoSources (ins : Side → BitVec 6 → BitVec 6 → BitVec 6 → Instr) (f : Word64 → Word64 → Word64) : Prop :=
  ∀ (s : State) (d : Side) (fd fa fb : BitVec 6) (x y : Word64) (s1 s2 s3 : State),
    wellFormed (ins d fd fa fb) = true → s.readOp s.cur d fa = .ok (x, s1) → s1.readOp s.cur d fb = .ok (y, s2) →
    s2.writeOp s.cur d fd (f x y) = .ok s3 → Runs (ins d fd fa fb) s (s3.retire s.cur d)

/-- An instruction of one scalar source (R65): it pops or reads a, and writes or pushes `f` of it to d. -/
def OneSource (ins : Side → BitVec 6 → BitVec 6 → Instr) (f : Word64 → Word64) : Prop :=
  ∀ (s : State) (d : Side) (fd fa : BitVec 6) (x : Word64) (s1 s2 : State),
    wellFormed (ins d fd fa) = true → s.readOp s.cur d fa = .ok (x, s1) → s1.writeOp s.cur d fd (f x) = .ok s2 →
    Runs (ins d fd fa) s (s2.retire s.cur d)

/-- The destination field of an instruction of the scalar block, with its side. -/
def scalarDest : Instr → Option (Side × BitVec 6)
  | .add d fd _ _ | .sub d fd _ _ | .and d fd _ _ | .or d fd _ _ | .xor d fd _ _ | .sll d fd _ _ | .srl d fd _ _ | .sra d fd _ _
  | .mul d fd _ _ | .mulh d fd _ _ | .mulhu d fd _ _ | .slt d fd _ _ | .sltu d fd _ _ | .seq d fd _ _ | .sne d fd _ _
  | .min d fd _ _ | .max d fd _ _ | .minu d fd _ _ | .maxu d fd _ _ | .sel d fd _ _ => some (d, fd)
  | .clz d fd _ => some (d, fd)
  | .addi d fd _ _ | .andi d fd _ _ | .ori d fd _ _ | .xori d fd _ _ | .slti d fd _ _ | .sltiu d fd _ _ => some (d, fd)
  | .slli d fd _ _ | .srli d fd _ _ | .srai d fd _ _ => some (d, fd)
  | .bfx d fd _ _ _ | .bfxs d fd _ _ _ => some (d, fd)
  | .movi d fd _ => some (d, fd)
  | .movhi d fd _ _ => some (d, fd)
  | .cycrd d fd => some (d, fd)
  | .rds d fd _ => some (d, fd)
  | _ => none

/-- The system registers of R272 with the value that a task on the machine's present core reads (R275). -/
def sysTable : List (Nat × (State → Word64)) :=
  let t (s : State) := s.task s.cur
  let p (s : State) := s.partOf (s.task s.cur).part
  [(0x000, fun s => (t s).partw.setWidth 64), (0x001, fun s => (t s).slipw.setWidth 64), (0x002, fun s => (t s).stat.setWidth 64),
   (0x003, fun s => (t s).tks.setWidth 64), (0x004, fun s => (t s).vst.setWidth 64), (0x005, fun s => (t s).zst.setWidth 64),
   (0x006, fun s => s.cyc), (0x007, fun s => (t s).record.w0 &&& 0x3FFFFFFFFFFFFFFF#64), (0x008, fun s => (t s).yreq.setWidth 64),
   (0x009, fun s => (p s).ydl.setWidth 64), (0x00A, fun s => (p s).age.setWidth 64), (0x00B, fun s => (p s).migt.setWidth 64),
   (0x00C, fun s => (p s).colt.setWidth 64), (0x00D, fun s => (p s).anqt.setWidth 64), (0x00E, fun s => (p s).lbud.setWidth 64),
   (0x00F, fun s => (t s).mprog.setWidth 64), (0x010, fun s => (t s).doms.setWidth 64),
   (0x011, fun s => (t s).dqb.setWidth 64), (0x012, fun s => (t s).dql.setWidth 64),
   (0x013, fun s => BitVec.ofNat 64 ((t s).dqHead.toNat * 2 ^ 32 + (t s).dqCount.toNat)),
   (0x014, fun s => (t s).spk.setWidth 64), (0x015, fun s => (t s).spov.setWidth 64),
   (0x016, fun s => match s.kernel (t s).kid with | some k => k.constVa | none => 0#64),
   (0x017, fun s => match s.kernel (t s).kid with | some k => BitVec.ofNat 64 k.constLen | none => 0#64)]
  ++ (List.range 6).map (fun j => (0x018 + j, fun s => ((s.hmask[s.cur / 64]?.getD hmaskDefault)[j]?.getD 0#64)))
  ++ (List.range 8).map (fun n => (0x020 + n, fun s => ((t s).qfmt[n]?.getD 0#8).setWidth 64))
  ++ (List.range 8).map (fun n => (0x028 + n, fun s => if n < pwTiles (t s).partw then ((t s).zpw[n]?.getD 0x077#9).setWidth 64 else 0#64))
  ++ (List.range 8).map (fun n => (0x030 + n, fun s => if n < pwTiles (t s).partw then ((t s).zexp[n]?.getD 0#16).setWidth 64 else 0#64))

/-- The pool address of the slot that the next push of queue `n` of a core enters. -/
def pushSlot (s : State) (c n : Nat) : Nat :=
  let t := s.task c
  poolBase c + slotOff t.partw n (((t.queue n).head + (t.queue n).occ) % pwDepth t.partw)

/-- Of the kernels only one changes, and of it only the record area, the count of dropped records and the death in progress. -/
def KernelsKept (kid : Nat) (s t : State) : Prop :=
  (∀ k, k ≠ kid → NMap.get t.kernels k = NMap.get s.kernels k) ∧
  ∃ area dropped dying, NMap.get t.kernels kid = (NMap.get s.kernels kid).map (fun x => { x with area := area, dropped := dropped, dying := dying })

/-- Nothing outside the present core changes but memory, scrubber flags and its own kernel's record area, dropped count and death. -/
def OwnCoreOnly (s t : State) : Prop := SameOutside s t ∧ KernelsKept (s.task s.cur).kid s t ∧ ∀ c, c ≠ s.cur → t.core c = s.core c

/-- Other cores change in nothing but which of their pools' lines are marked as written. -/
def OthersMarked (s t : State) : Prop := ∀ c, c ≠ s.cur → t.core c = { s.core c with written := (t.core c).written }

/-- Words of control, WRS, flags and the commands that only enter the matrix queue: they change no register and no byte of memory. The
answer is whether the word may change the task's flags. -/
def controlWord : Instr → Option Bool
  | .bpa .. | .bpx .. | .jmpi .. | .b .. | .brx .. | .bra .. | .ychk .. | .ret | .loop .. | .loopS .. | .loopA .. | .wrs .. | .prec .. | .mclr ..
  | .histClr | .histRd .. => some false
  | .ewait .. | .ewaitX .. | .esig .. | .esigX .. => some true
  | _ => none

/-- Words of the engines: they change no memory but where pending stores go home, with the stream that they may bind or drop. -/
def engineWord : Instr → Option (Option (BitVec 4))
  | .sbind u .. | .sdrop u => some (some u)
  | .copy .. | .collRed .. | .collAr .. | .collGat .. | .collBc .. | .mmul .. | .mmuls .. | .mld .. | .mst .. | .mstQ .. => some none
  | _ => none

/-- Words of deferral: the vector registers, first and last, and the lane register that they may write; the mask that they may write. -/
def deferWord : Instr → Option (List Nat × Option (BitVec 3))
  | .defer _ _ m => some ([], some m)
  | .drain d n l => some (l.toNat :: (List.range (n.toNat + 1)).map (fun f => d.toNat + f), none)
  | .drainF d n l m => some (l.toNat :: (List.range (n.toNat + 1)).map (fun f => d.toNat + f), some m)
  | _ => none

/-- Steps of agents outside the cores that touch no core and no byte of memory. -/
def deskEvent : Instr → Bool
  | .entryHeld .. | .entryKill .. | .entryFreed .. | .pwcInvalidate .. | .hmaskSet .. | .dlbWrite .. | .dltWrite .. | .dlxClear .. | .scrubRead ..
  | .queueTailWrite .. | .packetRead .. | .queueReset .. | .runStart .. | .runEnd .. | .loopNodePass .. | .conditionalNodeRead ..
  | .recordCopy .. | .eventRingDrain .. | .tenantSliceOpen .. | .quotaWindow .. | .reschedule .. | .clockCommand .. | .clockChange
  | .thermalRecovery .. | .lockedClockEnter | .lockedClockLeave | .commit | .attestationReport .. | .heartbeat .. | .checkpoint ..
  | .verifyComplete | .recoveryImage .. | .entryToActive .. | .stololayrWake .. | .wakeRegisterWrite .. | .advertisement .. | .promotion .. => true
  | _ => false

/-- Steps of a task's engines and of its accesses. -/
def engineEvent : Instr → Bool
  | .pendingEntryDrain .. | .loadReadStep .. | .loadDataArrival .. | .atomicStep .. | .vectorAtomicLaneStep .. | .chainStart .. | .chainCopy ..
  | .copyTransaction .. | .chainLoop .. | .chainCond .. | .chainSignal .. | .chainWait .. | .chainEnd .. | .setterTakesEffect ..
  | .arrayCommandStart .. | .arrayStep .. | .arrayCommandEnd .. | .precAtHead .. | .mclrAtHead .. | .mldAtHead .. | .mstAtHead ..
  | .mstElementPush .. | .histClrAtHead .. | .histRdAtHead .. | .count .. | .contribution .. | .collectiveCompletion .. => true
  | _ => false

/-- What only a task's own words give a new value: its s- and k-registers, masks and the system registers that software writes. -/
def SameByWords (t u : Task) : Prop :=
  u.sr = t.sr ∧ u.m = t.m ∧ u.k = t.k ∧ u.partw = t.partw ∧ u.doms = t.doms ∧ u.slipw = t.slipw ∧ u.qfmt = t.qfmt ∧ u.zexp = t.zexp ∧
  u.spk = t.spk ∧ u.spov = t.spov ∧ u.dqHead = t.dqHead ∧ u.dqCount = t.dqCount

/-! System registers. -/

/-- The numbers that WRS may name on a side (R271, R272). -/
def sysWritable (d : Side) (r : Nat) : Prop :=
  (1 ≤ r ∧ r ≤ 5) ∨ (r = 0x13 ∧ d = .x) ∨ r = 0x14 ∨ r = 0x15 ∨ (0x20 ≤ r ∧ r ≤ 0x23 ∧ d = .x) ∨ (0x24 ≤ r ∧ r ≤ 0x27 ∧ d = .a) ∨
  (0x30 ≤ r ∧ r ≤ 0x37)

/-- The values that QFMT and DQC take (R26, R122); every other register takes any. -/
def sysLegal (w : BitVec 22) (r : Nat) (x : Word64) : Prop :=
  (0x20 ≤ r → r ≤ 0x27 → x.toNat % 16 ≤ 8 ∧ x.toNat / 16 % 16 ≤ 8 ∧ (x.toNat % 16 = 0 ↔ x.toNat / 16 % 16 = 0)) ∧
  (r = 0x13 → (x.toNat / 2 ^ 32 % 2 ^ 17 < dqCap w ∨ (dqCap w = 0 ∧ x.toNat / 2 ^ 32 % 2 ^ 17 = 0)) ∧ x.toNat % 2 ^ 17 ≤ dqCap w)

/-- A write of ZEXPn waits while a command on tile n is queued (R103). -/
def sysFree (t : Task) (r : Nat) : Prop :=
  ∀ n, r = 0x30 + n → n < 8 → pwTiles t.partw ≤ n ∨ ∀ m ∈ t.mq, m.op.onTile n = false

/-- The value that a recorded WRS gives register `r`. -/
def wrote (w : Option (Nat × Word64)) (r : Nat) : Option Word64 :=
  match w with
  | some (n, x) => if n = r then some x else none
  | none => none

/-! Control. -/

/-- The conditions of R41: EQZ, NEZ, LTZ, GEZ, GTZ, LEZ. -/
def condition (cc : BitVec 6) (x : Word64) : Prop :=
  (cc = 0#6 ∧ x = 0#64) ∨ (cc = 1#6 ∧ x ≠ 0#64) ∨ (cc = 2#6 ∧ x.toInt < 0) ∨ (cc = 3#6 ∧ 0 ≤ x.toInt) ∨ (cc = 4#6 ∧ 0 < x.toInt) ∨
  (cc = 5#6 ∧ x.toInt ≤ 0)

/-- A conditional branch of one sequencer (R74): taken to the offset from itself, else on to the next own word. -/
def PrivateBranch (ins : BitVec 6 → BitVec 6 → BitVec 12 → Instr) (d : Side) : Prop :=
  ∀ (s t : State) (fd cc : BitVec 6) (off : BitVec 12) (x : Word64), wellFormed (ins fd cc off) = true →
    s.readOp s.cur d fd = .ok (x, t) →
    (condition cc x → Runs (ins fd cc off) s (t.retireTo s.cur d ((s.seq s.cur d).pc + off.signExtend 32).toNat)) ∧
    (¬condition cc x → Runs (ins fd cc off) s (t.retire s.cur d))

/-- A side's branch-outcome queue with one more entry, not visible in this cycle (R24, R29). -/
def pushedOutcome (s : State) (d : Side) (v : BitVec 32) : State :=
  s.setSeq s.cur d { s.seq s.cur d with bq := (s.seq s.cur d).bq ++ [v], bqFresh := (s.seq s.cur d).bqFresh + 1 }

/-- A side's branch-outcome queue without its oldest entry. -/
def poppedOutcome (s : State) (d : Side) : State :=
  s.setSeq s.cur d { s.seq s.cur d with bq := (s.seq s.cur d).bq.drop 1 }

/-- A branch that both sequencers follow (R29, R77): the owner evaluates and pushes the outcome, the other pops it; both count a mark. -/
def SharedBranch (ins : Instr) (owner : Side) (holds : State → Prop) (off : BitVec 32) : Prop :=
  ∀ s : State, wellFormed ins = true →
    (s.side = owner → (s.seq s.cur owner).bq.length < 64 →
      (holds s → Runs ins s ((pushedOutcome s owner 1#32).retireTo s.cur owner ((s.seq s.cur owner).pc + off).toNat true)) ∧
      (¬holds s → Runs ins s ((pushedOutcome s owner 0#32).retire s.cur owner true))) ∧
    (∀ (d : Side) (v : BitVec 32) (rest : List (BitVec 32)), s.side = d → d ≠ owner → (s.seq s.cur owner).bq = v :: rest →
      (s.seq s.cur owner).bqFresh < rest.length + 1 →
      (v = 1#32 → Runs ins s ((poppedOutcome s owner).retireTo s.cur d ((s.seq s.cur d).pc + off).toNat true)) ∧
      (v ≠ 1#32 → Runs ins s ((poppedOutcome s owner).retire s.cur d true)))

/-- The task's body of a loop that ends at word `e` holds no word of a side (R81). -/
def emptyBody (s : State) (d : Side) (e : Nat) : Prop :=
  ∃ k, s.kernel (s.task s.cur).kid = some k ∧ e < s.ownFrom k d ((s.seq s.cur d).pc.toNat + 1)

/-- A loop of `n` passes set up over `t` by a side whose LOOP word ends its body `e` words on (R80, R81, R82). -/
def LoopSet (ins : Instr) (d : Side) (s t : State) (l : Nat) (n : BitVec 32) (e : Nat) : Prop :=
  (n ≠ 0#32 → ¬emptyBody t d ((t.seq t.cur d).pc.toNat + e) →
    Runs ins s ((t.setSeq t.cur d { t.seq t.cur d with
      lc := (t.seq t.cur d).lc.setIfInBounds l ⟨n, (t.seq t.cur d).pc + 1#32, BitVec.ofNat 32 ((t.seq t.cur d).pc.toNat + e), true⟩,
      order := l :: (t.seq t.cur d).order.filter (fun m => m != l) }).retire t.cur d true)) ∧
  (n ≠ 0#32 → emptyBody t d ((t.seq t.cur d).pc.toNat + e) →
    Runs ins s ((t.setSeq t.cur d ((t.seq t.cur d).dropLoops [l])).retire t.cur d true)) ∧
  (n = 0#32 → Runs ins s (((t.setSeq t.cur d ((t.seq t.cur d).dropLoops [l])).completed t.cur d true).fallFrom t.cur d
    ((t.seq t.cur d).pc.toNat + e)))

/-- The trip count that a register gives (R81). -/
def trips (v : Word64) : BitVec 32 := BitVec.ofInt 32 (max 0 (min v.toInt (2 ^ 32 - 1)))

/-- A LOOP whose count stands in a register of its owner (R29, R80, R81). -/
def RegisterLoop (ins : BitVec 6 → BitVec 6 → BitVec 12 → Instr) (owner : Side) (reg : Task → Nat → Word64) : Prop :=
  ∀ (s : State) (l r : BitVec 6) (e : BitVec 12), wellFormed (ins l r e) = true →
    (s.side = owner → (owner = .a → (s.task s.cur).await r.toNat = .none) → (s.seq s.cur owner).bq.length < 64 →
      LoopSet (ins l r e) owner s (pushedOutcome s owner (trips (reg (s.task s.cur) r.toNat))) l.toNat
        (trips (reg (s.task s.cur) r.toNat)) e.toNat) ∧
    (∀ (d : Side) (v : BitVec 32) (rest : List (BitVec 32)), s.side = d → d ≠ owner → (s.seq s.cur owner).bq = v :: rest →
      (s.seq s.cur owner).bqFresh < rest.length + 1 →
      LoopSet (ins l r e) d s (poppedOutcome s owner) l.toNat v e.toNat)

/-- An instruction raises a trap with no effect of its own. -/
abbrev Traps (i : Instr) (d : Side) (cause : BitVec 8) (s : State) : Prop := Runs i s (s.takeTrap s.cur d cause)

/-- Spilled entries of a sequencer that its return area holds (R154). -/
def areaHolds (t : Task) : Nat := if pwSpill t.partw = 0 then 0 else 2048

/-- The offset through SPK of spilled entry `n` of a side, where the area does not hold it (R154). -/
def overflowAt (t : Task) (d : Side) (n : Nat) : Nat := t.spov.toNat / 8 * 8 + 8 * (n - areaHolds t) + (if d = .a then 0 else 4)

/-- What stops a CALL or RET whose overflow access is held, stands at the in-flight bound, or has a byte that its token does not reach
(R79, R154, R161, R165). -/
def OverflowStops (ins : Instr) (s : State) (check : Checked) : Prop :=
  let q := s.seq s.cur s.side
  let t := s.task s.cur
  (check = .held → Runs ins s (s.setSeq s.cur s.side { q with blocked := false, held := some (t.ctx, handleIndex t.spk) })) ∧
  (∀ i b, check = .done (some i) 4 b → 2 ^ 19 - 1 ≤ (s.entry t.ctx i).infl → Runs ins s (s.setSeq s.cur s.side { q with blocked := false })) ∧
  (∀ i m b, check = .done i m b → i = none ∨ m ≠ 4 → Traps ins s.side 0x06#8 s)

/-! Accesses to memory. -/

/-- A handle of the task on a core reaches entry `e` (R85): active, of the handle's generation, permitting the access, and below the
in-flight bound of R161. -/
def Reaches (s : State) (c : Nat) (h : Word32) (wr : Bool) (e : Nat) : Prop :=
  let x := s.entry (s.task c).ctx e
  e = handleIndex h ∧ e ≠ 0 ∧ s.inTable (s.task c).ctx e = true ∧ x.gen = handleGen h ∧ x.state = .active ∧ (wr = true → x.w = true) ∧
  x.infl < 2 ^ 19 - 1

/-- Bytes of an access of `n` at an offset that lie inside the extent (R85). -/
def inside (s : State) (c e off n : Nat) : Nat := min n ((s.entry (s.task c).ctx e).len - off)

/-- TKS.OOB where an access reaches beyond the extent. -/
def oobBit (s : State) (c e off n : Nat) : BitVec 6 := if inside s c e off n < n then 1#6 else 0#6

/-- What an A memory word needs besides its operands (R189, R202): legal, and no vector atomic with lanes to step. -/
def MemReady (s : State) (i : Instr) (k : BitVec 4) : Prop :=
  wellFormed i = true ∧ (s.task s.cur).vatom = none ∧ (s.task s.cur).awaitsName k = false

/-- A load's destination can take it (R87): the register awaits nothing, or the queue has a slot. -/
def DestReady (s : State) (d : BitVec 6) : Prop :=
  (d.toNat < 32 → (s.task s.cur).await d.toNat = .none ∨ (s.task s.cur).await d.toNat = .error) ∧
  (32 ≤ d.toNat → ((s.task s.cur).queue (d.toNat - 32)).occ + ((s.task s.cur).queue (d.toNat - 32)).freed < pwDepth (s.task s.cur).partw)

/-- A load put in flight (R87, R175): the register awaits it, or the slot at the tail is reserved; the parts `todo` are still to be read,
and the entry counts one access more. -/
def inFlight (s : State) (ent : Option Nat) (todo : List Piece) (d : BitVec 6) (slow : Bool) : State :=
  let c := s.cur
  let t := s.task c
  let q := t.queue (d.toNat - 32)
  let slot := (q.head + q.occ) % pwDepth t.partw
  let u := if d.toNat < 32 then s.modTask c (·.setAwait d.toNat .load)
    else s.setTask c (t.setQueue (d.toNat - 32)
      { q with occ := q.occ + 1, awaiting := q.awaiting ++ [slot], g := (q.g + 1) % t.narrow (d.toNat - 32) })
  let f : LoadFlight := ⟨u.fresh, ent, todo, 0#32768, if d.toNat < 32 then .areg d.toNat else .slot (d.toNat - 32) slot, slow⟩
  let u := u.modTask c (fun t => { t with loads := t.loads ++ [f] })
  let u := { u with fresh := u.fresh + 1 }
  match ent with
  | some e => u.setEntry (u.task c).ctx e { u.entry (u.task c).ctx e with infl := (u.entry (u.task c).ctx e).infl + 1 }
  | none => u

/-- The class as which accesses of the task on a core through entry `e` are timed (R192, R289): its CLASS, or 3 where its frames
lie on another package. -/
def timed (s : State) (c e : Nat) : Nat :=
  let x := s.entry (s.task c).ctx e
  if (x.origin = .translated ∧ ∃ f ∈ x.frames, Config.remoteBase ≤ f.phys) ∨ (x.origin = .anonymous ∧ Config.remoteBase ≤ x.base) then 3
  else x.cls

/-- A load of `n` bytes (R85, R86, R192, R197, R289): it goes into flight over the bytes inside; a null handle reads nothing and sets
TKS.DEAD, its data zero. Where `holds`, an entry timed as CLASS 2 or 3 sets STAT.SLOW and holds A. -/
def Loads (ins : BitVec 4 → BitVec 6 → BitVec 6 → BitVec 8 → Instr) (offset : BitVec 8 → Word64 → Nat) (n : Nat) (holds : Bool) : Prop :=
  ∀ (s : State) (k : BitVec 4) (d o : BitVec 6) (i : BitVec 8), MemReady s (ins k d o i) k → (s.task s.cur).await o.toNat = .none →
    DestReady s d →
    let off := offset i ((s.task s.cur).areg o.toNat)
    let h := (s.task s.cur).kreg k
    (∀ e, Reaches s s.cur h false e →
      let t := s.addTks s.cur (oobBit s s.cur e off n)
      let slow := holds && decide (2 ≤ timed s s.cur e)
      let u := if slow then t.addStat s.cur 1#7 else t
      Runs (ins k d o i) s ((inFlight u (some e) (u.pieces (u.task s.cur).ctx e off (inside s s.cur e off n)) d slow).retire s.cur .a)) ∧
    (handleIndex h = 0 → Runs (ins k d o i) s ((inFlight (s.addTks s.cur 8#6) none [] d false).retire s.cur .a))

/-- The pending entries of the parts of a store (R174): byte `i` of the data goes to the address that a part gives index `i`. -/
def entriesOf (s : State) (c e : Nat) (ps : List Piece) (data : Nat) : List Store :=
  let ctx := (s.task c).ctx
  ps.map (fun p =>
    ⟨p.row, p.bytes.map (fun b => (b.2, BitVec.ofNat 8 (data / 2 ^ (8 * b.1)))), (s.entry ctx e).priv, ctx, e, s.fresh, none⟩)

/-- Rows that share a stored byte (R153, R173) (log 26). -/
def Meet (r q : Row) : Prop := ∃ x ∈ r, ∃ y ∈ q, x.1 < y.2 ∧ y.1 < x.2

/-- Nothing holds a store back at a row (R88, R190, R253): no earlier load of it through any token, and no earlier atomic, has a step to take;
`n` is the store's number. -/
def StoreFree (t : Task) (r : Row) (n : Nat) : Prop :=
  (∀ l ∈ t.loads, l.acc < n → ∀ p ∈ l.todo, ¬Meet p.row r) ∧ (∀ a ∈ t.atomics, a.acc < n → ∀ p ∈ a.parts, ¬Meet p.row r) ∧
  ∀ v, t.vatom = some v → v.acc < n → ∀ l ∈ v.lanes, ∀ p ∈ l.1, ¬Meet p.row r

/-- A write through entry `e` past step 4 of R189: it takes an access number and counts in INFL (R161). -/
def counted (s : State) (c e : Nat) : State :=
  let ctx := (s.task c).ctx
  let u := { s with fresh := s.fresh + 1 }
  u.setEntry ctx e { u.entry ctx e with infl := (u.entry ctx e).infl + 1 }

/-- Pages of the ranges of a write logged one after another (R170): the state `v` after as many as the ring takes, and what is left. -/
abbrev Logs (s : State) (c e : Nat) (l : List (Nat × Nat)) (v : State) (left : List (Nat × Nat)) : Prop :=
  s.logRanges (s.task c).part c (s.task c).ctx e l = .ok (v, left)

/-- Where a write of A's word stands once the ring has taken what it can (R189): with nothing left it takes its place, `f`, and the word
completes; else the word stays, and owes the rest. -/
def owing (v : State) (c n e : Nat) (left : List (Nat × Nat)) (w : OwedWrite) (f : Task → Task) : State :=
  if left = [] then (v.modTask c (fun t => f { t with owed := none })).retire c .a
  else
    let u := v.modTask c (fun t => { t with owed := some ⟨n, e, left, w⟩ })
    u.setSeq c .a { u.seq c .a with blocked := false }

/-- A word that owes a write goes on with it at its next issue, and does nothing else (R189). -/
def PaysOwed (ins : Instr) : Prop :=
  ∀ (s v : State) (o : Owed) (left : List (Nat × Nat)), wellFormed ins = true → (s.task s.cur).owed = some o → Logs s s.cur o.ent o.todo v left →
    Runs ins s (owing v s.cur o.acc o.ent left o.write (match o.write with
      | .stores es => fun t => { t with stores := t.stores ++ es }
      | .atomic f => fun t => { t with atomics := t.atomics ++ [f] }.setAwait f.d .load
      | .vatom f => fun t => { t with vatom := some f }
      | .join _ => fun t => t))

/-- A store of CLASS 3 sets STAT.SLOW (R192, R289); where it appends anything, it holds A until the port has its rows (log 71): the store's
number is `n`. -/
def slowly (s : State) (c n : Nat) (slow appends : Bool) : State :=
  if slow then (s.addStat c 1#7).modTask c (fun t => { t with port := if appends then some n else t.port }) else s

/-- What a store comes to over `t`, its operands read (R85, R88, R174, R190, R253, R306): entries in the pending set for the bytes inside, the
pages logged; nothing where no byte lies inside, or through a null handle, but TKS; in a wake window a whole scalar store rings, any other
sets TKS.PERM. -/
def StoresOver (ins : Instr) (s t : State) (h : Word32) (off n data : Nat) (scalar : Bool) (holds : Bool) : Prop :=
  (∀ (e : Nat) (v : State) (left : List (Nat × Nat)), Reaches t s.cur h true e →
    let m := inside t s.cur e off n
    let u := slowly (t.addTks s.cur (oobBit t s.cur e off n)) s.cur s.fresh (holds && timed t s.cur e == 3) true
    let ps := u.pieces (u.task s.cur).ctx e off m
    u.inWakeWindow s.cur e off m = false → ps ≠ [] → (∀ p ∈ ps, StoreFree (u.task s.cur) p.row u.fresh) → Logs (counted u s.cur e) s.cur e [(off, m)] v left →
    Runs ins s (owing v s.cur u.fresh e left (.stores (entriesOf u s.cur e ps data))
      (fun t => { t with stores := t.stores ++ entriesOf u s.cur e ps data }))) ∧
  (∀ e : Nat, Reaches t s.cur h true e →
    let m := inside t s.cur e off n
    let u := slowly (t.addTks s.cur (oobBit t s.cur e off n)) s.cur s.fresh (holds && timed t s.cur e == 3) false
    u.inWakeWindow s.cur e off m = true → u.pieces (u.task s.cur).ctx e off m ≠ [] → ¬(scalar = true ∧ m = 8) →
    Runs ins s ((u.addTks s.cur 2#6).retire s.cur .a)) ∧
  (∀ e : Nat, Reaches t s.cur h true e → inside t s.cur e off n = 0 →
    Runs ins s ((slowly (t.addTks s.cur (oobBit t s.cur e off n)) s.cur s.fresh (holds && timed t s.cur e == 3) false).retire s.cur .a)) ∧
  (handleIndex h = 0 → Runs ins s ((t.addTks s.cur 8#6).retire s.cur .a))

/-- A scalar atomic (R200): its step goes into flight, its register awaiting the old value; through a null handle, in a wake window or with
bytes outside, the result is 0 and no step is taken. An entry timed as CLASS 3 sets STAT.SLOW in each of these cases (R192). -/
def Atomic (ins : BitVec 4 → BitVec 6 → BitVec 6 → BitVec 1 → BitVec 7 → Instr) (op : AOp) : Prop :=
  ∀ (s : State) (k : BitVec 4) (d o : BitVec 6) (z : BitVec 1) (i : BitVec 7), MemReady s (ins k d o z i) k →
    (s.task s.cur).owed = none → (s.task s.cur).await o.toNat = .none → (s.task s.cur).await d.toNat = .none →
    (op = .cas → (s.task s.cur).await (d.toNat + 1) = .none) →
    let t := s.task s.cur
    let n := if z = 1#1 then 4 else 8
    let off := ((t.areg o.toNat).toNat + 8 * i.toNat) % 2 ^ 64 / n * n
    let h := t.kreg k
    (∀ (e : Nat) (v : State) (left : List (Nat × Nat)), Reaches s s.cur h true e → inside s s.cur e off n = n →
      let u := s.addTks s.cur 0#6
      u.inWakeWindow s.cur e off n = false →
      let slow := timed s s.cur e == 3
      let f : AtomicFlight := ⟨s.fresh, e, u.pieces t.ctx e off n, op, n, t.areg d.toNat,
        if op = .cas then t.areg (d.toNat + 1) else 0#64, d.toNat, slow⟩
      Logs (counted (if slow then u.addStat s.cur 1#7 else u) s.cur e) s.cur e [(off, n)] v left →
      Runs (ins k d o z i) s (owing v s.cur s.fresh e left (.atomic f)
        (fun t => { t with atomics := t.atomics ++ [f] }.setAwait d.toNat .load))) ∧
    (∀ e : Nat, Reaches s s.cur h true e → inside s s.cur e off n = n →
      let u := s.addTks s.cur 0#6
      u.inWakeWindow s.cur e off n = true →
      Runs (ins k d o z i) s ((((slowly u s.cur 0 (timed s s.cur e == 3) false).addTks s.cur 2#6).modTask s.cur (·.setAreg d.toNat 0#64)).retire s.cur .a)) ∧
    (∀ e : Nat, Reaches s s.cur h true e → inside s s.cur e off n < n →
      Runs (ins k d o z i) s (((slowly (s.addTks s.cur 1#6) s.cur 0 (timed s s.cur e == 3) false).modTask s.cur (·.setAreg d.toNat 0#64)).retire s.cur .a)) ∧
    (handleIndex h = 0 →
      Runs (ins k d o z i) s (((s.addTks s.cur 8#6).modTask s.cur (·.setAreg d.toNat 0#64)).retire s.cur .a))

/-- The lanes of a gather, scatter or vector atomic: lane and offset; an offset of all ones is a lane skipped (R191). -/
def takingPart (offs : Image) (l o : Nat) : Prop :=
  l < 1024 ∧ o = offs.toNat / 2 ^ (32 * l) % 2 ^ 32 / 4 * 4 ∧ offs.toNat / 2 ^ (32 * l) % 2 ^ 32 ≠ 0xFFFFFFFF

/-- A vector atomic (R201): lanes whose four bytes are inside go into flight in ascending order; with none, only the status is set, and so
through a null handle. -/
def VectorAtomic (ins : BitVec 4 → BitVec 6 → BitVec 6 → Instr) (op : AOp) (fp : Bool) : Prop :=
  ∀ (s t u : State) (k : BitVec 4) (d o : BitVec 6) (data offs : Image), MemReady s (ins k d o) k → (s.task s.cur).owed = none →
    s.popVector s.cur (d.toNat - 32) = .ok (data, t) → t.popVector s.cur (o.toNat - 32) = .ok (offs, u) →
    let h := (s.task s.cur).kreg k
    let r := u.checkLanes s.cur h true (lanesOf offs)
    let l := r.1.filter (fun x => x.2.2.1 == 4)
    (∀ (e : Nat) (v : State) (left : List (Nat × Nat)), Reaches u s.cur h true e →
      let slow := timed u s.cur e == 3
      let w := u.addTks s.cur r.2
      let w := if slow then w.addStat s.cur 1#7 else w
      (∀ x ∈ l, w.inWakeWindow s.cur e x.2.1 4 = false) →
      (l = [] → Runs (ins k d o) s (w.retire s.cur .a)) ∧
      (l ≠ [] →
        let f : VatomFlight := ⟨w.fresh, e, l.map (fun x => (w.lanePieces s.cur e x.2.1 4 0, BitVec.ofNat 32 (data.toNat / 2 ^ (32 * x.1)))),
          op, fp, slow⟩
        Logs (counted w s.cur e) s.cur e (l.map (fun x => (x.2.1, x.2.2.1))) v left →
        Runs (ins k d o) s (owing v s.cur w.fresh e left (.vatom f) (fun t => { t with vatom := some f })))) ∧
    (handleIndex h = 0 → Runs (ins k d o) s ((u.addTks s.cur r.2).retire s.cur .a))

/-- Instructions of A that name memory through a token (R86, R197 to R202), with the register that they may write at once. -/
def memoryWord : Instr → Option (Option (BitVec 6))
  | .lds .. | .ldv .. | .ldq .. | .ldg .. | .sts .. | .stv .. | .stq .. | .stg .. => some none
  | .aadd _ d .. | .amin _ d .. | .amax _ d .. | .aand _ d .. | .aor _ d .. | .axor _ d .. | .axchg _ d .. | .acas _ d .. => some (some d)
  | .vaadd .. | .vaor .. | .vamin .. | .vamax .. => some none
  | _ => none

/-- Addresses that logging a first write may change (R170, R321): the partition's dirty log ring, and the byte of a leaf that holds DIRTY. -/
def logBytes (s : State) (part a : Nat) : Prop :=
  let b := (s.partOf part).dlb
  (4096 * (b.toNat / 2 ^ 12 % 2 ^ 36) ≤ a ∧ a < 4096 * (b.toNat / 2 ^ 12 % 2 ^ 36) + 8 * 2 ^ (b.toNat % 32)) ∨
  ∃ x ∈ s.contexts, ∃ e ∈ x.2.pet, ∃ f ∈ e.2.frames, ∃ leaf, f.leaf = some leaf ∧ a = leaf + 1

/-! Tokens, engines and records. -/

/-- TRANS answers: its token register holds `h` after every earlier name, and `o` the granted length. -/
def transDone (s : State) (k : BitVec 4) (o : BitVec 6) (h : Word32) (g : Nat) : State :=
  (s.modTask s.cur (fun t => (t.writeK k h).setAreg o.toNat (BitVec.ofNat 64 g))).retire s.cur .a

/-- The value that TQRY gives of a valid handle's entry (R194). -/
def property (e : PetEntry) (sel : Nat) : Word64 :=
  match sel with
  | 0 => BitVec.ofNat 64 e.len
  | 1 => BitVec.ofNat 64 e.cls
  | 2 => BitVec.ofNat 64 e.tier
  | _ => BitVec.ofNat 64 (e.r.toNat + 2 * e.w.toNat + 4 * e.priv.toNat + 8 * e.cmp.toNat +
      16 * (match e.origin with | .translated => 0 | .anonymous => 1 | .scratchpad => 2))

/-- A matrix command on a tile, or on none, appended to the queue of the task on the present core with ZEXP of the tile (R103, R213, R242). -/
def queued (s : State) (z : Option Nat) (op : MOp) : State :=
  { s.modTask s.cur (fun t => { t with mq := t.mq ++ [⟨s.fresh, op, match z with | some z => t.zexp[z]?.getD 0#16 | none => 0#16⟩] }) with
    fresh := s.fresh + 1 }

/-- Every access before a wake entry of the pending set has taken its steps, so that the whole set may drain (R307). -/
def WakesDue (s : State) : Prop := ∀ e ∈ (s.task s.cur).stores, e.wake = none ∨ (s.task s.cur).busyBefore e.acc = false

/-- The chains of a task, on whichever core they run (R213, R262). -/
def chainsOn (s : State) (uid : Nat) : List Chain := s.cores.flatMap (fun x => x.2.chains.filter (fun h => h.uid == uid))

/-- A record of the task on a core pushed to the tail of its ring (R113, R144). -/
def pushed (s : State) (c : Nat) (r : Rec) : State :=
  (s.modTask c (fun t => { t with push := none })).pushRecord (s.task c).part (s.task c).ctx (c / 64) none r

/-- What a word of A on core `c` comes to that pushes a record over `t` (R112, R113, R144): it completes with the record in its ring, or stands
with the record held; a record that is not `ok` traps. -/
def Pushes (ins : Instr) (c : Nat) (s t : State) (r : Rec) (ok : Bool) : Prop :=
  (ok = true → t.pushRoom c r = true → Runs ins s ((pushed t c r).retire c .a)) ∧
  (ok = true → t.pushRoom c r = false →
    let u := t.modTask c (fun t => { t with push := some r })
    Runs ins s (u.setSeq c .a { u.seq c .a with blocked := false })) ∧
  (ok = false → Runs ins s (t.takeTrap c .a 0x11#8))

/-- The step of a JOIN on a join block over `u`, its access counted in INFL (R121, R161, R170, R189): a counter at or below zero sets
STAT.JNEG; else its page is logged, or owed, the counter falls at home, and at zero the record is pushed. -/
def JoinsOver (ins : Instr) (c : Nat) (s u : State) (e off : Nat) : Prop :=
  let img := u.readNow c e off 64
  let n : Word64 := img.setWidth 64
  (n.toInt ≤ 0 → Runs ins s (((u.joinHome c e).addStat c 8#7).retire c .a)) ∧
  (0 < n.toInt → ∀ (v : State) (left : List (Nat × Nat)), Logs u c e [(off, 8)] v left →
    (left ≠ [] →
      let w := v.modTask c (fun t => { t with owed := some ⟨u.fresh, e, left, .join off⟩ })
      Runs ins s (w.setSeq c .a { w.seq c .a with blocked := false })) ∧
    (left = [] →
      let w := (v.writeCells ((v.pieces (v.task c).ctx e off 8).flatMap (fun p => p.bytes.map (fun b =>
        (b.2, BitVec.ofNat 8 ((n - 1#64).toNat / 2 ^ (8 * b.1))))))).joinHome c e
      (n ≠ 1#64 → Runs ins s (w.retire c .a)) ∧ (n = 1#64 → Pushes ins c s w (recOf img 32) (u.recordOk (u.task c).ctx (recOf img 32)))))

/-- The matrix queue has room for one more, and PARTW grants the tile. -/
def MatrixReady (s : State) (z : BitVec 3) : Prop := z.toNat < pwTiles (s.task s.cur).partw ∧ (s.task s.cur).mq.length < 8

/-- MMUL or MMULS (R245): the operands popped, what is checked of streams, dimension word and lease. -/
def Mmul (ins : BitVec 3 → BitVec 4 → BitVec 4 → BitVec 6 → Instr) (sparse : Bool) : Prop :=
  ∀ (s u : State) (z : BitVec 3) (a b : BitVec 4) (r : BitVec 6) (x : Word64), wellFormed (ins z a b r) = true → MatrixReady s z →
    s.readOp s.cur .x r = .ok (x, u) →
    let t := u.task s.cur
    let A := StreamDesc.ofBits (t.stream a.toNat).desc
    let B := StreamDesc.ofBits (t.stream b.toNat).desc
    let bound := (t.stream a.toNat).bound = true ∧ (t.stream b.toNat).bound = true ∧ A.dir = false ∧ B.dir = false
    let agree := A.sparse = sparse ∧ B.sparse = false ∧ (sparse = true → A.fmt = 9)
    let dim := x.toNat % 2 ^ 8 ≤ 128 ∧ x.toNat / 2 ^ 8 % 2 ^ 8 ≤ 128 ∧ x.toNat / 2 ^ 16 % 2 ^ 21 ≤ 2 ^ 20 ∧
      x.toNat / 2 ^ 16 % 2 ^ 21 % (if sparse then 64 else 32) = 0 ∧ x.toNat / 2 ^ 37 % 2 ^ 3 = 0 ∧ x.toNat / 2 ^ 41 = 0
    (bound → agree → dim → t.lease ≠ .none → WakesDue u →
      Runs (ins z a b r) s ((queued (u.drainAll s.cur) (some z.toNat) (.mmul sparse z.toNat a.toNat b.toNat x)).retire s.cur .x)) ∧
    (¬bound → Runs (ins z a b r) s (u.takeTrap s.cur .x 0x23#8)) ∧
    (bound → ¬agree → Runs (ins z a b r) s (u.takeTrap s.cur .x 0x25#8)) ∧
    (bound → agree → ¬dim → Runs (ins z a b r) s (u.takeTrap s.cur .x 0x32#8)) ∧
    (bound → agree → dim → t.lease = .none → Runs (ins z a b r) s (u.takeTrap s.cur .x 0x34#8))

/-- A collective's command is appended behind a drained pending set, its register awaiting the result (R213, R238). -/
def Coll (ins : BitVec 4 → BitVec 6 → BitVec 6 → Instr) (kind : Nat) : Prop :=
  ∀ (s : State) (u : BitVec 4) (a b : BitVec 6) (sc : Scope), wellFormed (ins u a b) = true → (s.task s.cur).await a.toNat = .none →
    (s.task s.cur).await b.toNat = .none ∨ (s.task s.cur).await b.toNat = .error → (s.task s.cur).cq.length < 4 → WakesDue s →
    [Scope.q, .t, .d, .p, .x][u.toNat]? = some sc →
    let t := (s.drainAll s.cur).modTask s.cur (·.setAwait b.toNat .engine)
    let k : CollCmd := ⟨t.fresh, sc, kind, (s.task s.cur).kreg 0#4,
      BitVec.ofNat 64 (((s.task s.cur).areg a.toNat).toNat / 64 * 64), b.toNat, none, false, none⟩
    Runs (ins u a b) s (({ t.modTask s.cur (fun t => { t with cq := t.cq ++ [k] }) with fresh := t.fresh + 1 } : State).retire s.cur .a)

/-- EWAIT on a side (R223, R239). -/
def Ewait (ins : BitVec 8 → Instr) (d : Side) : Prop :=
  ∀ (s : State) (f : BitVec 8),
    let t := s.task s.cur
    let x := t.flag f
    ((t.seq d).ewait = .idle → x.claimed ≠ x.pushed →
      let n := x.claimed + 1#32
      let c := t.setFlag f { x with claimed := n }
      let u := s.setTask s.cur (c.setSeq d { c.seq d with ewait := .claimed f n, blocked := false })
      (0 ≤ (x.done - n).toInt → Runs (ins f) s (u.retire s.cur d)) ∧ ((x.done - n).toInt < 0 → Runs (ins f) s u)) ∧
    (∀ n, (t.seq d).ewait = .claimed f n →
      (0 ≤ (x.done - n).toInt → Runs (ins f) s (s.retire s.cur d)) ∧
      ((x.done - n).toInt < 0 → Runs (ins f) s (s.setSeq s.cur d { s.seq s.cur d with blocked := false }))) ∧
    ((t.seq d).ewait = .idle → x.claimed = x.pushed → chainsOn s t.uid = [] → Traps (ins f) d 0x21#8 s) ∧
    ((t.seq d).ewait = .idle → x.claimed = x.pushed → chainsOn s t.uid ≠ [] →
      Runs (ins f) s { s.setSeq s.cur d { s.seq s.cur d with
        ewait := .holding f ((chainsOn s t.uid).map (·.id)) s.fresh, blocked := false } with fresh := s.fresh + 1 })

/-! Vector instructions. -/

/-- Lane `i` of an image (R21, R125). -/
def laneOf (img : Image) (i : Nat) : Word32 := img.extractLsb' (32 * i) 32
/-- The FP32 value of a lane (R124). -/
def laneVal (img : Image) (i : Nat) : Num.FVal := Num.decodeF Num.binary32 (laneOf img i).toNat

/-- The operands of a vector instruction are legal and granted, and its sources x and y come in the order va, vb (R22, R126). -/
def Sources2 (s : State) (i : Instr) (d a b : BitVec 6) (x y : Image) (s2 : State) : Prop :=
  wellFormed i = true ∧ (s.task s.cur).granted d = true ∧ (s.task s.cur).granted a = true ∧ (s.task s.cur).granted b = true ∧
  ∃ s1, s.srcV s.cur a = .ok (x, s1) ∧ s1.srcV s.cur b = .ok (y, s2)
/-- The same with one source. -/
def Sources1 (s : State) (i : Instr) (d a : BitVec 6) (x : Image) (s1 : State) : Prop :=
  wellFormed i = true ∧ (s.task s.cur).granted d = true ∧ (s.task s.cur).granted a = true ∧ s.srcV s.cur a = .ok (x, s1)

/-- An integer or bitwise form over packed elements of `w` bits (R125, R131 to R133), which sets no status. -/
def PackedForm (ins : BitVec 6 → BitVec 6 → BitVec 6 → BitVec 3 → Instr) (w : Nat) (f : BitVec w → BitVec w → BitVec w) : Prop :=
  ∀ (s s2 s3 : State) (d a b : BitVec 6) (m : BitVec 3) (x y img : Image), Sources2 s (ins d a b m) d a b x y s2 →
    (∀ j, w * j < 32768 → img.extractLsb' (w * j) w = f (x.extractLsb' (w * j) w) (y.extractLsb' (w * j) w)) →
    (s2.addVst s.cur .none).dstV s.cur d m img = .ok s3 → Runs (ins d a b m) s (s3.retire s.cur .x)

/-- The larger or the smaller of two elements read as signed. -/
def smaller {w : Nat} (x y : BitVec w) : BitVec w := if x.toInt ≤ y.toInt then x else y
/-- The larger of two elements read as signed. -/
def larger {w : Nat} (x y : BitVec w) : BitVec w := if x.toInt ≤ y.toInt then y else x
/-- A sum or difference saturated to a signed element (R91, R132). -/
def saturated (w : Nat) (v : Int) : BitVec w := BitVec.ofInt w (max (-(2 ^ (w - 1))) (min (2 ^ (w - 1) - 1) v))

/-- An image and the VST events of results lane by lane over the active lanes (R101, R126). -/
def LaneResults (act : Mask) (g : Nat → Nat × Num.Ev) (img : Image) (ev : Num.Ev) : Prop :=
  (∀ i, i < 1024 → laneOf img i = if act.getLsbD i then BitVec.ofNat 32 (g i).1 else 0#32) ∧
  (ev.sat = true ↔ ∃ i, i < 1024 ∧ act.getLsbD i = true ∧ (g i).2.sat = true) ∧
  (ev.inf = true ↔ ∃ i, i < 1024 ∧ act.getLsbD i = true ∧ (g i).2.inf = true) ∧
  (ev.nan = true ↔ ∃ i, i < 1024 ∧ act.getLsbD i = true ∧ (g i).2.nan = true)

/-- An FP32 form of two sources: the exact value rounded once (R93, R124, R128). -/
def FloatTwo (ins : BitVec 6 → BitVec 6 → BitVec 6 → BitVec 3 → Instr) (f : Num.FVal → Num.FVal → Num.FVal) : Prop :=
  ∀ (s s2 s3 : State) (d a b : BitVec 6) (m : BitVec 3) (x y img : Image) (ev : Num.Ev), Sources2 s (ins d a b m) d a b x y s2 →
    LaneResults ((s.task s.cur).mask m.toNat) (fun i => Num.fpEnc Num.binary32 (f (laneVal x i) (laneVal y i))) img ev →
    (s2.addVst s.cur ev).dstV s.cur d m img = .ok s3 → Runs (ins d a b m) s (s3.retire s.cur .x)

/-- An FP32 form of one source (R128, R130). -/
def FloatOne (ins : BitVec 6 → BitVec 6 → BitVec 3 → Instr) (f : Nat → Nat × Num.Ev) : Prop :=
  ∀ (s s1 s2 : State) (d a : BitVec 6) (m : BitVec 3) (x img : Image) (ev : Num.Ev), Sources1 s (ins d a m) d a x s1 →
    LaneResults ((s.task s.cur).mask m.toNat) (fun i => f (laneOf x i).toNat) img ev →
    (s1.addVst s.cur ev).dstV s.cur d m img = .ok s2 → Runs (ins d a m) s (s2.retire s.cur .x)

/-- VABS and VNEG: a NaN gives the canonical NaN; any other pattern keeps its bits but the sign (R128). -/
def signOp (g : Nat → Nat) (p : Nat) : Nat × Num.Ev :=
  if p / 2 ^ 23 % 2 ^ 8 = 255 then
    if p % 2 ^ 23 = 0 then (g p, ⟨false, true, false⟩) else (0x7FC00000, ⟨false, false, true⟩)
  else (g p, ⟨false, false, false⟩)

/-- A compare (R136): bit `i` of the destination mask for each active lane, the others kept. -/
def Compare (ins : BitVec 6 → BitVec 6 → BitVec 6 → BitVec 3 → Instr) (f : Word32 → Word32 → Bool) : Prop :=
  ∀ (s s1 s2 : State) (d a b : BitVec 6) (m : BitVec 3) (x y : Image) (r : Mask), wellFormed (ins d a b m) = true →
    (s.task s.cur).granted a = true → (s.task s.cur).granted b = true →
    s.srcV s.cur a = .ok (x, s1) → s1.srcV s.cur b = .ok (y, s2) →
    (∀ i, i < 1024 → r.getLsbD i = if ((s.task s.cur).mask m.toNat).getLsbD i then f (laneOf x i) (laneOf y i)
      else ((s.task s.cur).mask d.toNat).getLsbD i) →
    Runs (ins d a b m) s ((s2.modTask s.cur (·.setMask d.toNat r)).retire s.cur .x)

/-- The FP32 value of a pattern. -/
def val32 (p : Word32) : Num.FVal := Num.decodeF Num.binary32 p.toNat

/-- Mask logic over all 1024 bits (R137). -/
def MaskLogic (ins : BitVec 6 → BitVec 6 → BitVec 6 → Instr) (f : Mask → Mask → Mask) : Prop :=
  ∀ (s : State) (d a b : BitVec 6), wellFormed (ins d a b) = true →
    Runs (ins d a b) s ((s.modTask s.cur (fun t => t.setMask d.toNat (f (t.mask a.toNat) (t.mask b.toNat)))).retire s.cur .x)

/-- A reduction (R141): lane 0 receives the result, every other lane zero, whatever the mask. -/
def Reduction (ins : BitVec 6 → BitVec 6 → BitVec 3 → Instr) (f : (Nat → Option Num.FVal) → Num.FVal) : Prop :=
  ∀ (s s1 s2 : State) (d a : BitVec 6) (m : BitVec 3) (x : Image), Sources1 s (ins d a m) d a x s1 →
    let r := Num.fpEnc Num.binary32 (f (fun i => if ((s.task s.cur).mask m.toNat).getLsbD i then some (laneVal x i) else none))
    (s1.addVst s.cur r.2).dstV s.cur d 0#3 (BitVec.ofNat 32768 r.1) = .ok s2 → Runs (ins d a m) s (s2.retire s.cur .x)

/-- A form that moves lanes of two sources, lane `i` of the result by `f` (R140). -/
def Movement (ins : BitVec 6 → BitVec 6 → BitVec 6 → BitVec 3 → Instr) (f : Image → Image → Nat → Word32) : Prop :=
  ∀ (s s2 s3 : State) (d a b : BitVec 6) (m : BitVec 3) (x y img : Image), Sources2 s (ins d a b m) d a b x y s2 →
    (∀ i, i < 1024 → laneOf img i = f x y i) →
    (s2.addVst s.cur .none).dstV s.cur d m img = .ok s3 → Runs (ins d a b m) s (s3.retire s.cur .x)

/-- The value of a finite number as a rational. -/
def rational (neg : Bool) (m : Nat) (e : Int) : ℚ := (if neg then -1 else 1) * (m : ℚ) * (2 : ℚ) ^ e

/-- The real number `y`, at least zero, rounded once to nearest even in a format (R94): the pattern of the magnitude, one of an infinity or
more where the rounded number lies above MaxF. The last place kept is that of `y`'s leading bit, or of the subnormals. -/
def RoundsTo (f : Num.Shape) (y : ℝ) (p : Nat) : Prop :=
  ∃ (q : Int) (r : Nat), f.emin ≤ q ∧ (q = f.emin ∨ (2 : ℝ) ^ (q + f.fbits) ≤ y) ∧ y < (2 : ℝ) ^ (q + f.fbits + 1) ∧
    2 * |(r : ℝ) * 2 ^ q - y| ≤ (2 : ℝ) ^ q ∧ (2 * |(r : ℝ) * 2 ^ q - y| = (2 : ℝ) ^ q → r % 2 = 0) ∧
    p = (q - f.emin).toNat * 2 ^ f.fbits + r

/-- FpOut of R124 on the real number `y` with a sign: its rounding, or an infinity. -/
def OutFp32 (neg : Bool) (y : ℝ) (res : Nat × Num.Ev) : Prop :=
  ∃ p, RoundsTo Num.binary32 y p ∧
    res = if 0x7F800000 ≤ p then ((if neg then 0xFF800000 else 0x7F800000), ⟨false, true, false⟩)
      else ((if neg then 2 ^ 31 else 0) + p, ⟨false, false, false⟩)

/-- The sign bit of a format, where `neg`. -/
def signOf (f : Num.Shape) (neg : Bool) : Nat := if neg then 2 ^ (f.ebits + f.fbits) else 0

/-- The conversion of a finite value to a float format (R98, first row): rounded once, and MaxF in place of what lies above it. -/
def narrowed (f : Num.Shape) (neg : Bool) (m : Nat) (e : Int) : Nat × Num.Ev :=
  let p := Num.roundMag f m e false
  if f.emax * 2 ^ f.fbits ≤ p then (signOf f neg + f.emax * 2 ^ f.fbits - 1, ⟨true, false, false⟩) else (signOf f neg + p, ⟨false, false, false⟩)

/-- The conversion of an integer to an integer format (R91, R98): SatS or SatU, SAT where it changes the value. -/
def clamped (f : Num.Fmt) (x : Int) : Nat × Num.Ev :=
  let y := max f.range.1 (min f.range.2 x)
  ((y % (2 ^ f.bits : Nat)).toNat, ⟨decide (y ≠ x), false, false⟩)

/-- Whether a format is an integer format of R26. -/
def isInteger : Num.Fmt → Bool
  | .int32 | .int16 | .uint16 | .int8 | .uint8 => true
  | .raw32 | .fp32 | .bf16 | .fp16 | .bfp => false

/-- What ToBFP gives of a block of FP32 values (R99): a NaN block, a zero block, or the least exponent that holds every value, between 1 and
254, with each mantissa rounded to nearest even and clamped. -/
def BlockOf (w : Nat) (xs : List Num.FVal) (res : Nat × List Nat × Num.Ev) : Prop :=
  let odd := ∃ x ∈ xs, x = .nan ∨ ∃ n, x = .inf n
  let zero := ∀ x ∈ xs, ∃ n e, x = .fin n 0 e
  let mant (E : Nat) (x : Num.FVal) : Int := match x with
    | .fin n m e => (if n then -1 else 1) * (Num.roundAt m e false ((E : Int) - 127 - (w - 1 : Nat)) : Int)
    | .nan | .inf _ => 0
  let hi : Int := 2 ^ (w - 1)
  let clip (y : Int) : Int := max (-hi) (min (hi - 1) y)
  (odd → res = (255, xs.map (fun _ => 0), ⟨false, false, true⟩)) ∧
  (¬odd → zero → res = (0, xs.map (fun _ => 0), ⟨false, false, false⟩)) ∧
  (¬odd → ¬zero → ∃ E : Nat, 1 ≤ E ∧ E ≤ 254 ∧
    (E = 254 ∨ ∀ n m e, Num.FVal.fin n m e ∈ xs → rational false m e < (2 : ℚ) ^ ((E : Int) - 127)) ∧
    (E = 1 ∨ ∃ n m e, Num.FVal.fin n m e ∈ xs ∧ (2 : ℚ) ^ ((E : Int) - 128) ≤ rational false m e) ∧
    res = (E, xs.map (fun x => (clip (mant E x) % (2 ^ w : Nat)).toNat),
      ⟨xs.any (fun x => decide (clip (mant E x) ≠ mant E x)), false, false⟩))

/-- Destinations of a vector instruction: its vector operand and its mask operand. -/
def vectorDests : Instr → Option (Option (BitVec 6) × Option (BitVec 6))
  | .vadd d .. | .vsub d .. | .vmul d .. | .vmin d .. | .vmax d .. | .vabs d .. | .vneg d .. | .vmov d .. | .vfma d .. | .vrcp d ..
  | .vrsq d .. | .vexp2 d .. | .vlog2 d .. | .viadd d .. | .visub d .. | .vimul d .. | .vimin d .. | .vimax d .. | .vshl d ..
  | .vshr d .. | .vsra d .. | .viaddH d .. | .visubH d .. | .vimulH d .. | .viminH d .. | .vimaxH d .. | .vshlH d .. | .vshrH d ..
  | .vsraH d .. | .viaddB d .. | .visubB d .. | .vimulB d .. | .viminB d .. | .vimaxB d .. | .vshlB d .. | .vshrB d .. | .vsraB d ..
  | .viaddS d .. | .visubS d .. | .viaddHS d .. | .visubHS d .. | .viaddBS d .. | .visubBS d .. | .vand d .. | .vor d .. | .vxor d ..
  | .vandn d .. | .vcvt d .. | .vsel d .. | .vbcast d .. | .vlid d .. | .vrotm d .. | .vperm d .. | .vzipl d .. | .vziph d ..
  | .vradd d .. | .vrmax d .. | .vrmin d .. => some (some d, none)
  | .vceq d .. | .vcne d .. | .vclt d .. | .vcle d .. | .vcun d .. | .viceq d .. | .vicne d .. | .viclt d .. | .vicle d ..
  | .vicltu d .. | .vicleu d .. | .mand d .. | .mor d .. | .mxor d .. | .mandn d .. | .mnot d .. => some (none, some d)
  | _ => none

/-! Barriers, starts, saves and death. -/

/-- Both sequencers of the present core wait at the ending word under A's counter. -/
def BothWait (s : State) : Prop := (s.seq s.cur .a).waiting = true ∧ (s.seq s.cur .x).waiting = true

/-- What an ending word of a task waits for besides its chains and commands (R145, R282). -/
def AccessesOver (t : Task) : Prop := t.loads = [] ∧ t.atomics = [] ∧ t.vatom = none ∧ t.stores = []

/-- No chain of the task on a core is at work, on any core (R145, R213). -/
def NoChains (s : State) (c : Nat) : Prop := s.chainsOf (s.task c).uid = []

/-- Both sequencers complete the word they stand at, and the task ends (R145). -/
def ended (s : State) (c : Nat) : State := ((s.completed c .a true).completed c .x true).endTask c

/-- A task ends by HALT: what its collectives write into its pool from now on is discarded (R282). -/
def left (s : State) (c : Nat) : State := (ended s c).modMember (s.task c).uid (fun m => { m with halted := some c })

/-- A frame takes `n` bytes through a handle of a context: the entry is live and writable, below the in-flight bound and long enough
(R85, R161, R259). -/
def FrameTakes (s : State) (ctx : Nat) (h : Word32) (n : Nat) : Prop :=
  let e := s.entry ctx (handleIndex h)
  handleIndex h ≠ 0 ∧ s.inTable ctx (handleIndex h) = true ∧ e.gen = handleGen h ∧ e.state = .active ∧ e.w = true ∧ e.infl ≠ 2 ^ 19 - 1 ∧
  n ≤ e.len

/-- A task whose registers have the sizes that the image's layout provides for (R334): program counters and return offsets of 22 bits, at
most 64 queued branches and 16 kept returns, queue, loop and stream state in range. -/
def InLayout (t : Task) : Prop :=
  (∀ d : Side, (t.seq d).pc.toNat < 2 ^ 22 ∧ (t.seq d).bq.length ≤ 64 ∧ (t.seq d).ret.length ≤ 16 ∧ (t.seq d).spilled < 2 ^ 32 ∧
    (t.seq d).order.length ≤ 3 ∧ (∀ n ∈ (t.seq d).order, n < 3) ∧ ∀ (n : Nat) (l : LoopCtr), (t.seq d).lc[n]? = some l → l.last.toNat < 2 ^ 22) ∧
  (∀ n, n < 8 → (t.queue n).occ < 2 ^ 16 ∧ (t.queue n).head < 2 ^ 8 ∧ (t.queue n).p < 2 ^ 16 ∧ (t.queue n).g < 2 ^ 8) ∧
  ∀ n, n < 16 → (t.stream n).pos < 2 ^ 64

/-- The record of a number, or whose latest offer to a peer has that number. -/
def Numbered (s : State) (i : Nat) (r : RingRec) : Prop := s.records.find? (fun x => x.id == i || x.offer == some i) = some r

/-- The record of a number, standing where a test says. -/
def Stands (s : State) (i : Nat) (r : RingRec) : Prop := s.records.find? (fun x => x.id == i) = some r

/-- A record replaced wherever it stands. -/
def recordSet (s : State) (i : Nat) (f : RingRec → RingRec) : State :=
  { s with records := s.records.map (fun r => if r.id = i then f r else r) }

/-! Engines at work. -/

/-- Bits `lo` to `lo + n - 1` of a number. -/
def bitsAt (x lo n : Nat) : Nat := x / 2 ^ lo % 2 ^ n
/-- Signed value of 32 bits from bit `lo` up. -/
def signedAt (x lo : Nat) : Int := (BitVec.ofNat 32 (x / 2 ^ lo)).toInt

/-- The first chain of a core, those of a virtual device that is PAUSED left out (R318). -/
def First (s : State) (core : Nat) (h : Chain) : Prop :=
  (s.core core).chains.find? (fun h => (s.partOf (s.partOfContext h.ctx)).vstate != .paused) = some h

/-- Entry `e` stands under the running chain `h` of a core, once it has been read: `u` is the state that keeps it (R214, R217). -/
def Under (s : State) (core : Nat) (h : Chain) (e : BitVec 256) (u : State) : Prop :=
  ∃ g, First s core g ∧ g.started = true ∧ g.run = none ∧ s.chainEntry core g g.at_ = .entry e u ∧
    First u core h

/-- The steps that interpret the entry under a chain. -/
def interprets (i : Instr) (core : Nat) : Prop :=
  i = .chainCopy core ∨ i = .chainLoop core ∨ i = .chainCond core ∨ i = .chainSignal core ∨ i = .chainWait core ∨ i = .chainEnd core

/-- A core's matrix queue runs: its task runs, or its save has not come to step 4 (R251, R262). -/
def QueueRuns (s : State) (core : Nat) : Prop :=
  (s.core core).mode = .run ∨ ∃ b, (s.core core).mode = .save b ∧ (s.core core).keptLease = none

/-- The head of a core's matrix queue, which runs: its operation, and ZEXP as it was at its push. -/
def AtHead (s : State) (core : Nat) (op : MOp) (z : BitVec 16) : Prop :=
  QueueRuns s core ∧ ∃ n l, (s.task core).mq = ⟨n, op, z⟩ :: l

/-- A core's matrix queue without its head. -/
def popped (s : State) (core : Nat) : State :=
  s.modTask core (fun t => { t with mq := t.mq.drop 1, mheld := none, mwork := MatrixWork.idle })

/-- What the command at the head of a core's matrix queue has under way, changed. -/
def worked (s : State) (core : Nat) (f : MatrixWork → MatrixWork) : State := s.modTask core (fun t => { t with mwork := f t.mwork })

/-- A core's array is at work on a step of the command at the head, with the lease (R228, R229). -/
def Stepping (s : State) (core : Nat) (sp : Bool) (z a b : Nat) (x : Word64) (e : BitVec 16) : Prop :=
  AtHead s core (.mmul sp z a b x) e ∧ (s.task core).lease = .holding ∧ (s.task core).mstart = true ∧
  (s.task core).mstepsDone < stepsOf sp x

/-- The next block of a stream may come: its row transactions have begun, or its share group lets it (R222). -/
def MayDeliver (s : State) (core n : Nat) : Prop := (s.task core).mwork.reads ≠ none ∨ s.shareReady core n = true

/-- Clamp47 (R104). -/
def clip47 (x : Int) : Int := max (-(2 ^ 47 - 1)) (min (2 ^ 47 - 1) x)

/-- `x / 2^k` rounded to a nearest integer, the even one of two (R94). -/
def Nearest (x : Int) (k : Nat) (r : Int) : Prop :=
  2 * |r * 2 ^ k - x| ≤ 2 ^ k ∧ (2 * |r * 2 ^ k - x| = 2 ^ k → r % 2 = 0)

/-! The host's command queues and graphs. -/

/-- The packet that takes effect next in a command queue (R301): of a queue that has not halted, its partition's virtual device RUNNING,
its opcode and its bytes 1 to 7 as they should be; it stands at a depth of indirection. -/
def PacketDue (s : State) (queue op depth : Nat) (q : CmdQueue) : Prop :=
  NMap.get s.queues queue = some q ∧ q.halted = false ∧ s.takesPackets q.part = true ∧
  ∃ b l, q.fetched = (b, depth) :: l ∧ b.toNat % 2 ^ 8 = op ∧ b.toNat / 2 ^ 8 % 2 ^ 56 = 0

/-- The packet at the head of a queue is done: its 16-byte completion entry in host memory, the queue one packet on, halted where the packet halts it (R301). -/
def answered (s : State) (queue : Nat) (q : CmdQueue) (status : Nat) (value : BitVec 64) (halt : Bool) : State :=
  let entry := bytesOf 4 (q.seqNo % 2 ^ 32) ++ bytesOf 2 (status % 2 ^ 16) ++ [0#8, 0#8] ++ bytesOf 8 value.toNat
  { s with
    mem := s.mem.writeRun (Config.hostBase + q.doneAt + 16 * (q.seqNo % 2 ^ q.log)) entry
    queues := NMap.set s.queues queue { q with
      fetched := q.fetched.drop 1, seqNo := q.seqNo + 1, completions := q.completions ++ [⟨q.seqNo, status, value⟩],
      stopped := q.stopped && !(q.fetched.drop 1).isEmpty, halted := halt } }

/-- A LAUNCH or WAKE goes on: what has room enters the rings, and the packet is done once none of its records waits (R305, R320). -/
def pushedOn (s : State) (n : Nat) (q : CmdQueue) (u : State) : Prop :=
  let t := q.launching.foldl (fun s g => s.admitGroup g) s
  ((∀ g ∈ q.launching, t.heldOf g = []) →
    u = answered { t with queues := NMap.set t.queues n { q with launching := [] } } n { q with launching := [] } 0 0#64 false) ∧
  ((∃ g ∈ q.launching, t.heldOf g ≠ []) → u = { t with queues := NMap.set t.queues n q })

/-- A graph with node `u` changed. -/
def nodeSet (g : Graph) (u : Nat) (f : GraphNode → GraphNode) : Graph := { g with nodes := modifyAt g.nodes u f }

/-- The packet at the head of a queue names operand `i` as `x`: 8 bytes, little-endian, from byte 8 on (R301, log 23). -/
def Named (q : CmdQueue) (i x : Nat) : Prop := ∃ b d l, q.fetched = (b, d) :: l ∧ x = b.toNat / 2 ^ (64 + 64 * i) % 2 ^ 64

/-- A run of node `u` can start (R309, R310): none is in progress, FREE on every outgoing edge, and a wake for a root; for another node an
item on every incoming edge, and its enabling where it has to be enabled. -/
def RunDue (s : State) (graph u : Nat) (g : Graph) : Prop :=
  NMap.get s.graphs graph = some g ∧ g.registered = true ∧ s.inService g.part = true ∧ u < g.nodes.length ∧ (g.node u).run = none ∧
  (g.node u).busy = false ∧ (∀ e ∈ g.edges, e.src = u → 1 ≤ e.free) ∧
  ((g.isRoot u = true ∧ (g.node u).taken < g.wakes) ∨
    (g.isRoot u = false ∧ (∀ e ∈ g.edges, e.dst = u → 1 ≤ e.items) ∧ ((g.node u).enabled = true ∨ g.awaitsEnabling u = false)))

end Sys2Proof.Claims

open Sys2Proof Sys2Proof.Machine Sys2Proof.Claims

/-! Steps and words. -/

/-- R15, R16, R20, R48: a sequencer whose turn it is goes to its next own word; where that word decodes to `i`, and the slip comparison
does not hold a B word, the step is `exec i` with the program counter on that word. A sequencer that has issued in this cycle begins the
next (the model's order of turns, log 1). -/
def Obligations.StepRunsTheDecodedWord : Prop :=
  ∀ (s : State) (c : Nat) (d : Side) (ts : List Turn) (k : Kernel) (i : Instr) (u : State),
    s.turns = .issue c d :: ts →
    u = (if (({ s with turns := ts, cur := c, side := d } : State).seq c d).issued
          then ({ s with turns := ts, cur := c, side := d } : State).tick else { s with turns := ts, cur := c, side := d }) →
    u.issues c d = true → (d = .a → (u.task c).heldSlow = false) → u.kernel (u.task c).kid = some k →
    k.executable (u.seq c d).pc.toNat = true →
    u.ownFrom k d (u.seq c d).pc.toNat < k.textLen →
    decode (u.textWord k (u.ownFrom k d (u.seq c d).pc.toNat)) = .ok i →
    (fld (u.textWord k (u.ownFrom k d (u.seq c d).pc.toNat)) 30 2 = 2#2 → (u.seq c d).waiting = true ∨ (u.task c).slips d = false) →
    step s = exec i (u.setSeq c d { u.seq c d with pc := BitVec.ofNat 32 (u.ownFrom k d (u.seq c d).pc.toNat) })

/-- The other turns (the model's, log 1): with no turn given the clock ticks; an agent's step runs its row's meaning. What such steps leave
alone: those of the front end and of system software that only keep tables touch no core and no memory, those of a task's engines and
accesses no register that only its words write. -/
def Obligations.OtherTurnsTickOrRunTheirEvent : Prop :=
  (∀ s : State, s.turns = [] → step s = .next s.tick) ∧
  (∀ (s : State) (ts : List Turn), s.turns = .tick :: ts → step s = .next ({ s with turns := ts } : State).tick) ∧
  (∀ (s : State) (ts : List Turn) (i : Instr), s.turns = .event i :: ts → encode i = none → i ≠ .illegalInstruction →
    i ≠ .executeData → step s = exec i { s with turns := ts }) ∧
  (∀ (i : Instr) (s t : State), deskEvent i = true → Runs i s t →
    t.cores = s.cores ∧ t.mem = s.mem ∧ t.cur = s.cur ∧ t.cyc = s.cyc ∧ t.quads = s.quads ∧ t.members = s.members ∧ t.shares = s.shares ∧
    t.timers = s.timers ∧ t.collectives = s.collectives) ∧
  (∀ (i : Instr) (s t : State), engineEvent i = true → Runs i s t →
    (∀ c, SameByWords (s.task c) (t.task c)) ∧ t.cur = s.cur ∧ t.cyc = s.cyc ∧ t.hmask = s.hmask ∧ t.queues = s.queues) ∧
  -- of those, the ones that write no memory, and those that write no a-register
  (∀ (i : Instr) (s t : State) (c n : Nat), i = .loadReadStep c n ∨ i = .precAtHead c ∨ i = .arrayCommandEnd c ∨ i = .histClrAtHead c →
    Runs i s t → t.mem = s.mem ∧ (∀ k, k ≠ c → t.core k = s.core k ∨ (i = .arrayCommandEnd c ∧ quadOf k = quadOf c)) ∧
      ∀ k, (t.task k).a = (s.task k).a) ∧
  (∀ (s t : State) (c n : Nat), Runs (.pendingEntryDrain c n) s t → ∀ a, (∀ e ∈ (s.task c).stores, ∀ x ∈ e.cells, x.1 ≠ a) →
    t.mem.read a = s.mem.read a)

/-- R42 to R47, R193, R236: words written out from the encoding tables decode to the instructions they stand for. -/
def Obligations.EncodingsDecode : Prop :=
  decode 0x000C1900#32 = .ok (.add .a 3#6 1#6 36#6) ∧
  decode 0x65040001#32 = .ok (.vlid 1#6 0#3) ∧
  decode 0x28310501#32 = .ok (.trans 3#4 4#6 5#6 0#1 1#1) ∧
  decode 0x30121400#32 = .ok (.sbind 1#4 2#4 5#6) ∧
  decode 0x59101098#32 = .ok (.vfma 4#6 1#6 2#6 3#3) ∧
  decode 0x811C1FFA#32 = .ok (.brx 7#6 1#6 0xFFA#12) ∧
  decode 0x8D000000#32 = .ok .halt

/-- R36 to R47: every well-formed instruction has a word, which decodes back to it, with every operand at every value; only steps that no
word encodes have none. -/
def Obligations.EncodedWordsDecodeBack : Prop :=
  (∀ i : Instr, wellFormed i = true → stepOnly i = false → ∃ w, encode i = some w ∧ decode w = .ok i) ∧
  (∀ i : Instr, stepOnly i = true → encode i = none)

/-! Scalar operands and results. -/

/-- R21, R22, R25, R65, R183: what a scalar source reads, and what a scalar destination receives: the register, nothing for a0 and s0, or a
pushed element of eight bytes and zeros. -/
def Obligations.ScalarOperands : Prop :=
  (∀ (s : State) (c : Nat) (f : BitVec 6), f.toNat < 32 → (s.task c).await f.toNat = .none →
    s.readOp c .a f = .ok (if f = 0#6 then 0#64 else (s.task c).a[f.toNat]?.getD 0#64, s)) ∧
  (∀ (s : State) (c : Nat) (f : BitVec 6), f.toNat < 32 →
    s.readOp c .x f = .ok (if f = 0#6 then 0#64 else (s.task c).sr[f.toNat]?.getD 0#64, s)) ∧
  (∀ (s : State) (c : Nat) (f : BitVec 6), f.toNat < 32 → (s.task c).await f.toNat = .error →
    s.readOp c .a f = .error (.trap 0x31#8 none)) ∧
  (∀ (s : State) (c : Nat) (d : Side) (f : BitVec 6), 32 ≤ f.toNat → f.toNat < 40 →
    let t := s.task c
    let q := t.queue (f.toNat - 32)
    1 ≤ q.ready (pwDepth t.partw) →
    s.readOp c d f = .ok (BitVec.ofNat 64 ((s.poolLine c (slotOff t.partw (f.toNat - 32) (q.head % pwDepth t.partw))).toNat / 2 ^ (8 * q.p)),
      s.setTask c (t.setQueue (f.toNat - 32)
        { q with occ := q.occ - 1, head := (q.head + 1) % pwDepth t.partw, p := 0, freed := q.freed + 1 }))) ∧
  (∀ (s t : State) (c : Nat) (d : Side) (x : Word64), s.writeOp c d 0#6 x = .ok t →
    t.mem = s.mem ∧ ∀ n, (t.task c).areg n = (s.task c).areg n ∧ (t.task c).sreg n = (s.task c).sreg n) ∧
  (∀ (s : State) (c : Nat) (f : BitVec 6) (x : Word64), f.toNat < 32 → (s.task c).await f.toNat = .none →
    ∃ t, s.writeOp c .a f x = .ok t ∧ t.mem = s.mem ∧
      (∀ n, n < 32 → (t.task c).areg n = if n = f.toNat ∧ n ≠ 0 then x else (s.task c).areg n) ∧
      (∀ n, (t.task c).sreg n = (s.task c).sreg n)) ∧
  (∀ (s : State) (c : Nat) (f : BitVec 6) (x : Word64), f.toNat < 32 →
    ∃ t, s.writeOp c .x f x = .ok t ∧ t.mem = s.mem ∧
      (∀ n, n < 32 → (t.task c).sreg n = if n = f.toNat ∧ n ≠ 0 then x else (s.task c).sreg n) ∧
      (∀ n, (t.task c).areg n = (s.task c).areg n)) ∧
  (∀ (s : State) (c : Nat) (d : Side) (f : BitVec 6) (x : Word64), 32 ≤ f.toNat → f.toNat < 40 →
    let n := f.toNat - 32
    ((s.task c).queue n).occ + ((s.task c).queue n).freed < pwDepth (s.task c).partw →
    ∃ t, s.writeOp c d f x = .ok t ∧ ((t.task c).queue n).occ = ((s.task c).queue n).occ + 1 ∧
      (∀ i, i < 8 → t.mem.read (pushSlot s c n + i) = BitVec.ofNat 8 (x.toNat / 2 ^ (8 * i))) ∧
      (∀ i, 8 ≤ i → i < 4096 → t.mem.read (pushSlot s c n + i) = 0#8) ∧
      (∀ a, a < pushSlot s c n ∨ pushSlot s c n + 4096 ≤ a → t.mem.read a = s.mem.read a))

/-- R68: the integer ALU group of two sources. -/
def Obligations.AluGroupResults : Prop :=
  TwoSources .add (fun x y => x + y) ∧
  TwoSources .sub (fun x y => x - y) ∧
  TwoSources .and (fun x y => x &&& y) ∧
  TwoSources .or (fun x y => x ||| y) ∧
  TwoSources .xor (fun x y => x ^^^ y) ∧
  TwoSources .sll (fun x y => BitVec.ofNat 64 (x.toNat * 2 ^ (y.toNat % 64))) ∧
  TwoSources .srl (fun x y => BitVec.ofNat 64 (x.toNat / 2 ^ (y.toNat % 64))) ∧
  TwoSources .sra (fun x y => BitVec.ofInt 64 (x.toInt / 2 ^ (y.toNat % 64))) ∧
  TwoSources .mul (fun x y => BitVec.ofInt 64 (x.toInt * y.toInt)) ∧
  TwoSources .mulh (fun x y => BitVec.ofInt 64 (x.toInt * y.toInt / 2 ^ 64)) ∧
  TwoSources .mulhu (fun x y => BitVec.ofNat 64 (x.toNat * y.toNat / 2 ^ 64)) ∧
  TwoSources .slt (fun x y => if x.toInt < y.toInt then 1#64 else 0#64) ∧
  TwoSources .sltu (fun x y => if x.toNat < y.toNat then 1#64 else 0#64) ∧
  TwoSources .seq (fun x y => if x = y then 1#64 else 0#64) ∧
  TwoSources .sne (fun x y => if x ≠ y then 1#64 else 0#64) ∧
  TwoSources .min (fun x y => if x.toInt ≤ y.toInt then x else y) ∧
  TwoSources .max (fun x y => if x.toInt ≤ y.toInt then y else x) ∧
  TwoSources .minu (fun x y => if x.toNat ≤ y.toNat then x else y) ∧
  TwoSources .maxu (fun x y => if x.toNat ≤ y.toNat then y else x) ∧
  OneSource .clz (fun x => if x = 0#64 then 64#64 else BitVec.ofNat 64 (63 - Nat.log2 x.toNat)) ∧
  -- SEL reads its destination, after x and y, as the condition
  (∀ (s : State) (d : Side) (fd fa fb : BitVec 6) (x y z : Word64) (s1 s2 s3 s4 : State), wellFormed (.sel d fd fa fb) = true →
    s.readOp s.cur d fa = .ok (x, s1) → s1.readOp s.cur d fb = .ok (y, s2) → s2.readOp s.cur d fd = .ok (z, s3) →
    s3.writeOp s.cur d fd (if z ≠ 0#64 then x else y) = .ok s4 → Runs (.sel d fd fa fb) s (s4.retire s.cur d))

/-- R69 to R72: immediate forms, shifts by an immediate, field extraction and moves. -/
def Obligations.ImmediateAndMoveResults : Prop :=
  (∀ i : BitVec 12, OneSource (fun d fd fa => .addi d fd fa i) (fun x => x + i.signExtend 64)) ∧
  (∀ i : BitVec 12, OneSource (fun d fd fa => .andi d fd fa i) (fun x => x &&& i.signExtend 64)) ∧
  (∀ i : BitVec 12, OneSource (fun d fd fa => .ori d fd fa i) (fun x => x ||| i.signExtend 64)) ∧
  (∀ i : BitVec 12, OneSource (fun d fd fa => .xori d fd fa i) (fun x => x ^^^ i.signExtend 64)) ∧
  (∀ i : BitVec 12, OneSource (fun d fd fa => .slti d fd fa i) (fun x => if x.toInt < i.toInt then 1#64 else 0#64)) ∧
  (∀ i : BitVec 12, OneSource (fun d fd fa => .sltiu d fd fa i) (fun x => if x.toNat < (i.signExtend 64).toNat then 1#64 else 0#64)) ∧
  (∀ n : BitVec 6, OneSource (fun d fd fa => .slli d fd fa n) (fun x => BitVec.ofNat 64 (x.toNat * 2 ^ n.toNat))) ∧
  (∀ n : BitVec 6, OneSource (fun d fd fa => .srli d fd fa n) (fun x => BitVec.ofNat 64 (x.toNat / 2 ^ n.toNat))) ∧
  (∀ n : BitVec 6, OneSource (fun d fd fa => .srai d fd fa n) (fun x => BitVec.ofInt 64 (x.toInt / 2 ^ n.toNat))) ∧
  (∀ l n : BitVec 6, OneSource (fun d fd fa => .bfx d fd fa l n) (fun x => BitVec.ofNat 64 (x.toNat / 2 ^ l.toNat % 2 ^ (n.toNat + 1)))) ∧
  (∀ l n : BitVec 6, OneSource (fun d fd fa => .bfxs d fd fa l n) (fun x => (x.extractLsb' l.toNat (n.toNat + 1)).signExtend 64)) ∧
  (∀ (s s1 : State) (d : Side) (fd : BitVec 6) (i : BitVec 18), wellFormed (.movi d fd i) = true →
    s.writeOp s.cur d fd (i.signExtend 64) = .ok s1 → Runs (.movi d fd i) s (s1.retire s.cur d)) ∧
  (∀ (s s1 s2 : State) (d : Side) (fd : BitVec 6) (h : BitVec 2) (v : BitVec 16) (x r : Word64), wellFormed (.movhi d fd h v) = true →
    s.readOp s.cur d fd = .ok (x, s1) →
    (∀ j, j < 64 → r.getLsbD j = if 16 * h.toNat ≤ j ∧ j < 16 * h.toNat + 16 then v.getLsbD (j - 16 * h.toNat) else x.getLsbD j) →
    s1.writeOp s.cur d fd r = .ok s2 → Runs (.movhi d fd h v) s (s2.retire s.cur d))

/-- R83, R84: QMOV moves one element, the pop before the push; QFLUSH pads a producer's group or retires a consumer's partly read head.
That a QFLUSH reads G again after each push, and completes once it is 0: log 97. -/
def Obligations.QueueInstructionResults : Prop :=
  (∀ (s s1 s2 : State) (fd fa : BitVec 6) (img : Image), wellFormed (.qmov .a fd fa) = true →
    s.popVector s.cur (fa.toNat - 32) = .ok (img, s1) → s1.pushVector s.cur (fd.toNat - 32) img = .ok s2 →
    Runs (.qmov .a fd fa) s (s2.retire s.cur .a)) ∧
  (∀ (s s1 s2 : State) (fd fa : BitVec 6) (img : Image), wellFormed (.qmov .x fd fa) = true →
    (s.task s.cur).granted fd = true → (s.task s.cur).granted fa = true →
    s.srcV s.cur fa = .ok (img, s1) → s1.dstAll s.cur fd img = .ok s2 → Runs (.qmov .x fd fa) s (s2.retire s.cur .x)) ∧
  (∀ (s : State) (d : Side) (fa : BitVec 6), wellFormed (.qflush d fa) = true → produces d (fa.toNat - 32) = true →
    ((s.task s.cur).queue (fa.toNat - 32)).g = 0 → Runs (.qflush d fa) s (s.retire s.cur d)) ∧
  (∀ (s : State) (d : Side) (fa : BitVec 6), wellFormed (.qflush d fa) = true → produces d (fa.toNat - 32) = true →
    ((s.task s.cur).queue (fa.toNat - 32)).g ≠ 0 → s.qroom s.cur (fa.toNat - 32) = true →
    let t := s.enqueue s.cur (fa.toNat - 32) 0#32768
    Runs (.qflush d fa) s (if ((t.task s.cur).queue (fa.toNat - 32)).g = 0 then t.retire s.cur d else t.progress s.cur d (fa.toNat - 32))) ∧
  (∀ (s : State) (d : Side) (fa : BitVec 6), wellFormed (.qflush d fa) = true → produces d (fa.toNat - 32) = false →
    ((s.task s.cur).queue (fa.toNat - 32)).p = 0 → Runs (.qflush d fa) s (s.retire s.cur d)) ∧
  (∀ (s : State) (d : Side) (fa : BitVec 6), wellFormed (.qflush d fa) = true → produces d (fa.toNat - 32) = false →
    let t := s.task s.cur
    let q := t.queue (fa.toNat - 32)
    q.p ≠ 0 → Runs (.qflush d fa) s ((s.setTask s.cur (t.setQueue (fa.toNat - 32)
      { q with occ := q.occ - 1, head := (q.head + 1) % pwDepth t.partw, p := 0, freed := q.freed + 1 })).retire s.cur d))

/-- R26, R65, R103, R122, R271 to R277: CYCRD and RDS write or push the register's value as it stands; an unassigned number is an illegal
instruction. WRS records a legal write of a register that the side may write, to take its place in the next cycle; a number that is read
only, of the other side or unassigned is an illegal instruction; a reserved value traps 0x05, the pop standing. -/
def Obligations.SystemRegisters : Prop :=
  (∀ (s s1 : State) (d : Side) (fd : BitVec 6), wellFormed (.cycrd d fd) = true → s.writeOp s.cur d fd s.cyc = .ok s1 →
    Runs (.cycrd d fd) s (s1.retire s.cur d)) ∧
  (∀ r ∈ sysTable, ∀ (s s1 : State) (d : Side) (fd : BitVec 6), wellFormed (.rds d fd (BitVec.ofNat 12 r.1)) = true →
    s.writeOp s.cur d fd (r.2 s) = .ok s1 → Runs (.rds d fd (BitVec.ofNat 12 r.1)) s (s1.retire s.cur d)) ∧
  (∀ (s : State) (d : Side) (fd : BitVec 6) (r : BitVec 12), wellFormed (.rds d fd r) = true → (∀ x ∈ sysTable, x.1 ≠ r.toNat) →
    Runs (.rds d fd r) s (s.takeTrap s.cur d 0x01#8)) ∧
  (∀ (s t : State) (d : Side) (fa : BitVec 6) (r : BitVec 12) (x : Word64), wellFormed (.wrs d fa r) = true → sysWritable d r.toNat →
    sysFree (s.task s.cur) r.toNat → s.readOp s.cur d fa = .ok (x, t) → sysLegal (t.task s.cur).partw r.toNat x →
    Runs (.wrs d fa r) s ((t.setSeq s.cur d { t.seq s.cur d with wrs := some (r.toNat, x) }).retire s.cur d)) ∧
  (∀ (s t : State) (d : Side) (fa : BitVec 6) (r : BitVec 12) (x : Word64), wellFormed (.wrs d fa r) = true → sysWritable d r.toNat →
    sysFree (s.task s.cur) r.toNat → s.readOp s.cur d fa = .ok (x, t) → ¬sysLegal (t.task s.cur).partw r.toNat x →
    Runs (.wrs d fa r) s (t.takeTrap s.cur d 0x05#8)) ∧
  (∀ (s : State) (d : Side) (fa : BitVec 6) (r : BitVec 12), wellFormed (.wrs d fa r) = true → ¬sysWritable d r.toNat →
    Traps (.wrs d fa r) d 0x01#8 s)

/-- R20, R22, R24, R28, R32, R38, R65, R79, R83: the frame of the scalar block, of queue, control and flag words, and of the commands that only enter
the matrix queue. Whatever such a word comes to (completed, stalled or trapped), it changes no register but its destination, no status bit,
no other core and nothing outside the core but its kernel's record area, dropped count and death; memory changes only in the slot that a pushed result enters, in the
register that QMOV writes, and where a CALL moves its oldest entry to, with what logging that write changes. -/
def Obligations.ScalarWordsChangeNothingElse : Prop :=
  (∀ (i : Instr) (d : Side) (fd : BitVec 6) (s t : State), scalarDest i = some (d, fd) → Runs i s t →
    OwnCoreOnly s t ∧ SameSystem (s.task s.cur) (t.task s.cur) ∧
    (∀ n, ¬(d = .a ∧ n = fd.toNat) → (t.task s.cur).areg n = (s.task s.cur).areg n) ∧
    (∀ n, ¬(d = .x ∧ n = fd.toNat) → (t.task s.cur).sreg n = (s.task s.cur).sreg n) ∧
    (t.task s.cur).k = (s.task s.cur).k ∧ (t.task s.cur).m = (s.task s.cur).m ∧
    (t.task s.cur).streams = (s.task s.cur).streams ∧ (t.task s.cur).flags = (s.task s.cur).flags ∧
    (fd.toNat < 32 → ∀ a, t.mem.read a = s.mem.read a) ∧
    (32 ≤ fd.toNat → ∀ a, a < pushSlot s s.cur (fd.toNat - 32) ∨ pushSlot s s.cur (fd.toNat - 32) + 4096 ≤ a → t.mem.read a = s.mem.read a)) ∧
  (∀ (i : Instr) (flags : Bool) (s t : State), controlWord i = some flags → Runs i s t →
    OwnCoreOnly s t ∧ SameSystem (s.task s.cur) (t.task s.cur) ∧ (t.task s.cur).a = (s.task s.cur).a ∧ (t.task s.cur).sr = (s.task s.cur).sr ∧
    (t.task s.cur).k = (s.task s.cur).k ∧ (t.task s.cur).m = (s.task s.cur).m ∧ (t.task s.cur).streams = (s.task s.cur).streams ∧
    (flags = false → (t.task s.cur).flags = (s.task s.cur).flags) ∧ t.mem = s.mem) ∧
  (∀ (d : Side) (fd fa : BitVec 6) (s t : State), Runs (.qmov d fd fa) s t →
    OwnCoreOnly s t ∧ (t.task s.cur).a = (s.task s.cur).a ∧ (t.task s.cur).sr = (s.task s.cur).sr ∧
    (t.task s.cur).k = (s.task s.cur).k ∧ (t.task s.cur).m = (s.task s.cur).m ∧ (t.task s.cur).streams = (s.task s.cur).streams ∧
    (t.task s.cur).flags = (s.task s.cur).flags ∧ (t.task s.cur).stat = (s.task s.cur).stat ∧ (t.task s.cur).tks = (s.task s.cur).tks ∧
    (t.task s.cur).qfmt = (s.task s.cur).qfmt ∧ (t.task s.cur).slipw = (s.task s.cur).slipw ∧
    (fd.toNat < 32 → ∀ a, a < poolBase s.cur + 4096 * fd.toNat ∨ poolBase s.cur + 4096 * fd.toNat + 4096 ≤ a → t.mem.read a = s.mem.read a) ∧
    (32 ≤ fd.toNat → ∀ a, a < pushSlot s s.cur (fd.toNat - 32) ∨ pushSlot s s.cur (fd.toNat - 32) + 4096 ≤ a → t.mem.read a = s.mem.read a)) ∧
  (∀ (d : Side) (fa : BitVec 6) (s t : State), Runs (.qflush d fa) s t →
    OwnCoreOnly s t ∧ SameSystem (s.task s.cur) (t.task s.cur) ∧ (t.task s.cur).a = (s.task s.cur).a ∧ (t.task s.cur).sr = (s.task s.cur).sr ∧
    (t.task s.cur).k = (s.task s.cur).k ∧ (t.task s.cur).m = (s.task s.cur).m ∧ (t.task s.cur).streams = (s.task s.cur).streams ∧
    (t.task s.cur).flags = (s.task s.cur).flags ∧
    ∀ a, a < pushSlot s s.cur (fa.toNat - 32) ∨ pushSlot s s.cur (fa.toNat - 32) + 4096 ≤ a → t.mem.read a = s.mem.read a) ∧
  (∀ (off : BitVec 24) (s t : State), Runs (.call off) s t →
    let u := s.task s.cur
    let q := s.seq s.cur s.side
    let place := overflowAt u s.side q.spilled
    OthersMarked s t ∧ KernelsKept u.kid s t ∧ (t.task s.cur).a = u.a ∧ (t.task s.cur).sr = u.sr ∧ (t.task s.cur).k = u.k ∧ (t.task s.cur).m = u.m ∧
    (t.task s.cur).streams = u.streams ∧ (t.task s.cur).flags = u.flags ∧ (t.task s.cur).stat = u.stat ∧ (t.task s.cur).vst = u.vst ∧
    ((t.task s.cur).tks = u.tks ∨ (t.task s.cur).tks = u.tks ||| 2#6) ∧ (t.task s.cur).stores = u.stores ∧
    t.members = s.members ∧ t.records = s.records ∧ t.groups = s.groups ∧ t.shares = s.shares ∧ t.quads = s.quads ∧ t.graphs = s.graphs ∧
    ∀ a, ¬logBytes s u.part a →
      a < poolBase s.cur + returnArea s.side + 4 * q.spilled ∨ poolBase s.cur + returnArea s.side + 4 * q.spilled + 4 ≤ a →
      (∀ i b, s.tokenCheck u.ctx u.spk place 4 true = .done (some i) 4 b → ∀ p ∈ s.pieces u.ctx i place 4, ∀ x ∈ p.bytes, x.2 ≠ a) →
      t.mem.read a = s.mem.read a)

/-! System registers, traps and completion of a word. -/

/-- R19, R26, R101, R103, R122, R163, R271, R276: what the WRS of a cycle leave at its end. Both sides' clears of sticky bits apply, a bit
that an event set in the cycle stands, X's value stands where both wrote one field, and other fields keep their values.
That G is 0 at the end of a cycle in which QFMT was written, also after a push of that cycle: log 78. -/
def Obligations.WritesStandFromTheNextCycle : Prop :=
  ∀ (s : State) (c : Nat),
    let t := s.task c
    let u := s.tick.task c
    let last (r : Nat) : Option Word64 := (wrote t.seqX.wrs r).or (wrote t.seqA.wrs r)
    let ones (r : Nat) : Word64 := (wrote t.seqX.wrs r).getD 0#64 ||| (wrote t.seqA.wrs r).getD 0#64
    u.slipw = (match last 1 with
      | some x => BitVec.ofNat 7 (max 1 (min 64 x.toNat))
      | none => t.slipw) ∧
    u.stat = (t.stat &&& ~~~((ones 2).setWidth 7)) ||| t.raised.stat ∧
    u.tks = (t.tks &&& ~~~((ones 3).setWidth 6)) ||| t.raised.tks ∧
    u.vst = (t.vst &&& ~~~((ones 4).setWidth 3)) ||| t.raised.vst ∧
    u.zst = (t.zst &&& ~~~((ones 5).setWidth 16)) ||| t.raised.zst ∧
    u.dqHead = (match last 0x13 with
      | some x => BitVec.ofNat 17 (x.toNat / 2 ^ 32)
      | none => t.dqHead) ∧
    u.dqCount = (match last 0x13 with
      | some x => BitVec.ofNat 17 x.toNat
      | none => t.dqCount) ∧
    u.spk = (match last 0x14 with
      | some x => x.setWidth 32
      | none => t.spk) ∧
    u.spov = (match last 0x15 with
      | some x => x.setWidth 32
      | none => t.spov) ∧
    (∀ n, n < 8 → u.qfmt[n]? = (match last (0x20 + n) with
      | some x => some (x.setWidth 8)
      | none => t.qfmt[n]?) ∧ (last (0x20 + n) ≠ none → (u.queue n).g = 0)) ∧
    (∀ n, n < 8 → u.zexp[n]? = (match last (0x30 + n) with
      | some x => if n < pwTiles t.partw then some (x.setWidth 16) else t.zexp[n]?
      | none => t.zexp[n]?)) ∧
    u.raised = ⟨0#7, 0#6, 0#3, 0#16⟩ ∧ u.seqA.wrs = none ∧ u.seqX.wrs = none

/-- R16, R31, R48, R278: the words and conditions whose whole effect is a trap. -/
def Obligations.TrapInstructions : Prop :=
  (∀ (s : State) (d : Side) (c : BitVec 8), 0x80 ≤ c.toNat → Traps (.trap d c) d c s) ∧
  (∀ (s : State) (d : Side) (c : BitVec 8), c.toNat < 0x80 → Traps (.trap d c) d 0x01#8 s) ∧
  (∀ s : State, Traps .illegalInstruction s.side 0x01#8 s) ∧
  (∀ s : State, Traps .executeData s.side 0x02#8 s) ∧
  (∀ (s : State) (core : Nat), (s.core core).mode = .run → 65536 ≤ (s.core core).blockedFor →
    Runs (.queueDeadlock core) s (s.takeKill core .a 0x04#8 0#32)) ∧
  (∀ (s : State) (core : Nat), (s.core core).mode ≠ .run ∨ (s.core core).blockedFor < 65536 → Runs (.queueDeadlock core) s s)

/-- R32, R257, R259, R264, R268, R270: a trap of fate Kill writes the trap record into the kernel's record area, begins the kernel's death, stops
both sequencers of its core, and leaves the registers, every other core and memory as they were. A translate miss suspends its task: PEND
clears and a save of the whole task starts, with the word unissued; a task without a usable frame cannot be saved and raises 0x14. -/
def Obligations.TakingATrap : Prop :=
  (∀ (s : State) (c : Nat) (d : Side) (cause : BitVec 8) (k : Kernel), cause ≠ 0x10#8 → (s.core c).mode ≠ .stopped →
    s.kernel (s.task c).kid = some k → k.dying = none → k.area.length < 2 ^ k.recLog →
    let t := s.takeTrap c d cause
    (t.core c).mode = .stopped ∧ (∀ n, n ≠ c → t.core n = s.core n) ∧ t.mem = s.mem ∧
    (∀ n, (t.task c).areg n = (s.task c).areg n ∧ (t.task c).sreg n = (s.task c).sreg n ∧ (t.task c).mask n = (s.task c).mask n) ∧
    SameSystem (s.task c) (t.task c) ∧ SameOutside s t ∧
    ∃ (k' : Kernel) (r : AreaRec), t.kernel (s.task c).kid = some k' ∧ k'.area = k.area ++ [r] ∧ k'.dropped = k.dropped ∧
      (∃ x, k'.dying = some x ∧ x.core = c ∧ x.cause = cause ∧ x.swept = false ∧ x.since = s.cyc) ∧
      r.words.w0.toNat % 2 ^ 8 = 2 ∧ r.words.w0.toNat / 2 ^ 8 % 2 ^ 8 = cause.toNat ∧
      r.words.w0.toNat / 2 ^ 16 % 2 ^ 20 = (s.task c).kid % 2 ^ 20 ∧ r.words.w0.toNat / 2 ^ 36 % 2 ^ 9 = c % 2 ^ 9 ∧
      r.words.w0.toNat / 2 ^ 45 = (if d = .x then 1 else 0) ∧
      r.words.w1.toNat = (s.task c).seqX.pc.toNat % 2 ^ 22 * 2 ^ 32 + (s.task c).seqA.pc.toNat % 2 ^ 22 ∧
      r.words.w2 = (s.curWord c d).setWidth 64 ∧ r.words.w3 = s.cyc) ∧
  (∀ (s : State) (c : Nat) (d : Side), (s.core c).mode ≠ .stopped → (s.task c).frameOk = true →
    let t := s.takeTrap c d 0x10#8
    (t.core c).mode = .save true ∧ (t.task c).yreq = (s.task c).yreq &&& ~~~1#42 ∧ (t.seq c d).pc = (s.seq c d).pc ∧
    (∀ n, n ≠ c → t.core n = s.core n) ∧ t.mem = s.mem ∧ t.kernels = s.kernels ∧ SameOutside s t ∧
    (∀ n, (t.task c).areg n = (s.task c).areg n ∧ (t.task c).sreg n = (s.task c).sreg n)) ∧
  (∀ (s : State) (c : Nat) (d : Side), (s.core c).mode ≠ .stopped → (s.task c).frameOk = false →
    s.takeTrap c d 0x10#8 = ((s.setSeq c d { s.seq c d with issued := true }).takeKill c d 0x14#8 0#32).weakDeath c) ∧
  -- of two kill traps of a task in one cycle the lower cause is reported, A's of equal ones; any outranks the 0x14 of a suspension
  (∀ (s : State) (c : Nat) (d : Side) (cause : BitVec 8) (k : Kernel) (x : Death), cause ≠ 0x10#8 → (s.core c).mode = .stopped →
    s.kernel (s.task c).kid = some k → k.dying = some x → x.core = c → x.since = s.cyc →
    let t := s.setSeq c d { s.seq c d with issued := true }
    let wins := x.weak = true ∨ cause.toNat < x.cause.toNat ∨ (cause = x.cause ∧ d = .a)
    (wins → ∃ k', (s.takeTrap c d cause).kernel (s.task c).kid = some k' ∧ k'.dying = some { x with cause := cause, weak := false } ∧
      k'.area.length = k.area.length) ∧
    (¬wins → s.takeTrap c d cause = t))

/-- R15, R17, R30, R81: completing a word counts the cycle's issue and, for a B word, one mark; the counter goes on to the next own word, or back
to the body of an active loop that ends on the way. The next own word is the first word at or after a place that is the sequencer's own
or tagged B, passing over the other side's words and over DATA headers with their bodies; past the last word it is at the text's length.
That the counter stands on the next own word is the model's (log 27). -/
def Obligations.CompletedWordsAdvance : Prop :=
  (∀ (s : State) (c : Nat) (d : Side) (m : Bool) (k : Kernel), s.kernel (s.task c).kid = some k → (s.seq c d).order = [] →
    let q := s.seq c d
    s.retire c d m = s.setSeq c d { q with
      issued := true, blocked := false, flushing := none, waiting := false, ewait := .idle, held := none, marks := if m then q.marks + 1#32 else q.marks,
      pc := BitVec.ofNat 32 (s.ownFrom k d (q.pc.toNat + 1)) }) ∧
  (∀ (s : State) (c : Nat) (d : Side) (m : Bool) (g : Nat),
    let q := s.seq c d
    s.retireTo c d g m = s.setSeq c d { q with
      issued := true, blocked := false, flushing := none, waiting := false, ewait := .idle, held := none, marks := if m then q.marks + 1#32 else q.marks,
      pc := BitVec.ofNat 32 g }) ∧
  (∀ (s : State) (c : Nat) (d : Side) (m : Bool) (k : Kernel) (n : Nat) (l : LoopCtr), s.kernel (s.task c).kid = some k →
    (s.seq c d).order = [n] → (s.seq c d).lc[n]? = some l → (s.seq c d).pc.toNat ≤ l.last.toNat →
    l.last.toNat < s.ownFrom k d ((s.seq c d).pc.toNat + 1) →
    (1 < l.count.toNat → ((s.retire c d m).seq c d).pc = l.start ∧
      ((s.retire c d m).seq c d).lc[n]? = some { l with count := l.count - 1#32 } ∧ ((s.retire c d m).seq c d).order = [n]) ∧
    (l.count.toNat ≤ 1 → ((s.retire c d m).seq c d).pc = BitVec.ofNat 32 (s.ownFrom k d ((s.seq c d).pc.toNat + 1)) ∧
      ((s.retire c d m).seq c d).lc[n]? = some { l with count := 0#32, active := false } ∧ ((s.retire c d m).seq c d).order = [])) ∧
  -- of several active loops that end on the way the lowest end comes first, of equal ends the loop set up last
  (∀ (s : State) (c : Nat) (d : Side) (m : Bool) (k : Kernel) (n : Nat) (l : LoopCtr) (later earlier : List Nat),
    s.kernel (s.task c).kid = some k →
    let q := s.seq c d
    let hi := s.ownFrom k d (q.pc.toNat + 1)
    let last (j : Nat) := (q.lc[j]?.getD LoopCtr.reset).last.toNat
    q.order = later ++ n :: earlier → q.order.Nodup → q.order.length ≤ 3 → q.lc[n]? = some l → q.pc.toNat ≤ l.last.toNat → l.last.toNat < hi →
    (∀ j ∈ later, q.pc.toNat ≤ last j → last j < hi → l.last.toNat < last j) →
    (∀ j ∈ earlier, q.pc.toNat ≤ last j → last j < hi → l.last.toNat ≤ last j) →
    let u := (s.retire c d m).seq c d
    (1 < l.count.toNat → u.pc = l.start ∧ u.order = n :: earlier ∧ u.lc[n]? = some { l with count := l.count - 1#32 } ∧
      (∀ j ∈ later, ∀ x, q.lc[j]? = some x → u.lc[j]? = some { x with count := 0#32, active := false }) ∧
      (∀ j ∈ earlier, u.lc[j]? = q.lc[j]?)) ∧
    (l.count.toNat ≤ 1 → s.retire c d m = (s.setSeq c d { q with
      lc := q.lc.setIfInBounds n { l with count := 0#32, active := false }, order := later ++ earlier }).retire c d m)) ∧
  (∀ (s : State) (k : Kernel) (d : Side) (i : Nat), i ≤ k.textLen →
    i ≤ s.ownFrom k d i ∧ s.ownFrom k d i ≤ k.textLen ∧
    (∀ j, i ≤ j → j < s.ownFrom k d i → k.isData j = true ∨ ownWord d (s.textWord k j) = false) ∧
    (s.ownFrom k d i < k.textLen →
      k.isData (s.ownFrom k d i) = false ∧ ownWord d (s.textWord k (s.ownFrom k d i)) = true))

/-! Control. -/

/-- R29, R41, R74 to R77, R279: private branches and computed jumps; branches that both sequencers follow. -/
def Obligations.BranchesAndJumps : Prop :=
  PrivateBranch .bpa .a ∧ PrivateBranch .bpx .x ∧
  (∀ (s t : State) (d : Side) (fa : BitVec 6) (off : BitVec 12) (x : Word64) (k : Kernel), wellFormed (.jmpi d fa off) = true →
    s.readOp s.cur d fa = .ok (x, t) → s.kernel (s.task s.cur).kid = some k →
    let g := (x + off.signExtend 64).toNat
    (g < k.textLen → k.interval g = k.interval (s.seq s.cur d).pc.toNat → k.isData g = false →
      Runs (.jmpi d fa off) s (t.retireTo s.cur d g)) ∧
    (g < k.textLen → k.interval g = k.interval (s.seq s.cur d).pc.toNat → k.isData g = true → Traps (.jmpi d fa off) d 0x02#8 s) ∧
    (k.textLen ≤ g ∨ k.interval g ≠ k.interval (s.seq s.cur d).pc.toNat → Traps (.jmpi d fa off) d 0x03#8 s)) ∧
  (∀ (s : State) (off : BitVec 24),
    Runs (.b off) s (s.retireTo s.cur s.side ((s.seq s.cur s.side).pc + off.signExtend 32).toNat true)) ∧
  (∀ (fd cc : BitVec 6) (off : BitVec 12),
    SharedBranch (.brx fd cc off) .x (fun s => condition cc ((s.task s.cur).sreg fd.toNat)) (off.signExtend 32)) ∧
  (∀ (s : State) (fd cc : BitVec 6) (off : BitVec 12), (s.task s.cur).await fd.toNat = .none → wellFormed (.bra fd cc off) = true →
    s.side = .a → (s.seq s.cur .a).bq.length < 64 →
    (condition cc ((s.task s.cur).areg fd.toNat) →
      Runs (.bra fd cc off) s ((pushedOutcome s .a 1#32).retireTo s.cur .a ((s.seq s.cur .a).pc + off.signExtend 32).toNat true)) ∧
    (¬condition cc ((s.task s.cur).areg fd.toNat) → Runs (.bra fd cc off) s ((pushedOutcome s .a 0#32).retire s.cur .a true))) ∧
  (∀ (s : State) (fd cc : BitVec 6) (off : BitVec 12) (v : BitVec 32) (rest : List (BitVec 32)), wellFormed (.bra fd cc off) = true →
    s.side = .x → (s.seq s.cur .a).bq = v :: rest → (s.seq s.cur .a).bqFresh < rest.length + 1 →
    Runs (.bra fd cc off) s (if v = 1#32
      then (poppedOutcome s .a).retireTo s.cur .x ((s.seq s.cur .x).pc + off.signExtend 32).toNat true
      else (poppedOutcome s .a).retire s.cur .x true)) ∧
  (∀ off : BitVec 24, SharedBranch (.ychk off) .a (fun s => (s.task s.cur).yreq.getLsbD 0 = true ∧ (s.task s.cur).yseen = true) (off.signExtend 32)) ∧
  (∀ (s : State) (c : Nat), (s.tick.task c).yseen = (s.task c).yreq.getLsbD 0)

/-- R29, R78 to R82, R154, R155, R161, R170, R306: CALL pushes the offset of the word after it, moving the oldest of 16 entries out to the return
area, or, that full, through SPK behind SPOV; RET pops, or refills from there, and goes on as though the word before the entry had
completed; what has no place or no entry traps 0x06 or 0x07 with no effect, TKS too; a held overflow access stalls. LOOP in its three
forms. A spilled entry goes home at once (log 24); a LOOP of count 0 drops its counter (log 29); the entry of a CALL at word 2^22 - 1: log
79; a body that begins with a DATA header: log 80; what a stall leaves in the blocked mark: log 16. -/
def Obligations.CallsAndLoops : Prop :=
  (∀ (s : State) (off : BitVec 24),
    let q := s.seq s.cur s.side
    q.ret.length < 16 →
    Runs (.call off) s ((s.setSeq s.cur s.side { q with ret := (q.pc + 1#32).setWidth 22 :: q.ret }).retireTo s.cur s.side
      (q.pc + off.signExtend 32).toNat true)) ∧
  (∀ (s : State) (off : BitVec 24) (e : BitVec 22) (r : List (BitVec 22)),
    let q := s.seq s.cur s.side
    let a := poolBase s.cur + returnArea s.side + 4 * q.spilled
    q.ret = r ++ [e] → r.length = 15 → pwSpill (s.task s.cur).partw ≠ 0 → q.spilled < 2048 →
    Runs (.call off) s (((s.writeRun a (bytesOf 4 e.toNat)).setSeq s.cur s.side
      { q with ret := (q.pc + 1#32).setWidth 22 :: r, spilled := q.spilled + 1 }).retireTo s.cur s.side
      (q.pc + off.signExtend 32).toNat true)) ∧
  (∀ (s : State) (off : BitVec 24),
    let q := s.seq s.cur s.side
    16 ≤ q.ret.length → pwSpill (s.task s.cur).partw = 0 ∨ 2048 ≤ q.spilled → handleIndex (s.task s.cur).spk = 0 →
    Traps (.call off) s.side 0x06#8 s) ∧
  (∀ (s : State) (e : BitVec 22) (r : List (BitVec 22)),
    let q := s.seq s.cur s.side
    q.ret = e :: r →
    Runs .ret s (((s.setSeq s.cur s.side { q with ret := r }).completed s.cur s.side true).fallFrom s.cur s.side (e.toNat - 1))) ∧
  (∀ s : State,
    let q := s.seq s.cur s.side
    let e := s.readNat (poolBase s.cur + returnArea s.side + 4 * (q.spilled - 1)) 4
    q.ret = [] → pwSpill (s.task s.cur).partw ≠ 0 → 0 < q.spilled → q.spilled ≤ 2048 → e < 2 ^ 22 →
    Runs .ret s (((s.setSeq s.cur s.side { q with spilled := q.spilled - 1 }).completed s.cur s.side true).fallFrom s.cur s.side
      (e - 1))) ∧
  (∀ s : State, (s.seq s.cur s.side).ret = [] → (s.seq s.cur s.side).spilled = 0 → Traps .ret s.side 0x07#8 s) ∧
  -- the overflow behind SPK and SPOV: what the check of the four bytes answers decides
  (∀ (s : State) (off : BitVec 24) (e : BitVec 22) (r : List (BitVec 22)),
    let q := s.seq s.cur s.side
    let t := s.task s.cur
    let place := overflowAt t s.side q.spilled
    let check := s.tokenCheck t.ctx t.spk place 4 true
    let done (u : State) : State := (u.setSeq s.cur s.side
      { q with ret := (q.pc + 1#32).setWidth 22 :: r, spilled := q.spilled + 1 }).retireTo s.cur s.side (q.pc + off.signExtend 32).toNat true
    q.ret = r ++ [e] → r.length = 15 → areaHolds t ≤ q.spilled →
    (∀ i b, check = .done (some i) 4 b → (s.entry t.ctx i).infl < 2 ^ 19 - 1 →
      (s.inWakeWindow s.cur i place 4 = true → Runs (.call off) s (done (s.addTks s.cur 2#6))) ∧
      (s.inWakeWindow s.cur i place 4 = false →
        (∀ u, s.logDirty t.part s.cur t.ctx i place 4 = .ok u →
          Runs (.call off) s (done (u.writeCells ((u.pieces t.ctx i place 4).flatMap (fun p => p.bytes.map (fun b =>
            (b.2, BitVec.ofNat 8 (e.toNat / 2 ^ (8 * b.1))))))))) ∧
        (∀ part who, s.logDirty t.part s.cur t.ctx i place 4 = .error (.hold part who) →
          Runs (.call off) s ((s.holdWriter part who).setSeq s.cur s.side { (s.holdWriter part who).seq s.cur s.side with blocked := false })))) ∧
    OverflowStops (.call off) s check) ∧
  (∀ s : State,
    let q := s.seq s.cur s.side
    let t := s.task s.cur
    let place := overflowAt t s.side (q.spilled - 1)
    let check := s.tokenCheck t.ctx t.spk place 4 false
    q.ret = [] → areaHolds t < q.spilled →
    (∀ i b, check = .done (some i) 4 b → (s.entry t.ctx i).infl < 2 ^ 19 - 1 →
      Runs .ret s (((s.setSeq s.cur s.side { q with spilled := q.spilled - 1 }).completed s.cur s.side true).fallFrom s.cur s.side
        ((s.readNow s.cur i place 4).toNat % 2 ^ 22 - 1))) ∧
    OverflowStops .ret s check) ∧
  (∀ (s : State) (l n : BitVec 6) (e : BitVec 12), wellFormed (.loop l n e) = true →
    LoopSet (.loop l n e) s.side s s l.toNat (n.setWidth 32 + 1#32) e.toNat) ∧
  RegisterLoop .loopS .x Task.sreg ∧ RegisterLoop .loopA .a Task.areg

/-! Tokens and memory. -/

/-- R85, R160, R161, R163: what TokenCheck finds of a handle; the 32 bytes of an entry, which stand in the table's place in the near tier.
That reads of the place show them is the model's (log 6), and the dead outcome of a FREEING entry whose generation matches (log 96). -/
def Obligations.TokenChecks : Prop :=
  (∀ (s : State) (ctx : Nat) (h : Word32) (off n : Nat) (wr : Bool),
    let i := h.toNat % 2 ^ 20
    let e := s.entry ctx i
    (i = 0 ∨ s.inTable ctx i = false → s.tokenCheck ctx h off n wr = .done none 0 8#6) ∧
    (i ≠ 0 → s.inTable ctx i = true → e.gen.toNat ≠ h.toNat / 2 ^ 20 → s.tokenCheck ctx h off n wr = .done none 0 4#6) ∧
    (i ≠ 0 → s.inTable ctx i = true → e.gen.toNat = h.toNat / 2 ^ 20 →
      (e.state = .quiescing ∨ e.state = .held → s.tokenCheck ctx h off n wr = .held) ∧
      (e.state = .dead ∨ e.state = .free ∨ e.state = .freeing ∨ e.state = .quarantined → s.tokenCheck ctx h off n wr = .done none 0 8#6) ∧
      (e.state = .active → wr = true → e.w = false → s.tokenCheck ctx h off n wr = .done none 0 2#6) ∧
      (e.state = .active → (wr = true → e.w = true) →
        s.tokenCheck ctx h off n wr = .done (some i) (min n (e.len - off)) (if e.len < off + n ∧ 0 < n then 1#6 else 0#6)))) ∧
  (∀ (e : PetEntry) (l : Nat), e.cls < 4 → e.tier < 4 → e.infl < 2 ^ 19 → e.len ≤ 2 ^ 32 →
    let list := match e.origin with
      | .translated => l + 8 * e.base
      | .anonymous => e.base
      | .scratchpad => e.base - poolBase e.core
    let w := e.word l
    list < 2 ^ 48 →
    bitsAt w 0 3 = (match e.state with
      | .free => 0 | .active => 1 | .quiescing => 2 | .held => 3 | .dead => 4 | .freeing => 5 | .quarantined => 6) ∧
    bitsAt w 3 2 = (match e.origin with | .translated => 0 | .anonymous => 1 | .scratchpad => 2) ∧
    bitsAt w 5 1 = e.r.toNat ∧ bitsAt w 6 1 = e.w.toNat ∧ bitsAt w 7 1 = e.priv.toNat ∧ bitsAt w 8 1 = e.cmp.toNat ∧
    bitsAt w 9 2 = e.cls ∧ bitsAt w 11 2 = e.tier ∧ bitsAt w 13 12 = e.gen.toNat ∧ bitsAt w 25 20 = e.kid % 2 ^ 20 ∧
    bitsAt w 45 19 = e.infl ∧ bitsAt w 64 33 = e.len ∧ bitsAt w 97 31 = 0 ∧ bitsAt w 128 48 = list ∧ bitsAt w 176 16 = 0 ∧
    bitsAt w 192 64 = e.va.toNat) ∧
  (∀ (s : State) (ctx i j : Nat) (x : Context), s.contexts = [(ctx, x)] → i < x.petSize → j < 32 → x.petAt + 32 * x.petSize ≤ Config.remoteBase →
    s.homeByte (x.petAt + 32 * i + j) = BitVec.ofNat 8 ((x.entry i).word x.listAt / 2 ^ (8 * j)))

/-- R85, R86, R87, R189, R192, R197: LDS, LDV and LDQ. -/
def Obligations.LoadsGoIntoFlight : Prop :=
  Loads .lds (fun i x => (x.toNat + 8 * i.toNat) % 2 ^ 64 / 8 * 8) 8 true ∧
  Loads .ldv (fun i x => (x.toNat + 256 * i.toNat) % 2 ^ 64 / 256 * 256) 4096 true ∧
  Loads .ldq (fun i x => (x.toNat + 256 * i.toNat) % 2 ^ 64 / 256 * 256) 4096 false

/-- R85 to R88, R170, R174, R189, R190, R192, R197, R253, R289, R306, R321, R322: STS, STV and STQ; the queue is popped even where the store is
dropped. The model's own: pages are logged one after another, the write is made once all are logged, and a word whose pages the dirty
log cannot take yet stays and owes its write (log 30); a store waits for its rows before it counts (log 87); the row port of slow stores is
log 71, the place of wake windows and of other packages log 4, the line of waiting writers log 30, the FRAME that an entry of the log holds log 31. -/
def Obligations.StoresEnterThePendingSet : Prop :=
  (∀ (s t : State) (k : BitVec 4) (d o : BitVec 6) (i : BitVec 8) (x : Word64), MemReady s (.sts k d o i) k → (s.task s.cur).owed = none →
    (s.task s.cur).await o.toNat = .none → s.readOp s.cur .a d = .ok (x, t) →
    let off := (((s.task s.cur).areg o.toNat).toNat + 8 * i.toNat) % 2 ^ 64 / 8 * 8
    StoresOver (.sts k d o i) s t ((s.task s.cur).kreg k) off 8 x.toNat true false ∧
    (∀ (e a : Nat) (p : Piece) (v : State) (left : List (Nat × Nat)), Reaches t s.cur ((s.task s.cur).kreg k) true e →
      let u := t.addTks s.cur 0#6
      inside t s.cur e off 8 = 8 → u.inWakeWindow s.cur e off 8 = true → (u.pieces (u.task s.cur).ctx e off 8).head? = some p →
      p.bytes.head?.map (·.2) = some a → StoreFree (u.task s.cur) p.row u.fresh → Logs (counted u s.cur e) s.cur e [(off, 8)] v left →
      let reg := if Config.wakeBase ≤ a then (a - Config.wakeBase) % 65536 / 8 else (a - Config.remoteBase) / 8
      let w : Store := ⟨p.row, [], false, (u.task s.cur).ctx, e, u.fresh, some (reg, x)⟩
      Runs (.sts k d o i) s (owing v s.cur u.fresh e left (.stores [w]) (fun t => { t with stores := t.stores ++ [w] })))) ∧
  (∀ (s t : State) (k : BitVec 4) (d o : BitVec 6) (i : BitVec 8) (img : Image), MemReady s (.stv k d o i) k → (s.task s.cur).owed = none →
    (s.task s.cur).await o.toNat = .none → s.popVector s.cur (d.toNat - 32) = .ok (img, t) →
    StoresOver (.stv k d o i) s t ((s.task s.cur).kreg k)
      ((((s.task s.cur).areg o.toNat).toNat + 256 * i.toNat) % 2 ^ 64 / 256 * 256) 4096 img.toNat false true) ∧
  (∀ (s t : State) (k : BitVec 4) (d o : BitVec 6) (i : BitVec 8) (img : Image), MemReady s (.stq k d o i) k → (s.task s.cur).owed = none →
    (s.task s.cur).await o.toNat = .none → s.popVector s.cur (d.toNat - 32) = .ok (img, t) →
    StoresOver (.stq k d o i) s t ((s.task s.cur).kreg k)
      ((((s.task s.cur).areg o.toNat).toNat + 256 * i.toNat) % 2 ^ 64 / 256 * 256) 4096 img.toNat false false) ∧
  -- what a word still owes
  (∀ (k : BitVec 4) (d o : BitVec 6) (i : BitVec 8), PaysOwed (.sts k d o i) ∧ PaysOwed (.stv k d o i) ∧ PaysOwed (.stq k d o i)) ∧
  (∀ (s : State) (c e : Nat), Logs s c e [] s []) ∧
  (∀ (s u v : State) (c e off n : Nat) (l left : List (Nat × Nat)),
    s.logPages (s.task c).part c (s.pagesOf (s.task c).ctx e off n) = .ok (u, false) →
    u.logRanges (s.task c).part c (s.task c).ctx e l = .ok (v, left) → Logs s c e ((off, n) :: l) v left) ∧
  (∀ (s u : State) (c e off n : Nat) (l : List (Nat × Nat)),
    s.logPages (s.task c).part c (s.pagesOf (s.task c).ctx e off n) = .ok (u, true) → Logs s c e ((off, n) :: l) u ((off, n) :: l)) ∧
  -- pages one after another: a page that is logged already, or takes its place in the ring, and one at which the writer waits in its line
  (∀ (s : State) (part who : Nat), s.logPages part who [] =
    .ok (if (s.partOf part).dirtyHeld.contains who then s.unhold part [who] else s, false)) ∧
  (∀ (s u : State) (part who : Nat) (f : Frame) (l : List Frame), s.logPage part who f = .ok u → s.logPages part who (f :: l) = u.logPages part who l) ∧
  (∀ (s : State) (part who : Nat) (f : Frame) (l : List Frame), s.logPage part who f = .error (.hold part who) →
    s.logPages part who (f :: l) = .ok (s.holdWriter part who, true)) ∧
  (∀ (s : State) (part who : Nat) (f : Frame), f.leaf = none ∨ f.dte = false ∨ f.dirty = true ∨ (s.partOf part).dlb.toNat % 2 ^ 5 = 0 →
    s.logPage part who f = .ok s) ∧
  (∀ (s : State) (part who leaf : Nat) (f : Frame),
    let p := s.partOf part
    let log := p.dlb.toNat % 2 ^ 5
    f.leaf = some leaf → f.dte = true → f.dirty = false → log ≠ 0 →
    (p.dlh.toNat = (p.dltSeen.toNat + 2 ^ log) % 2 ^ 32 ∨ (∃ w l, p.dirtyHeld = w :: l ∧ w ≠ who) →
      s.logPage part who f = .error (.hold part who)) ∧
    (p.dlh.toNat ≠ (p.dltSeen.toNat + 2 ^ log) % 2 ^ 32 → (∀ w l, p.dirtyHeld = w :: l → w = who) →
      let a := 4096 * (p.dlb.toNat / 2 ^ 12 % 2 ^ 36) + 8 * (p.dlh.toNat % 2 ^ log)
      (place s.nstr a).isSome = true → leaf + 1 < a ∨ a + 8 ≤ leaf + 1 → ∃ t, s.logPage part who f = .ok t ∧ (t.partOf part).dlh = p.dlh + 1#32 ∧
        (∀ i, i < 8 → t.mem.read (a + i) =
          BitVec.ofNat 8 ((65536 * f.index + (if f.size = 2 ^ 21 then 1 else 0)) / 2 ^ (8 * i))) ∧
        t.mem.read (leaf + 1) = s.mem.read (leaf + 1) ||| 4#8 ∧
        (∀ b, (b < a ∨ a + 8 ≤ b) → b ≠ leaf + 1 → t.mem.read b = s.mem.read b)))

/-- R170, R189 to R192, R199, R306: LDG and STG: each lane names four bytes through its offset; lanes that fail their check are left out. What
STG owes of its pages is the model's (log 30); its row port is log 71, the wake window's place log 4, the wait for rows log 87. -/
def Obligations.GatherAndScatter : Prop :=
  (∀ (offs : Image) (l o : Nat), (l, o) ∈ lanesOf offs ↔ takingPart offs l o) ∧
  (∀ (s t : State) (k : BitVec 4) (d o : BitVec 6) (offs : Image) (e : Nat), MemReady s (.ldg k d o) k → DestReady s d →
    s.popVector s.cur (o.toNat - 32) = .ok (offs, t) →
    let h := (s.task s.cur).kreg k
    Reaches t s.cur h false e →
    let r := t.checkLanes s.cur h false (lanesOf offs)
    let slow := decide (2 ≤ timed t s.cur e)
    let u := t.addTks s.cur r.2
    let u := if slow then u.addStat s.cur 1#7 else u
    Runs (.ldg k d o) s ((inFlight u (some e)
      (r.1.flatMap (fun x => t.lanePieces s.cur x.2.2.2 x.2.1 x.2.2.1 (4 * x.1))) d slow).retire s.cur .a)) ∧
  (∀ (s t u : State) (k : BitVec 4) (d o : BitVec 6) (data offs : Image) (e : Nat) (v : State) (left : List (Nat × Nat)),
    MemReady s (.stg k d o) k → (s.task s.cur).owed = none → s.popVector s.cur (d.toNat - 32) = .ok (data, t) → t.popVector s.cur (o.toNat - 32) = .ok (offs, u) →
    let h := (s.task s.cur).kreg k
    Reaches u s.cur h true e →
    let r := u.checkLanes s.cur h true (lanesOf offs)
    -- lanes in a wake window are left out, with TKS.PERM
    let keep := r.1.filter (fun x => !(u.addTks s.cur r.2).inWakeWindow s.cur x.2.2.2 x.2.1 x.2.2.1)
    let v0 := u.addTks s.cur r.2
    let w := slowly (if keep = r.1 then v0 else v0.addTks s.cur 2#6) s.cur s.fresh (timed u s.cur e == 3) true
    let ps := keep.flatMap (fun x => w.lanePieces s.cur e x.2.1 x.2.2.1 (4 * x.1))
    ps ≠ [] → (∀ p ∈ ps, StoreFree (w.task s.cur) p.row w.fresh) →
    Logs (counted w s.cur e) s.cur e (keep.map (fun x => (x.2.1, x.2.2.1))) v left →
    Runs (.stg k d o) s (owing v s.cur w.fresh e left (.stores (entriesOf w s.cur e ps data.toNat))
      (fun t => { t with stores := t.stores ++ entriesOf w s.cur e ps data.toNat }))) ∧
  (∀ (k : BitVec 4) (d o : BitVec 6), PaysOwed (.stg k d o)) ∧
  -- where no lane has a byte to store, only the status is set
  (∀ (s t u : State) (k : BitVec 4) (d o : BitVec 6) (data offs : Image) (e : Nat), MemReady s (.stg k d o) k → (s.task s.cur).owed = none →
    s.popVector s.cur (d.toNat - 32) = .ok (data, t) → t.popVector s.cur (o.toNat - 32) = .ok (offs, u) →
    Reaches u s.cur ((s.task s.cur).kreg k) true e →
    let r := u.checkLanes s.cur ((s.task s.cur).kreg k) true (lanesOf offs)
    let v0 := u.addTks s.cur r.2
    let keep := r.1.filter (fun x => !v0.inWakeWindow s.cur x.2.2.2 x.2.1 x.2.2.1)
    (∀ x ∈ keep, x.2.2.1 = 0) →
    Runs (.stg k d o) s ((slowly (if keep = r.1 then v0 else v0.addTks s.cur 2#6) s.cur s.fresh (timed u s.cur e == 3) false).retire s.cur .a)) ∧
  (∀ (s t u : State) (k : BitVec 4) (d o : BitVec 6) (data offs : Image), MemReady s (.stg k d o) k → (s.task s.cur).owed = none →
    s.popVector s.cur (d.toNat - 32) = .ok (data, t) → t.popVector s.cur (o.toNat - 32) = .ok (offs, u) →
    handleIndex ((s.task s.cur).kreg k) = 0 →
    Runs (.stg k d o) s ((u.addTks s.cur (u.checkLanes s.cur ((s.task s.cur).kreg k) true (lanesOf offs)).2).retire s.cur .a))

/-- R170, R189, R200, R201, R306: the scalar atomics, each with its operation; the vector atomics, each with its operation and number type. What an
atomic owes of its pages is the model's (log 30); the wake window's place is log 4. -/
def Obligations.AtomicsGoIntoFlight : Prop :=
  Atomic .aadd .add ∧ Atomic .amin .min ∧ Atomic .amax .max ∧ Atomic .aand .and ∧ Atomic .aor .or ∧ Atomic .axor .xor ∧
  Atomic .axchg .xchg ∧ Atomic .acas .cas ∧
  (∀ f : BitVec 1, VectorAtomic (fun k d o => .vaadd k d o f) .add (f == 1#1)) ∧ VectorAtomic .vaor .or false ∧
  (∀ f : BitVec 1, VectorAtomic (fun k d o => .vamin k d o f) .min (f == 1#1)) ∧
  (∀ f : BitVec 1, VectorAtomic (fun k d o => .vamax k d o f) .max (f == 1#1)) ∧
  (∀ (k : BitVec 4) (d o : BitVec 6) (z : BitVec 1) (i : BitVec 7), PaysOwed (.aadd k d o z i) ∧ PaysOwed (.amin k d o z i) ∧
    PaysOwed (.amax k d o z i) ∧ PaysOwed (.aand k d o z i) ∧ PaysOwed (.aor k d o z i) ∧ PaysOwed (.axor k d o z i) ∧
    PaysOwed (.axchg k d o z i) ∧ PaysOwed (.acas k d o z i)) ∧
  (∀ (k : BitVec 4) (d o : BitVec 6) (f : BitVec 1), PaysOwed (.vaadd k d o f) ∧ PaysOwed (.vaor k d o) ∧ PaysOwed (.vamin k d o f) ∧
    PaysOwed (.vamax k d o f))

/-- R24, R87, R164, R174, R175, R177, R179, R190, R198, R253, R307: the steps of loads and stores. A pending entry goes home where no older entry
names its row, a wake entry where it is the oldest and every earlier access has taken its steps; a private one only as its task ends or is
saved, while its entry is QUIESCING, or where another that must go home waits behind it for its row (log 72). A load reads its next row as its task sees it, once no
earlier access has a step to take that it must wait for; a load whose rows are all read writes its register, or fills its slot, whose
element can be popped from the next cycle. A task's load sees, of each byte, the newest pending entry of its own that covers it, else the
byte at home. Which row's data is visible when is the model's (log 17), the order of an access's row steps (log 1), and what counts as one
row (log 26). -/
def Obligations.AccessSteps : Prop :=
  (∀ (s : State) (core i : Nat) (e : Store), (s.task core).stores[i]? = some e →
    let older : Prop := ∃ j x, j < i ∧ (s.task core).stores[j]? = some x ∧ Meet x.row e.row
    let must (x : Store) : Prop := x.priv = false ∨ (∃ b, (s.core core).mode = .save b) ∨ s.endIssued core = true ∨
      (s.entry x.ctx x.ent).state = .quiescing
    let wanted : Prop := must e ∨ ∃ j x, i < j ∧ (s.task core).stores[j]? = some x ∧ must x ∧ Meet x.row e.row
    let keep := (s.task core).stores.eraseIdx i
    let lowered (t : State) : State := if keep.any (fun x => x.acc == e.acc && x.ent == e.ent && x.ctx == e.ctx) then t
      else t.setEntry e.ctx e.ent { t.entry e.ctx e.ent with infl := (t.entry e.ctx e.ent).infl - 1 }
    let t := s.modTask core (fun t => { t with stores := keep })
    (¬older → e.wake = none → wanted → Runs (.pendingEntryDrain core i) s (lowered (t.writeCells e.cells))) ∧
    (∀ r v, e.wake = some (r, v) → i = 0 → (s.task core).busyBefore e.acc = false → e.priv = false →
      Runs (.pendingEntryDrain core i) s (lowered (t.wakeHome (s.partOfContext e.ctx) r v))) ∧
    (older ∨ ¬wanted ∨ (e.wake ≠ none ∧ (0 < i ∨ (s.task core).busyBefore e.acc = true)) →
      Runs (.pendingEntryDrain core i) s s)) ∧
  (∀ (s : State) (core i : Nat), (s.task core).stores[i]? = none → Runs (.pendingEntryDrain core i) s s) ∧
  (∀ (t : Task) (n : Nat), t.busyBefore n = true ↔
    (∃ l ∈ t.loads, l.acc < n) ∨ (∃ a ∈ t.atomics, a.acc < n) ∨ ∃ v, t.vatom = some v ∧ v.acc < n) ∧
  (∀ (s : State) (core i : Nat) (f : LoadFlight) (p : Piece) (ps : List Piece), (s.task core).loads[i]? = some f → f.todo = p :: ps →
    ((s.task core).rowBusy (f.ent.getD 0) p.row f.acc = false →
      Runs (.loadReadStep core i) s (s.setTask core { s.task core with
        loads := (s.task core).loads.set i { f with todo := ps, got := s.readPiece (s.task core).stores p f.got } })) ∧
    ((s.task core).rowBusy (f.ent.getD 0) p.row f.acc = true → Runs (.loadReadStep core i) s s)) ∧
  (∀ (s : State) (core i : Nat), (∀ f, (s.task core).loads[i]? = some f → f.todo = []) → Runs (.loadReadStep core i) s s) ∧
  (∀ (t : Task) (e n : Nat) (r : Row), t.rowBusy e r n = true ↔
    (∃ l ∈ t.loads, l.acc < n ∧ l.ent = some e ∧ ∃ p ∈ l.todo, Meet p.row r) ∨
    (∃ a ∈ t.atomics, a.acc < n ∧ ∃ p ∈ a.parts, Meet p.row r) ∨
    ∃ v, t.vatom = some v ∧ v.acc < n ∧ ∃ l ∈ v.lanes, ∃ p ∈ l.1, Meet p.row r) ∧
  (∀ (s : State) (core i : Nat) (f : LoadFlight), (s.task core).loads[i]? = some f → f.todo = [] →
    let t := s.setTask core { s.task core with loads := (s.task core).loads.eraseIdx i }
    let ctx := (s.task core).ctx
    let u := match f.ent with
      | some e => t.setEntry ctx e { t.entry ctx e with infl := (t.entry ctx e).infl - 1 }
      | none => t
    (∀ n, f.dest = .areg n → Runs (.loadDataArrival core i) s (u.modTask core (·.setAreg n (f.got.setWidth 64)))) ∧
    (∀ q j, f.dest = .slot q j → Runs (.loadDataArrival core i) s
      ((u.setPoolLine core (slotOff (s.task core).partw q j) f.got).modTask core (fun t => t.setQueue q { t.queue q with
        awaiting := (t.queue q).awaiting.filter (fun x => x != j), arrived := (t.queue q).arrived ++ [j] })))) ∧
  (∀ (s : State) (core i : Nat), (∀ f, (s.task core).loads[i]? = some f → f.todo ≠ []) → Runs (.loadDataArrival core i) s s) ∧
  -- an element whose data arrives in a cycle counts from the next: it and those behind it cannot be popped before
  (∀ (q : QState) (depth k : Nat), q.arrived.contains ((q.head + k) % depth) = true → q.ready depth ≤ k) ∧
  (∀ (s : State) (c n : Nat), n < 8 → ((s.tick.task c).queue n).arrived = [] ∧ ((s.tick.task c).queue n).awaiting = ((s.task c).queue n).awaiting) ∧
  (∀ (s : State) (l older newer : List Store) (st : Store) (a : Nat) (b : Byte), a < Config.wakeBase → inPeerWindow a = false ∨ a % 8 < 4 →
    (∀ x ∈ s.contexts, x.2.tableByte a = none) →
    ((∀ x ∈ l, ∀ c ∈ x.cells, c.1 ≠ a) → s.seenByte l a = s.mem.read a) ∧
    (l = older ++ st :: newer → (∀ x ∈ newer, ∀ c ∈ x.cells, c.1 ≠ a) → st.cells.find? (fun c => c.1 == a) = some (a, b) →
      s.seenByte l a = b))

/-- R176, R200, R201: an atomic's step drains the pending entries of its rows, reads the element at home, writes the operation's result
home, and gives its register the old value; a compare that fails writes nothing. A vector atomic steps its lowest lane. -/
def Obligations.AtomicSteps : Prop :=
  (∀ (s : State) (core i : Nat) (f : AtomicFlight), (s.task core).atomics[i]? = some f →
    (∀ p ∈ f.parts, (s.task core).rowBusy f.ent p.row f.acc = false) →
    let ctx := (s.task core).ctx
    let w := 8 * f.bytes
    let u := (s.setTask core { s.task core with atomics := (s.task core).atomics.eraseIdx i }).drainRows core f.parts
    let old := u.homeNat f.parts
    let x := f.v.toNat % 2 ^ w
    let sg (y : Nat) : Int := (BitVec.ofNat w y).toInt
    let new := match f.op with
      | .add => (old + x) % 2 ^ w
      | .min => if sg x < sg old then x else old
      | .max => if sg old < sg x then x else old
      | .and => old &&& x
      | .or => old ||| x
      | .xor => old ^^^ x
      | .xchg => x
      | .cas => if old = f.cmp.toNat % 2 ^ w then x else old
    let v := if f.op = .cas ∧ old ≠ f.cmp.toNat % 2 ^ w then u else u.writeElement f.parts new
    let v := v.setEntry ctx f.ent { v.entry ctx f.ent with infl := (v.entry ctx f.ent).infl - 1 }
    (f.bytes = 4 ∨ f.bytes = 8) → old < 2 ^ w →
    Runs (.atomicStep core i) s (v.modTask core (·.setAreg f.d (BitVec.ofInt 64 (sg old))))) ∧
  (∀ (s : State) (core : Nat) (f : VatomFlight) (ps : List Piece) (x : Word32) (r : List (List Piece × Word32)),
    (s.task core).vatom = some f → f.lanes = (ps, x) :: r → (∀ p ∈ ps, (s.task core).rowBusy f.ent p.row f.acc = false) → f.fp = false →
    let ctx := (s.task core).ctx
    let u := (s.setTask core { s.task core with vatom := if r = [] then none else some { f with lanes := r } }).drainRows core ps
    let v := (u.writeElement ps (f.op.apply 4 (u.homeNat ps) x.toNat 0)).addVst core .none
    Runs (.vectorAtomicLaneStep core) s (if r = [] then v.setEntry ctx f.ent { v.entry ctx f.ent with infl := (v.entry ctx f.ent).infl - 1 }
      else v)) ∧
  (∀ (s : State) (core : Nat) (f : VatomFlight) (ps : List Piece) (x : Word32) (r : List (List Piece × Word32)),
    (s.task core).vatom = some f → f.lanes = (ps, x) :: r → (∀ p ∈ ps, (s.task core).rowBusy f.ent p.row f.acc = false) →
    f.fp = true → ∀ g : Num.FVal → Num.FVal → Num.FVal, (f.op = .add ∧ g = Num.addF) ∨ (f.op = .min ∧ g = Num.minF) ∨ (f.op = .max ∧ g = Num.maxF) →
    let ctx := (s.task core).ctx
    let u := (s.setTask core { s.task core with vatom := if r = [] then none else some { f with lanes := r } }).drainRows core ps
    let w := Num.fpEnc Num.binary32 (g (Num.decodeF Num.binary32 (u.homeNat ps)) (Num.decodeF Num.binary32 x.toNat))
    let v := (u.writeElement ps w.1).addVst core w.2
    Runs (.vectorAtomicLaneStep core) s (if r = [] then v.setEntry ctx f.ent { v.entry ctx f.ent with infl := (v.entry ctx f.ent).infl - 1 }
      else v))

/-- R20, R22, R170, R174: the frame of the memory words of A. Whatever such a word comes to, it changes no register but an atomic's own
(which a dropped atomic zeroes), no token, mask, flag or stream, nothing of another core but which of its pool's lines are marked as written;
home memory changes only where logging a first write changes the partition's dirty log and the leaf's DIRTY bit: a store's own bytes go home
later. A stream, copy, collective or matrix word changes no register and no stream but its own, and memory only where pending stores of the
task go home before it; LEASE and UNLEASE change leases of the quad, and no memory. -/
def Obligations.MemoryWordsChangeNothingElse : Prop :=
  (∀ (i : Instr) (w : Option (BitVec 6)) (s t : State), memoryWord i = some w → Runs i s t →
    (∀ c, c ≠ s.cur → t.core c = { s.core c with written := (t.core c).written }) ∧
    (∀ n, (∀ d, w = some d → n ≠ d.toNat) → (t.task s.cur).areg n = (s.task s.cur).areg n) ∧
    (t.task s.cur).sr = (s.task s.cur).sr ∧ (t.task s.cur).m = (s.task s.cur).m ∧ (t.task s.cur).k = (s.task s.cur).k ∧
    (t.task s.cur).slipw = (s.task s.cur).slipw ∧ (t.task s.cur).zst = (s.task s.cur).zst ∧
    (t.task s.cur).streams = (s.task s.cur).streams ∧ (t.task s.cur).flags = (s.task s.cur).flags ∧
    (t.task s.cur).partw = (s.task s.cur).partw ∧ (t.task s.cur).seqX = (s.task s.cur).seqX ∧
    t.members = s.members ∧ t.records = s.records ∧ t.groups = s.groups ∧ t.shares = s.shares ∧ t.quads = s.quads ∧ t.graphs = s.graphs ∧
    (∀ a, ¬logBytes s (s.task s.cur).part a → t.mem.read a = s.mem.read a)) ∧
  (∀ (i : Instr) (n : Option (BitVec 4)) (s t : State), engineWord i = some n → Runs i s t →
    OthersMarked s t ∧ (t.task s.cur).a = (s.task s.cur).a ∧ (t.task s.cur).sr = (s.task s.cur).sr ∧ (t.task s.cur).k = (s.task s.cur).k ∧
    (t.task s.cur).m = (s.task s.cur).m ∧ (t.task s.cur).flags = (s.task s.cur).flags ∧ (t.task s.cur).vst = (s.task s.cur).vst ∧
    (t.task s.cur).zst = (s.task s.cur).zst ∧ (t.task s.cur).stat = (s.task s.cur).stat ∧ (t.task s.cur).qfmt = (s.task s.cur).qfmt ∧
    (n = none → (t.task s.cur).tks = (s.task s.cur).tks) ∧
    (∀ j, (∀ u, n = some u → j ≠ u.toNat) → (t.task s.cur).stream j = (s.task s.cur).stream j) ∧ (n = none → t.shares = s.shares) ∧
    t.partitions = s.partitions ∧ t.records = s.records ∧ t.members = s.members ∧ t.groups = s.groups ∧ t.quads = s.quads ∧
    ∀ a, (∀ e ∈ (s.task s.cur).stores, ∀ x ∈ e.cells, x.1 ≠ a) → t.mem.read a = s.mem.read a) ∧
  (∀ (i : Instr) (s t : State), i = .lease ∨ i = .unlease → Runs i s t →
    (∀ c, c ≠ s.cur → t.core c = { s.core c with task := { s.task c with lease := (t.task c).lease } } ∧
      (quadOf c ≠ quadOf s.cur → t.core c = s.core c)) ∧
    SameSystem (s.task s.cur) (t.task s.cur) ∧ (t.task s.cur).a = (s.task s.cur).a ∧ (t.task s.cur).sr = (s.task s.cur).sr ∧
    (t.task s.cur).k = (s.task s.cur).k ∧ (t.task s.cur).m = (s.task s.cur).m ∧ (t.task s.cur).streams = (s.task s.cur).streams ∧
    (t.task s.cur).flags = (s.task s.cur).flags ∧ (t.task s.cur).mq = (s.task s.cur).mq ∧ t.mem = s.mem ∧ t.contexts = s.contexts ∧
    t.partitions = s.partitions ∧ t.kernels = s.kernels ∧ t.records = s.records ∧ t.members = s.members ∧ t.groups = s.groups ∧
    t.shares = s.shares ∧ t.graphs = s.graphs ∧ t.queues = s.queues ∧ ∀ q, q ≠ quadOf s.cur → t.quad q = s.quad q)

/-! Tokens. -/

/-- R157, R158, R159, R160, R161, R193, R306, R315, R325: TRANS of a range whose walk succeeds pins an entry and answers a token and the granted
length; a length of zero answers the null token; with no entry or frame-list room it answers nothing, with TKS.PETX; a bad address, a miss,
a malformed entry and a page without the permission trap. A walk starts at the root of the address's half and goes down at most four
levels; the grant grows page by page while the pages agree, to at most the length asked for and 2^32 bytes. Constant extents: log 7; the
page-walk cache: log 22; the windows, host memory and memory of other packages that tier 3 names: log 4. -/
def Obligations.Translation : Prop :=
  (∀ (s : State) (k : BitVec 4) (d o : BitVec 6) (p w : BitVec 1), wellFormed (.trans k d o p w) = true →
    (s.task s.cur).await d.toNat = .none → (s.task s.cur).await o.toNat = .none → (s.task s.cur).awaitsName k = false →
    let t := s.task s.cur
    let va := t.areg d.toNat
    let len := t.areg o.toNat
    (va.toNat / 2 ^ 48 % 2 ^ 15 ≠ 0 → Traps (.trans k d o p w) .a 0x12#8 s) ∧
    (va.toNat / 2 ^ 48 % 2 ^ 15 = 0 →
      (len = 0#64 → Runs (.trans k d o p w) s ((s.modTask s.cur (fun t => t.writeK k 0#32)).retire s.cur .a)) ∧
      (len ≠ 0#64 →
        ((s.walk t.ctx t.part va.toNat).1 = .miss → Traps (.trans k d o p w) .a 0x10#8 s) ∧
        ((s.walk t.ctx t.part va.toNat).1 = .malformed → Traps (.trans k d o p w) .a 0x13#8 s) ∧
        (∀ q, (s.walk t.ctx t.part va.toNat).1 = .page q → q.r = false ∨ (w = 1#1 ∧ q.w = false) → Traps (.trans k d o p w) .a 0x12#8 s) ∧
        (∀ (q : Page) (fs : List Frame) (g : Nat) (u : State), s.translate t.ctx t.part va.toNat len.toNat (w == 1#1) = .ok (q, fs, g, u) →
          (∀ (x : Context) (i run : Nat), NMap.get u.contexts t.ctx = some x → u.freeEntry t.ctx = some i → x.listRoom fs.length = some run →
            let e : PetEntry := ⟨.active, .translated, true, w == 1#1, p == 1#1, q.cmp, q.cls, q.tier, (x.entry i).gen, t.kid, 0, g, fs,
              run, 0, va, t.uid, false⟩
            Runs (.trans k d o p w) s (((u.setEntry t.ctx i e).modTask s.cur (fun t =>
              (t.writeK k ((x.entry i).gen ++ BitVec.ofNat 20 i)).setAreg o.toNat (BitVec.ofNat 64 g))).retire s.cur .a)) ∧
          (u.freeEntry t.ctx = none ∨ (∃ x, NMap.get u.contexts t.ctx = some x ∧ x.listRoom fs.length = none) →
            Runs (.trans k d o p w) s (((u.addTks s.cur 32#6).modTask s.cur (fun t =>
              (t.writeK k 0#32).setAreg o.toNat 0#64)).retire s.cur .a)))))) ∧
  -- the walk: its root, then level by level
  (∀ (s : State) (ctx part va : Nat),
    (∀ x, s.constPage ctx va = none → NMap.get s.contexts ctx = some x →
      s.walk ctx part va = s.walkFrom ctx part (va % 2 ^ 48) 4 1 (if va < 2 ^ 63 then x.hostRoot else x.devRoot)) ∧
    (∀ p, s.constPage ctx va = some p → s.walk ctx part va = (if s.device.stage = .reduced then .miss else .page p, s))) ∧
  (∀ (s u : State) (ctx part va fuel level table : Nat) (x : Context) (e : BitVec 64), 1 ≤ level → level ≤ 4 →
    NMap.get s.contexts ctx = some x →
    let i := if level = 4 then va / 2 ^ 16 % 32 else va / 2 ^ (48 - 9 * level) % 512
    let n (lo len : Nat) : Nat := (e.extractLsb' lo len).toNat
    let pointer := level ≠ 4 ∧ n 2 6 = 0 ∧ n 48 16 = 0
    let r := s.walkFrom ctx part va (fuel + 1) level table
    s.tableEntry x (table + 8 * i) = (e, u) →
    (n 0 1 = 0 → r = (.miss, u)) ∧ (n 0 1 = 1 → n 1 1 = 1 → r = (u.leafAt part (table + 8 * i) e level, u)) ∧
    (n 0 1 = 1 → n 1 1 = 0 → ¬pointer → r = (.malformed, u)) ∧
    (n 0 1 = 1 → n 1 1 = 0 → pointer → r = (u.modContext ctx (fun x => { x with pwc := NMap.set x.pwc (table + 8 * i) e })).walkFrom ctx part va
      fuel (level + 1) (256 * n 8 40))) ∧
  -- an entry is read from memory, or, where the page-walk cache holds it, either as memory has it or as the cache does
  (∀ (s : State) (x : Context) (a : Nat),
    let m : BitVec 64 := BitVec.ofNat 64 (s.readNat a 8)
    (NMap.get x.pwc a = none → s.tableEntry x a = (m, s)) ∧
    (∀ v, NMap.get x.pwc a = some v → ((s.tableEntry x a).1 = v ∨ (s.tableEntry x a).1 = m))) ∧
  -- a leaf, field by field
  (∀ (s : State) (part a level : Nat) (e : BitVec 64),
    let n (lo len : Nat) : Nat := (e.extractLsb' lo len).toNat
    let size := if level = 3 then 2 ^ 21 else 2 ^ 16
    let tier := n 7 2
    let phys := if tier = 3 then windowAt part (2 ^ 16 * n 16 32) else 2 ^ 16 * n 16 32
    let good := 3 ≤ level ∧ n 48 16 = 0 ∧ n 15 1 = 0 ∧ n 5 2 = (if tier = 0 then 1 else tier) ∧ (n 11 1 = 1 → tier = 2) ∧ (n 3 1 = 1 → tier ≠ 2) ∧
      (n 12 3 ≠ 0 → tier = 0) ∧ (level = 3 → n 16 5 = 0) ∧ s.frameOk part tier phys size = true
    (¬good → s.leafAt part a e level = .malformed) ∧
    (good → s.device.stage = .reduced → tier = 1 ∨ tier = 2 → s.leafAt part a e level = .miss) ∧
    (good → s.device.stage ≠ .reduced ∨ tier = 0 ∨ tier = 3 → s.leafAt part a e level =
      .page ⟨⟨size, phys, e.getLsbD 9, n 12 3, some a, decide (tier = 3 ∧ 2 ^ 16 * n 16 32 < windowEnd), e.getLsbD 10⟩, tier, n 5 2,
        e.getLsbD 11, e.getLsbD 2, e.getLsbD 3⟩) ∧
    (∀ q, s.leafAt part a e level = .page q → q.frame.index = n 16 32)) ∧
  (∀ part i : Nat, windowAt part i = if i = 0 then Config.wakeBase + 65536 * part
    else if 2 ^ 47 ≤ i then Config.hostBase + (i - 2 ^ 47) else Config.remoteBase + i) ∧
  -- the memory that a tier names, and what a partition owns of it
  (∀ (s : State) (part tier a n : Nat),
    let o := (s.partOf part).own
    let within (b len : Nat) : Prop := b ≤ a ∧ a + n ≤ b + len
    (place s.nstr a = none ∨ place s.nstr (a + n - 1) = none → s.frameOk part tier a n = false) ∧
    (∀ c i c' j, place s.nstr a = some (.pool c i) → place s.nstr (a + n - 1) = some (.pool c' j) →
      (s.frameOk part tier a n = true ↔ tier = 0 ∧ c = c' ∧ quadOf c ∈ o.quads)) ∧
    (∀ b i b' j, place s.nstr a = some (.near b i) → place s.nstr (a + n - 1) = some (.near b' j) →
      (s.frameOk part tier a n = true ↔ tier = 1 ∧ ((∃ r ∈ o.ranges, within r.1 r.2) ∨
        ∃ r ∈ o.anon, within (nearLocal r.1 + 4096 * r.2.1) (4096 * r.2.2)))) ∧
    (∀ b i b' j, place s.nstr a = some (.far b i) → place s.nstr (a + n - 1) = some (.far b' j) →
      (s.frameOk part tier a n = true ↔ tier = 2 ∧ ∃ r ∈ o.ranges, within r.1 r.2)) ∧
    (∀ i j, place s.nstr a = some (.host i) → place s.nstr (a + n - 1) = some (.host j) →
      (s.frameOk part tier a n = true ↔ tier = 3 ∧ ∃ r ∈ o.ranges, within r.1 r.2)) ∧
    (∀ i j, place s.nstr a = some (.remote i) → place s.nstr (a + n - 1) = some (.remote j) →
      (s.frameOk part tier a n = true ↔ tier = 3 ∧
        if Config.wakeBase ≤ a then n = 65536 ∧ o.wakeRegs ≠ []
        else if a < Config.remoteBase + windowEnd then n = 65536 ∧ (a - Config.remoteBase) / 65536 - 1 ∈ (s.partOf part).packages
        else ∃ r ∈ o.ranges, within r.1 r.2))) ∧
  -- the first page and the grant
  (∀ (s u : State) (ctx part va len : Nat) (wr : Bool) (p : Page), s.walk ctx part va = (.page p, u) → p.r = true → (wr = true → p.w = true) →
    let n := min (p.frame.size - (if p.frame.size = 2 ^ 21 then va % 2 ^ 21 else va % 2 ^ 16)) len
    (∀ fs g v, u.extend ctx part va len p (2 ^ 16 + 2) [p.frame] n = .ok (fs, g, v) → s.translate ctx part va len wr = .ok (p, fs, g, v)) ∧
    (∀ e, u.extend ctx part va len p (2 ^ 16 + 2) [p.frame] n = .error e → s.translate ctx part va len wr = .error e)) ∧
  (∀ (s u : State) (ctx part va len fuel g : Nat) (first : Page) (fs : List Frame) (x : Walked), g < len → va % 2 ^ 48 + g < 2 ^ 48 →
    g + min (2 ^ 16) (len - g) ≤ 2 ^ 32 → s.walk ctx part (va + g) = (x, u) →
    let r := s.extend ctx part va len first (fuel + 1) fs g
    (x = .miss → r = .error (.trap 0x10#8 none)) ∧ (x = .malformed → r = .error (.trap 0x13#8 none)) ∧
    (∀ p, x = .page p →
      let more := min (p.frame.size - (if p.frame.size = 2 ^ 21 then (va + g) % 2 ^ 21 else (va + g) % 2 ^ 16)) (len - g)
      let agrees := p.tier = first.tier ∧ p.cls = first.cls ∧ p.cmp = first.cmp ∧ p.r = first.r ∧ p.w = first.w ∧ g + more ≤ 2 ^ 32
      (agrees → r = u.extend ctx part va len first fuel (fs ++ [p.frame]) (g + more)) ∧ (¬agrees → r = .ok (fs, g, u)))) ∧
  (∀ (s : State) (ctx part va len fuel g : Nat) (first : Page) (fs : List Frame),
    len ≤ g ∨ 2 ^ 48 ≤ va % 2 ^ 48 + g ∨ 2 ^ 32 < g + min (2 ^ 16) (len - g) → s.extend ctx part va len first fuel fs g = .ok (fs, g, s)) ∧
  (∀ (s u : State) (ctx part va len g : Nat) (wr : Bool) (p : Page) (fs : List Frame),
    s.translate ctx part va len wr = .ok (p, fs, g, u) → g ≤ len ∧ g ≤ 2 ^ 32)

/-- R87, R164, R183, R194, R195, R196, R213: TQRY, KMOV and RELQ; the free event; KMOV of a register that awaits stalls, of one that holds an
error word traps 0x31, and KMOV never looks at the entry that its handle names. What a stall leaves in the sequencer's blocked mark is
the model's (log 16), and so is that a write of an awaiting register waits for it (log 19); a free while an access is held: log 50. -/
def Obligations.TokenInstructions : Prop :=
  (∀ (s : State) (k : BitVec 4) (d : BitVec 6) (sel : BitVec 8), wellFormed (.tqry k d sel) = true → (s.task s.cur).awaitsName k = false →
    (s.task s.cur).await d.toNat = .none ∨ (s.task s.cur).await d.toNat = .error →
    let h := (s.task s.cur).kreg k
    let ctx := (s.task s.cur).ctx
    let e := s.entry ctx (handleIndex h)
    (handleIndex h ≠ 0 → s.inTable ctx (handleIndex h) = true → e.gen = handleGen h →
      e.state = .active ∨ e.state = .quiescing ∨ e.state = .held →
      Runs (.tqry k d sel) s ((s.modTask s.cur (·.setAreg d.toNat (property e sel.toNat))).retire s.cur .a)) ∧
    (handleIndex h = 0 ∨ s.inTable ctx (handleIndex h) = false ∨ e.gen ≠ handleGen h ∨
      e.state = .free ∨ e.state = .dead ∨ e.state = .freeing ∨ e.state = .quarantined →
      Runs (.tqry k d sel) s ((s.modTask s.cur (·.setAreg d.toNat (BitVec.allOnes 64))).retire s.cur .a))) ∧
  (∀ (s : State) (k : BitVec 4) (d : BitVec 6), wellFormed (.kmov k d 0#1) = true → (s.task s.cur).await d.toNat = .none →
    Runs (.kmov k d 0#1) s ((s.modTask s.cur (fun t => t.writeK k (BitVec.ofNat 32 (t.areg d.toNat).toNat))).retire s.cur .a)) ∧
  (∀ (s : State) (k : BitVec 4) (d : BitVec 6), wellFormed (.kmov k d 1#1) = true → (s.task s.cur).awaitsName k = false →
    (s.task s.cur).await d.toNat = .none ∨ (s.task s.cur).await d.toNat = .error →
    Runs (.kmov k d 1#1) s ((s.modTask s.cur (fun t => t.setAreg d.toNat (BitVec.ofNat 64 (t.kreg k).toNat))).retire s.cur .a)) ∧
  (∀ (s : State) (k : BitVec 4), (s.task s.cur).awaitsName k = false →
    let h := (s.task s.cur).kreg k
    let ctx := (s.task s.cur).ctx
    let i := handleIndex h
    let e := s.entry ctx i
    (h = 0#32 → Runs (.relq k) s (s.retire s.cur .a)) ∧
    (h ≠ 0#32 → i = 0 ∨ s.inTable ctx i = false → Runs (.relq k) s ((s.addTks s.cur 8#6).retire s.cur .a)) ∧
    (i ≠ 0 → s.inTable ctx i = true →
      (e.gen ≠ handleGen h → Runs (.relq k) s ((s.addTks s.cur 4#6).retire s.cur .a)) ∧
      (e.gen = handleGen h →
        (e.state = .free ∨ e.state = .quarantined → Runs (.relq k) s ((s.addTks s.cur 8#6).retire s.cur .a)) ∧
        (e.state ≠ .free → e.state ≠ .quarantined →
          (e.origin = .scratchpad → Runs (.relq k) s ((s.addTks s.cur 2#6).retire s.cur .a)) ∧
          (e.origin ≠ .scratchpad → WakesDue s →
            let t := s.drainWhere s.cur (fun x => x.ent == i)
            let x := t.entry ctx i
            Runs (.relq k) s ((t.setEntry ctx i (if (x.state = .active ∨ x.state = .dead) ∧ t.accessHeld ctx i = true then { x with freeLater := true }
              else x.free)).retire s.cur .a)))))) ∧
  -- the free event: FREEING and a new generation, or recorded until the revocation is over and no access is held there
  (∀ e : PetEntry,
    (e.state = .active ∨ e.state = .dead → e.free = { e with state := .freeing, gen := e.gen + 1#12 }) ∧
    (e.state = .quiescing ∨ e.state = .held → e.free = { e with freeLater := true }) ∧
    (e.state = .free ∨ e.state = .freeing ∨ e.state = .quarantined → e.free = e)) ∧
  -- a write of k is behind every earlier pending write of k, and every reader of k waits for them all
  (∀ (t : Task) (k : BitVec 4) (h : Word32), t.names = [] → t.writeK k h = { t with k := t.k.setIfInBounds k.toNat h }) ∧
  (∀ (t : Task) (k : BitVec 4) (h : Word32) (n : Nat) (m : BitVec 32), t.names = [.nst k n m] →
    t.writeK k h = { t with names := [.nst k n m, .value k h false] }) ∧
  (∀ (t : Task) (k : BitVec 4), t.awaitsName k = true ↔ ∃ x ∈ t.names, x.reg = k) ∧
  (∀ (s : State) (k : BitVec 4) (d : BitVec 6) (sel : BitVec 8), (s.task s.cur).awaitsName k = true →
    (wellFormed (.tqry k d sel) = true → Runs (.tqry k d sel) s (s.setSeq s.cur .a { s.seq s.cur .a with blocked := false })) ∧
    (wellFormed (.kmov k d 1#1) = true → Runs (.kmov k d 1#1) s (s.setSeq s.cur .a { s.seq s.cur .a with blocked := false })) ∧
    Runs (.relq k) s (s.setSeq s.cur .a { s.seq s.cur .a with blocked := false })) ∧
  -- KMOV of a register that awaits a write, or holds an error word
  (∀ (s : State) (k : BitVec 4) (d : BitVec 6), wellFormed (.kmov k d 0#1) = true →
    ((s.task s.cur).await d.toNat = .load ∨ (s.task s.cur).await d.toNat = .engine →
      Runs (.kmov k d 0#1) s (s.setSeq s.cur .a { s.seq s.cur .a with blocked := false })) ∧
    ((s.task s.cur).await d.toNat = .error → Traps (.kmov k d 0#1) .a 0x31#8 s)) ∧
  (∀ (s : State) (k : BitVec 4) (d : BitVec 6), wellFormed (.kmov k d 1#1) = true →
    (s.task s.cur).await d.toNat = .load ∨ (s.task s.cur).await d.toNat = .engine →
    Runs (.kmov k d 1#1) s (s.setSeq s.cur .a { s.seq s.cur .a with blocked := false })) ∧
  -- TQRY's register likewise; a handle moves out and in whatever its entry's state, QUIESCING and HELD too
  (∀ (s : State) (k : BitVec 4) (d : BitVec 6) (sel : BitVec 8), wellFormed (.tqry k d sel) = true →
    (s.task s.cur).await d.toNat = .load ∨ (s.task s.cur).await d.toNat = .engine →
    Runs (.tqry k d sel) s (s.setSeq s.cur .a { s.seq s.cur .a with blocked := false })) ∧
  (∀ (s : State) (k : BitVec 4) (d : BitVec 6) (e : PetEntry), wellFormed (.kmov k d 1#1) = true → (s.task s.cur).names = [] →
    (s.task s.cur).await d.toNat = .none → e.state = .quiescing ∨ e.state = .held →
    let h := (s.task s.cur).kreg k
    let u := s.setEntry (s.task s.cur).ctx (handleIndex h) e
    Runs (.kmov k d 1#1) u ((u.modTask s.cur (·.setAreg d.toNat (BitVec.ofNat 64 h.toNat))).retire s.cur .a))

/-- R168, R195, R203, R204: NST.Q pops its elements, allocates and names; NST's halves complete each in their own time, and the later
allocates, stores and gives the name. Depths that steer the choice: log 11; the run taken in a fallback stack: log 93; that widening pops
of NST.Q go on as soon as all of them can pop: log 94. -/
def Obligations.NamelessStores : Prop :=
  (∀ (s u : State) (k : BitVec 4) (d : BitVec 6) (n : BitVec 8) (imgs : List Image), wellFormed (.nstQ k d n) = true →
    n.toNat * (s.task s.cur).popNeeds (d.toNat - 32) ≤ pwDepth (s.task s.cur).partw → (s.task s.cur).vatom = none →
    s.popMany s.cur (d.toNat - 32) n.toNat = .ok (imgs, u) →
    let r := u.nameless s.cur imgs
    Runs (.nstQ k d n) s ((r.2.modTask s.cur (fun t => t.writeK k r.1 true)).retire s.cur .a)) ∧
  (∀ (s : State) (k : BitVec 4) (d : BitVec 6) (n : BitVec 8), wellFormed (.nstQ k d n) = true →
    pwDepth (s.task s.cur).partw < n.toNat * (s.task s.cur).popNeeds (d.toNat - 32) → Traps (.nstQ k d n) .a 0x01#8 s) ∧
  (∀ (s : State) (k : BitVec 4) (d : BitVec 6) (n : BitVec 8), wellFormed (.nst k d n) = true → s.side = .a →
    (∀ i, i < n.toNat → (s.task s.cur).granted (d + BitVec.ofNat 6 i) = true) →
    let mark := (s.seq s.cur .a).marks
    let t := s.modTask s.cur (fun t => { t with names := t.names ++ [NameWrite.nst k n.toNat mark] })
    ((∀ x ∈ (s.task s.cur).nstX, x.mark ≠ mark) → Runs (.nst k d n) s (t.retire s.cur .a true)) ∧
    (∀ x, (s.task s.cur).nstX.find? (fun x => x.mark == mark) = some x →
      let r := (t.modTask s.cur (fun t => { t with nstX := t.nstX.filter (fun y => y.mark != mark) })).nameless s.cur x.imgs
      Runs (.nst k d n) s ((r.2.modTask s.cur (fun t => t.nameArrived k mark r.1)).retire s.cur .a true))) ∧
  (∀ (s : State) (k : BitVec 4) (d : BitVec 6) (n : BitVec 8), wellFormed (.nst k d n) = true → s.side = .x →
    (∀ i, i < n.toNat → (s.task s.cur).granted (d + BitVec.ofNat 6 i) = true) →
    let mark := (s.seq s.cur .x).marks
    let imgs := (List.range n.toNat).map (fun i => s.vreg s.cur (d.toNat + i))
    ((s.task s.cur).nstWaiting mark = false →
      Runs (.nst k d n) s ((s.modTask s.cur (fun t => { t with nstX := t.nstX ++ [⟨k, imgs, mark⟩] })).retire s.cur .x true)) ∧
    ((s.task s.cur).nstWaiting mark = true →
      let r := s.nameless s.cur imgs
      Runs (.nst k d n) s ((r.2.modTask s.cur (fun t => t.nameArrived k mark r.1)).retire s.cur .x true))) ∧
  -- room: the entry, its granules taken and reading zero at home, and the images pending in them
  (∀ (s : State) (c i g : Nat) (imgs : List Image),
    let s' : State := { s with free := s.free + 1 }
    let t := s.task c
    let n := imgs.length
    s.device.stage ≠ .reduced → s'.freeEntry t.ctx = some i → s'.chooseRun t.part (c / 64) n = some g →
    let r := s.nameless c imgs
    let gen := (s.entry t.ctx i).gen
    r.1 = gen ++ BitVec.ofNat 20 i ∧
    r.2.entry t.ctx i = ⟨.active, .anonymous, true, true, false, false, 1, 1, gen, t.kid, 1, 4096 * n, [], 4096 * g, 0, 0#64, t.uid, false⟩ ∧
    (∀ j, j < n → g + j ∈ (r.2.partOf t.part).granules) ∧
    (∀ a, r.2.mem.read a = if 4096 * g ≤ a ∧ a < 4096 * (g + n) then 0#8 else s.mem.read a) ∧
    ∃ es, (r.2.task c).stores = t.stores ++ es ∧ (∀ e ∈ es, e.ctx = t.ctx ∧ e.ent = i ∧ e.priv = false ∧ e.wake = none) ∧
      ∀ j b img, imgs[j]? = some img → b < 4096 →
        r.2.seenByte (r.2.task c).stores (4096 * (g + j) + b) = BitVec.ofNat 8 (img.toNat / 2 ^ (8 * b))) ∧
  -- no room: the name is 0 and TKS.NSFULL is set
  (∀ (s u : State) (c : Nat) (imgs : List Image), s.allocate c imgs.length = (none, u) → s.nameless c imgs = (0#32, u.addTks c 16#6))

/-! Engines. -/

/-- R213, R219, R220, R222, R236: SBIND reads the descriptor through k0 and binds, or traps 0x22; SDROP ends a binding; both wait for the
matrix commands that name the stream. -/
def Obligations.StreamInstructions : Prop :=
  (∀ (s : State) (u v : BitVec 4) (a : BitVec 6) (e : Nat), wellFormed (.sbind u v a) = true → (s.task s.cur).awaitsName v = false →
    (s.task s.cur).await a.toNat = .none → (∀ m ∈ (s.task s.cur).mq, m.op.usesStream u.toNat = false) → (s.task s.cur).vatom = none →
    let off := ((s.task s.cur).areg a.toNat).toNat / 64 * 64
    Reaches s s.cur ((s.task s.cur).kreg 0#4) false e →
    (∀ p ∈ s.pieces (s.task s.cur).ctx e off (inside s s.cur e off 64), (s.task s.cur).rowBusy e p.row s.fresh = false) →
    let t := s.addTks s.cur (oobBit s s.cur e off 64)
    let desc : BitVec 512 := BitVec.ofNat 512 (t.readNow s.cur e off (inside s s.cur e off 64)).toNat
    (descOk desc (quadPos s.cur) = true →
      let b := (t.dropStream s.cur u.toNat).modTask s.cur (fun t => t.setStream u.toNat ⟨true, (s.task s.cur).kreg v, desc, 0, none⟩)
      Runs (.sbind u v a) s ((if desc.getLsbD 377 then b.joinShare s.cur u.toNat ((s.task s.cur).kreg v) desc else b).retire s.cur .a)) ∧
    (descOk desc (quadPos s.cur) = false → Runs (.sbind u v a) s (t.takeTrap s.cur .a 0x22#8))) ∧
  (∀ (s : State) (u : BitVec 4), (∀ m ∈ (s.task s.cur).mq, m.op.usesStream u.toNat = false) →
    Runs (.sdrop u) s ((s.dropStream s.cur u.toNat).retire s.cur .a)) ∧
  (∀ (s : State) (c n : Nat), ((s.task c).stream n).share = none →
    s.dropStream c n = s.modTask c (fun t => { t with streams := t.streams.setIfInBounds n ⟨false, 0#32, 0#512, 0, none⟩ })) ∧
  -- the checks of a descriptor, field by field
  (∀ (d : BitVec 512) (pos : Nat),
    let n (lo len : Nat) : Nat := (d.extractLsb' lo len).toNat
    let share := d.getLsbD 377
    let write := d.getLsbD 378
    let sparse := d.getLsbD 379
    descOk d pos = true ↔
      n 380 4 = 0 ∧ n 420 4 = 0 ∧ n 432 80 = 0 ∧ 1 ≤ n 368 4 ∧ n 368 4 ≤ 9 ∧
      (n 368 4 = 9 → 1 ≤ n 372 4 ∧ n 160 32 = 0 ∧ n 64 16 % 32 = 0) ∧ (n 368 4 ≠ 9 → n 372 4 = 0) ∧
      (sparse = true → write = false ∧ n 368 4 = 9) ∧
      (share = true → write = false ∧ 1 ≤ n 424 8 ∧ n 424 8 ≤ 16 ∧ d.getLsbD (416 + pos) = true ∧ pos < 4) ∧
      (sparse = false → n 384 32 = 0) ∧ (share = false → n 416 4 = 0 ∧ n 424 8 = 0))

/-- R177, R213, R214, R223, R237 to R239: COPY and COLL release the pending set, mark the completion register as awaiting and append their
command. EWAIT and ESIG of both sides: a setter waits for the commands queued before it, A's for the copy and collective queues, X's for
the matrix queue. The number kept with a hold is the model's (log 20). -/
def Obligations.CopiesCollectivesAndFlags : Prop :=
  (∀ (s : State) (a b : BitVec 6), wellFormed (.copy a b) = true → (s.task s.cur).await a.toNat = .none →
    (s.task s.cur).await b.toNat = .none ∨ (s.task s.cur).await b.toNat = .error →
    (chainsOn s (s.task s.cur).uid).length < 16 → WakesDue s →
    let t := s.task s.cur
    let u := (s.drainAll s.cur).modTask s.cur (·.setAwait b.toNat .engine)
    let h : Chain := ⟨u.fresh, t.uid, t.kid, t.ctx, t.kreg 0#4, BitVec.ofNat 64 ((t.areg a.toNat).toNat / 32 * 32), b.toNat, false, false, 0,
      [], [], none, none, false, none⟩
    Runs (.copy a b) s (({ u.setCore s.cur { u.core s.cur with chains := (u.core s.cur).chains ++ [h] } with
      fresh := u.fresh + 1 } : State).retire s.cur .a)) ∧
  Coll .collRed 0 ∧ Coll .collAr 1 ∧ Coll .collGat 2 ∧ Coll .collBc 3 ∧
  Ewait .ewait .a ∧ Ewait .ewaitX .x ∧
  (∀ (s : State) (f : BitVec 8),
    let t := s.task s.cur
    let deps := (chainsOn s t.uid).map (·.id) ++ t.cq.map (·.id)
    Runs (.esig f) s ((s.setTask s.cur (t.pushSetter f deps)).retire s.cur .a)) ∧
  (∀ (s : State) (f : BitVec 8),
    Runs (.esigX f) s ((s.setTask s.cur ((s.task s.cur).pushSetter f ((s.task s.cur).mq.map (·.id)))).retire s.cur .x)) ∧
  (∀ (t : Task) (f : BitVec 8) (deps : List Nat), t.holder f = none →
    t.pushSetter f deps = { t.setFlag f { t.flag f with pushed := (t.flag f).pushed + 1#32 } with setters := t.setters ++ [⟨f, deps⟩] })

/-- R220, R224, R225, R227, R240, R241, R245, R268: LEASE takes a free array with a fresh budget, or waits; UNLEASE passes it to the next waiting
core, and so do the end of a command that has spent the budget, the task's end and its kernel's death; a save records the state; LBUD
with its range, and MPROG. Which stalls count as blocked is the model's (log 16), and so is what a restored lease waits for (log 45). -/
def Obligations.LeaseInstructions : Prop :=
  (∀ s : State, (s.task s.cur).lease = .none → (s.quad (quadOf s.cur)).holder = none →
    Runs .lease s ((s.grantLease s.cur).retire s.cur .x)) ∧
  (∀ s : State, (s.task s.cur).lease = .none → (s.quad (quadOf s.cur)).holder ≠ none →
    Runs .lease s ((s.modTask s.cur (fun t => { t with lease := .waiting })).setSeq s.cur .x { s.seq s.cur .x with blocked := false })) ∧
  (∀ s : State, (s.task s.cur).lease = .waiting → Runs .lease s (s.setSeq s.cur .x { s.seq s.cur .x with blocked := false })) ∧
  (∀ s : State, (s.task s.cur).lease = .holding → Runs .lease s (s.retire s.cur .x)) ∧
  (∀ s : State, (s.task s.cur).lease = .none → Runs .unlease s (s.retire s.cur .x)) ∧
  (∀ s : State, (s.task s.cur).lease ≠ .none → (∀ m ∈ (s.task s.cur).mq, m.op.isArray = false) →
    Runs .unlease s ((s.releaseLease s.cur).retire s.cur .x)) ∧
  (∀ (s : State) (c : Nat), let t := s.grantLease c
    (t.quad (quadOf c)).holder = some c ∧ (t.quad (quadOf c)).budget = ((s.partOf (s.task c).part).lbud.toNat : Int) ∧
    (t.task c).lease = .holding) ∧
  (∀ (s : State) (c w : Nat), (s.quad (quadOf c)).holder = some c → s.nextWaiting (quadOf c) (quadPos c) = some w → w ≠ c → quadOf w = quadOf c →
    ((s.releaseLease c).quad (quadOf c)).holder = some w ∧ ((s.releaseLease c).task c).lease = .none ∧
    ((s.releaseLease c).task w).lease = .holding) ∧
  -- UNLEASE waits for the array commands pushed; without a core that waits the array is free; a core that only waited passes nothing on
  (∀ s : State, (s.task s.cur).lease ≠ .none → (∃ m ∈ (s.task s.cur).mq, m.op.isArray = true) →
    Runs .unlease s (s.setSeq s.cur .x { s.seq s.cur .x with blocked := false })) ∧
  (∀ (s : State) (c : Nat), (s.quad (quadOf c)).holder = some c → s.nextWaiting (quadOf c) (quadPos c) = none →
    ((s.releaseLease c).quad (quadOf c)).holder = none ∧ ((s.releaseLease c).task c).lease = .none) ∧
  (∀ (s : State) (c : Nat), (s.quad (quadOf c)).holder ≠ some c → s.releaseLease c = s.modTask c (fun t => { t with lease := .none })) ∧
  -- a task's end and its kernel's death leave the core in state NONE and pass the array on
  (∀ (s t : State) (c : Nat), t = s.endTask c ∨ t = s.stopTask c →
    (t.task c).lease = .none ∧
    (∀ w, (s.quad (quadOf c)).holder = some c → s.nextWaiting (quadOf c) (quadPos c) = some w → w ≠ c → quadOf w = quadOf c →
      (t.quad (quadOf c)).holder = some w ∧ (t.task w).lease = .holding) ∧
    ((s.quad (quadOf c)).holder = some c → s.nextWaiting (quadOf c) (quadPos c) = none → (t.quad (quadOf c)).holder = none)) ∧
  (∀ (s : State) (kid ctx c : Nat), NMap.sorted s.cores = true → (s.core c).ofKernel kid = true →
    ((s.sweep kid ctx).task c).lease = .none) ∧
  -- the next waiting core, in ascending position after a position, wrapping
  (∀ (s : State) (q pos w : Nat), s.nextWaiting q pos = some w → (s.task w).lease = .waiting ∧
    ∃ i, i < 4 ∧ w = coreAt q ((pos + 1 + i) % 4) ∧
      ∀ j, j < i → (s.task (coreAt q ((pos + 1 + j) % 4))).lease ≠ .waiting ∨ (s.core (coreAt q ((pos + 1 + j) % 4))).mode ≠ .run) ∧
  -- the end of an array command: the array passes on, or has a fresh budget, once its budget is spent; a command pushed without a lease traps
  (∀ (s : State) (core z a b : Nat) (sp : Bool) (x : Word64) (e : BitVec 16), AtHead s core (.mmul sp z a b x) e →
    (s.task core).lease = .holding → (s.task core).mstart = true → stepsOf sp x ≤ (s.task core).mstepsDone →
    let u := popped (s.setTask core { s.task core with mstart := false, mprog := mprogOf false z (s.task core).mstepsDone }) core
    (0 < (u.quad (quadOf core)).budget → Runs (.arrayCommandEnd core) s u) ∧
    (∀ w, (u.quad (quadOf core)).budget ≤ 0 → u.nextWaiting (quadOf core) (quadPos core) = some w →
      Runs (.arrayCommandEnd core) s ((u.modTask core (fun t => { t with lease := .waiting })).grantLease w)) ∧
    ((u.quad (quadOf core)).budget ≤ 0 → u.nextWaiting (quadOf core) (quadPos core) = none →
      Runs (.arrayCommandEnd core) s (u.setQuad (quadOf core) ⟨some core, u.budgetOf core⟩))) ∧
  (∀ (s : State) (core z a b : Nat) (sp : Bool) (x : Word64) (e : BitVec 16), AtHead s core (.mmul sp z a b x) e →
    (s.task core).lease ≠ .holding → Runs (.arrayCommandEnd core) s s) ∧
  Mmul .mmul false ∧ Mmul .mmuls true ∧
  -- a save records the state and gives the array up; a restored task waits for its array
  (∀ (s : State) (c : Nat), ((s.stopMatrix c).core c).keptLease = some (s.task c).lease ∧ ((s.stopMatrix c).task c).lease = .none) ∧
  (∀ (s u : State) (r : RingRec) (x : SavedTask) (j c h : Nat) (b : BitVec 6), x.ended = false → x.lines = none →
    s.engineRead r.ctx r.record.ftok ((r.record.foff + imageSize * j : Nat) : Int) 16384 = .ok (h, b) → s.beginRestore r x j c = .ok u →
    (u.task c).lease = (if (x.task.ofHeader h).lease = .none then .none else .waiting)) ∧
  -- LBUD and MPROG as RDS reads them, and MPROG at launch and over a command's steps
  (∀ (s s1 : State) (d : Side) (fd : BitVec 6),
    (wellFormed (.rds d fd 0x00E#12) = true → s.writeOp s.cur d fd ((s.partOf (s.task s.cur).part).lbud.setWidth 64) = .ok s1 →
      Runs (.rds d fd 0x00E#12) s (s1.retire s.cur d)) ∧
    (wellFormed (.rds d fd 0x00F#12) = true → s.writeOp s.cur d fd ((s.task s.cur).mprog.setWidth 64) = .ok s1 →
      Runs (.rds d fd 0x00F#12) s (s1.retire s.cur d))) ∧
  Partition.default.lbud = 65536#32 ∧
  (∀ (s : State) (p : Nat) (v : BitVec 64), s.serves = true →
    (256 ≤ v.toNat % 2 ^ 32 → v.toNat % 2 ^ 32 ≤ 2 ^ 31 →
      Runs (.parameterRegisterWrite (.lbud p) v) s (s.modPartition p (fun x => { x with lbud := v.setWidth 32 }))) ∧
    (v.toNat % 2 ^ 32 < 256 ∨ 2 ^ 31 < v.toNat % 2 ^ 32 →
      Runs (.parameterRegisterWrite (.lbud p) v) s (s.reject "PARAMETER_REGISTER_WRITE"))) ∧
  (∀ (r : RingRec) (w : BitVec 22) (uid : Nat) (ok : Bool) (doms : BitVec 52) (k0 : Word32), (launchState r w uid ok doms k0).mprog = 0#36) ∧
  (∀ (active : Bool) (z n : Nat), (mprogOf active z n).getLsbD 35 = active ∧ (mprogOf active z n).toNat / 2 ^ 32 % 8 = z % 8 ∧
    (mprogOf active z n).toNat % 2 ^ 32 = n % 2 ^ 32) ∧
  (∀ (s : State) (core z a b : Nat) (sp : Bool) (x : Word64) (e : BitVec 16), AtHead s core (.mmul sp z a b x) e →
    (s.task core).lease = .holding → (s.task core).mstart = false → x.getLsbD 40 = false →
    Runs (.arrayCommandStart core) s (s.setTask core { s.task core with mstart := true, mprog := mprogOf true z 0 })) ∧
  (∀ (s : State) (c z a b : Nat) (sp : Bool) (x : Word64) (e : Int),
    ((s.finishStep c sp z a b x e).task c).mprog = mprogOf true z ((s.task c).mstepsDone + 1))

/-- R22, R213, R220, R242 to R250: the words that append to the matrix queue, with the checks of MMUL and MMULS at issue. -/
def Obligations.MatrixInstructionsQueue : Prop :=
  (∀ (s : State) (z : BitVec 3) (a b : BitVec 4), wellFormed (.prec z a b) = true → MatrixReady s z →
    Runs (.prec z a b) s ((queued s (some z.toNat) (.prec z.toNat a b)).retire s.cur .x)) ∧
  (∀ (s : State) (z : BitVec 3), MatrixReady s z → Runs (.mclr z) s ((queued s (some z.toNat) (.mclr z.toNat)).retire s.cur .x)) ∧
  Mmul .mmul false ∧ Mmul .mmuls true ∧
  (∀ (s : State) (z : BitVec 3) (n : BitVec 4), MatrixReady s z → ((s.task s.cur).stream n.toNat).bound = true →
    (StreamDesc.ofBits ((s.task s.cur).stream n.toNat).desc).dir = false → (StreamDesc.ofBits ((s.task s.cur).stream n.toNat).desc).sparse = false →
    WakesDue s → Runs (.mld z n) s ((queued (s.drainAll s.cur) (some z.toNat) (.mld z.toNat n.toNat)).retire s.cur .x)) ∧
  (∀ (s : State) (z : BitVec 3) (n f : BitVec 4) (h : BitVec 1), wellFormed (.mst z n f h) = true → MatrixReady s z →
    ((s.task s.cur).stream n.toNat).bound = true → (StreamDesc.ofBits ((s.task s.cur).stream n.toNat).desc).dir = true →
    (StreamDesc.ofBits ((s.task s.cur).stream n.toNat).desc).fmt = f.toNat → WakesDue s →
    Runs (.mst z n f h) s ((queued (s.drainAll s.cur) (some z.toNat) (.mst z.toNat n.toNat (h == 1#1))).retire s.cur .x)) ∧
  (∀ (s : State) (z : BitVec 3) (f : BitVec 4) (q : BitVec 6) (h : BitVec 1), wellFormed (.mstQ z f q h) = true → MatrixReady s z →
    WakesDue s → Runs (.mstQ z f q h) s ((queued (s.drainAll s.cur) (some z.toNat) (.mstQ z.toNat f.toNat (q.toNat - 32) (h == 1#1) 0)).retire s.cur .x)) ∧
  (∀ s : State, (s.task s.cur).mq.length < 8 → Runs .histClr s ((queued s none .histClr).retire s.cur .x)) ∧
  (∀ (s : State) (q : BitVec 6), wellFormed (.histRd q) = true → (s.task s.cur).mq.length < 8 →
    Runs (.histRd q) s ((queued s none (.histRd (q.toNat - 32))).retire s.cur .x)) ∧
  -- what MLD and MST find wrong with their stream: unbound or of the other direction, then its kind
  (∀ (s : State) (z : BitVec 3) (n : BitVec 4), MatrixReady s z →
    let r := (s.task s.cur).stream n.toNat
    let x := StreamDesc.ofBits r.desc
    (r.bound = false ∨ x.dir = true → Traps (.mld z n) .x 0x23#8 s) ∧
    (r.bound = true → x.dir = false → x.sparse = true → Traps (.mld z n) .x 0x25#8 s)) ∧
  (∀ (s : State) (z : BitVec 3) (n f : BitVec 4) (h : BitVec 1), wellFormed (.mst z n f h) = true → MatrixReady s z →
    let r := (s.task s.cur).stream n.toNat
    let x := StreamDesc.ofBits r.desc
    (r.bound = false ∨ x.dir = false → Traps (.mst z n f h) .x 0x23#8 s) ∧
    (r.bound = true → x.dir = true → x.fmt ≠ f.toNat → Traps (.mst z n f h) .x 0x25#8 s)) ∧
  -- a tile that PARTW does not grant, or a format or queue that the word may not name, is an illegal instruction
  (∀ (s : State) (z : BitVec 3) (f : BitVec 4) (q : BitVec 6) (h : BitVec 1),
    wellFormed (.mstQ z f q h) = false ∨ pwTiles (s.task s.cur).partw ≤ z.toNat → Traps (.mstQ z f q h) .x 0x01#8 s) ∧
  (∀ (s : State) (z : BitVec 3), pwTiles (s.task s.cur).partw ≤ z.toNat → Traps (.mclr z) .x 0x01#8 s)

/-! Records. -/

/-- R112, R113, R120, R121, R144, R189, R253, R307: SPAWN reads a record as the task sees it and pushes it to the tail of its ring. JOIN sends
the pending set home, after the task's atomics, then lowers the counter at home and pushes the record where it reaches zero. A record that
fails its check traps 0x11, what was read or lowered standing; a record whose ring is full is held until it has room. A token that does
not reach the bytes leaves only TKS. That a JOIN whose page the dirty log cannot take yet stays and owes its step is the model's (log 30). -/
def Obligations.SpawnAndJoin : Prop :=
  (∀ (s : State) (k : BitVec 4) (o : BitVec 6) (i : BitVec 8), MemReady s (.spawn k o i) k → (s.task s.cur).push = none →
    (s.task s.cur).await o.toNat = .none →
    let h := (s.task s.cur).kreg k
    let off := (((s.task s.cur).areg o.toNat).toNat + 32 * i.toNat) % 2 ^ 64 / 32 * 32
    (∀ e, Reaches s s.cur h false e → inside s s.cur e off 32 = 32 →
      (∀ p ∈ s.pieces (s.task s.cur).ctx e off 32, (s.task s.cur).rowBusy e p.row s.fresh = false) →
      let t := s.addTks s.cur 0#6
      let r := recOf (t.readNow s.cur e off 32) 0
      Pushes (.spawn k o i) s.cur s t r (s.recordOk (s.task s.cur).ctx r)) ∧
    (∀ e, Reaches s s.cur h false e → inside s s.cur e off 32 < 32 → Runs (.spawn k o i) s ((s.addTks s.cur 1#6).retire s.cur .a)) ∧
    (handleIndex h = 0 → Runs (.spawn k o i) s ((s.addTks s.cur 8#6).retire s.cur .a))) ∧
  (∀ (s : State) (k : BitVec 4) (o : BitVec 6) (i : BitVec 8), MemReady s (.join k o i) k → (s.task s.cur).push = none →
    (s.task s.cur).owed = none → (s.task s.cur).await o.toNat = .none → (s.task s.cur).atomics = [] → WakesDue s →
    let h := (s.task s.cur).kreg k
    let off := (((s.task s.cur).areg o.toNat).toNat + 8 * i.toNat) % 2 ^ 64 / 64 * 64
    let d := s.drainAll s.cur
    (∀ e, Reaches d s.cur h true e → inside d s.cur e off 64 = 64 → s.inWakeWindow s.cur e off 64 = false →
      (∀ p ∈ s.pieces (s.task s.cur).ctx e off 64, (s.task s.cur).rowBusy e p.row s.fresh = false) →
      let t := d.addTks s.cur 0#6
      let ctx := (t.task s.cur).ctx
      JoinsOver (.join k o i) s.cur s (t.setEntry ctx e { t.entry ctx e with infl := (t.entry ctx e).infl + 1 }) e off) ∧
    (∀ e, Reaches d s.cur h true e → inside d s.cur e off 64 = 64 → s.inWakeWindow s.cur e off 64 = true →
      Runs (.join k o i) s (((d.addTks s.cur 0#6).addTks s.cur 2#6).retire s.cur .a)) ∧
    (∀ e, Reaches d s.cur h true e → inside d s.cur e off 64 < 64 → Runs (.join k o i) s ((d.addTks s.cur 1#6).retire s.cur .a)) ∧
    (handleIndex h = 0 → Runs (.join k o i) s ((d.addTks s.cur 8#6).retire s.cur .a))) ∧
  -- a JOIN whose page waits for the dirty log goes on with its step
  (∀ (s : State) (k : BitVec 4) (o : BitVec 6) (i : BitVec 8) (n e off : Nat) (l : List (Nat × Nat)), wellFormed (.join k o i) = true →
    (s.task s.cur).push = none → (s.task s.cur).owed = some ⟨n, e, l, .join off⟩ → JoinsOver (.join k o i) s.cur s s e off) ∧
  (∀ (s : State) (c e : Nat),
    let t := s.joinHome c e
    let ctx := (s.task c).ctx
    (t.entry ctx e).infl = (s.entry ctx e).infl - 1 ∧ (t.task c).owed = none ∧ t.mem = s.mem ∧
    (∀ w, w ∈ (t.partOf (s.task c).part).dirtyHeld ↔ w ∈ (s.partOf (s.task c).part).dirtyHeld ∧ w ≠ c)) ∧
  -- a held record enters once its ring has room
  (∀ (s : State) (k : BitVec 4) (o : BitVec 6) (i : BitVec 8) (r : Rec), wellFormed (.spawn k o i) = true → (s.task s.cur).push = some r →
    (s.pushRoom s.cur r = true →
      Runs (.spawn k o i) s ((pushed s s.cur r).retire s.cur .a) ∧ Runs (.join k o i) s ((pushed s s.cur r).retire s.cur .a)) ∧
    (s.pushRoom s.cur r = false →
      let t := s.setSeq s.cur .a { s.seq s.cur .a with blocked := false }
      Runs (.spawn k o i) s t ∧ Runs (.join k o i) s t)) ∧
  (∀ (s : State) (part ctx die : Nat) (r : Rec), r.prio < 4 →
    ((s.pushRecord part ctx die none r).ring part die r.prio).length = (s.ring part die r.prio).length + 1 ∧
    ((s.pushRecord part ctx die none r).ring part die r.prio).getLast?.map (·.record) = some ((r.inPart part).stamped s.cyc))

/-! Vector instructions. -/

/-- R21, R24, R25, R27, R98, R101, R124, R126, R152: what a vector source reads and a vector destination receives. A pop takes its source
bytes from byte P of the head on, of one element where it keeps or widens the size and of g whole elements where it narrows; value j
of the sink image is source value j converted, or zero where its bytes are missing; VST takes the events of the conversions. Inactive
lanes keep a register's bits and are zero in a pushed element; nothing else of memory changes. -/
def Obligations.VectorOperands : Prop :=
  (∀ (s : State) (c : Nat) (f : BitVec 6), f.toNat < 32 →
    s.srcV c f = .ok (BitVec.ofNat 32768 (s.mem.readNat (poolBase c + 4096 * f.toNat) 4096), s)) ∧
  -- a pop that neither widens nor narrows takes the head element from byte P on
  (∀ (s : State) (c : Nat) (f : BitVec 6), 32 ≤ f.toNat → f.toNat < 40 →
    let t := s.task c
    let n := f.toNat - 32
    let q := t.queue n
    t.qsrc n = .raw32 → t.qsink n = .raw32 → 1 ≤ q.ready (pwDepth t.partw) → q.p = 0 →
    ∃ u, s.srcV c f = .ok (s.poolLine c (slotOff t.partw n (q.head % pwDepth t.partw)), u) ∧ u.mem = s.mem ∧
      (u.task c).queue n = { q with occ := q.occ - 1, head := (q.head + 1) % pwDepth t.partw, p := 0, freed := q.freed + 1 }) ∧
  -- any pop, of any formats and from any byte P
  (∀ (s : State) (c : Nat) (f : BitVec 6), 32 ≤ f.toNat → f.toNat < 40 →
    let t := s.task c
    let n := f.toNat - 32
    let q := t.queue n
    let depth := pwDepth t.partw
    let ss := (t.qsrc n).size
    let sk := (t.qsink n).size
    let g := max 1 (ss / sk)
    let bytes := ((List.range g).map (fun i => (s.poolLine c (slotOff t.partw n ((q.head + i) % depth))).toNat * 2 ^ (32768 * i))).sum
    let value (j : Nat) : Nat × Num.Ev := if q.p + ss * (j + 1) ≤ 4096 * g
      then Num.convert (t.qsrc n) (t.qsink n) (bytes / 2 ^ (8 * (q.p + ss * j)) % 2 ^ (8 * ss)) else (0, .none)
    (g ≤ q.ready depth → ∃ (img : Image) (u : State) (ev : Num.Ev), s.srcV c f = .ok (img, u) ∧ u.mem = s.mem ∧
      (∀ j, j < 4096 / sk → img.toNat / 2 ^ (8 * sk * j) % 2 ^ (8 * sk) = (value j).1 % 2 ^ (8 * sk)) ∧
      (u.task c).vst = t.vst ||| ev.toBits ∧ (ev.sat = true ↔ ∃ j, j < 4096 / sk ∧ (value j).2.sat = true) ∧
      (ev.inf = true ↔ ∃ j, j < 4096 / sk ∧ (value j).2.inf = true) ∧ (ev.nan = true ↔ ∃ j, j < 4096 / sk ∧ (value j).2.nan = true) ∧
      (u.task c).queue n = (if ss < sk ∧ q.p + 4096 * ss / sk < 4096 then { q with p := q.p + 4096 * ss / sk }
        else { q with occ := q.occ - g, head := (q.head + g) % depth, p := 0, freed := q.freed + g })) ∧
    (q.ready depth < g → s.srcV c f = .error (.stall true))) ∧
  (∀ (s : State) (c : Nat) (f : BitVec 6) (m : BitVec 3) (img : Image), f.toNat < 32 →
    ∃ t, s.dstV c f m img = .ok t ∧
      (∀ i, i < 1024 → laneOf (t.vreg c f.toNat) i =
        if ((s.task c).mask m.toNat).getLsbD i then laneOf img i else laneOf (s.vreg c f.toNat) i) ∧
      (∀ a, a < poolBase c + 4096 * f.toNat ∨ poolBase c + 4096 * f.toNat + 4096 ≤ a → t.mem.read a = s.mem.read a) ∧
      t.task c = s.task c) ∧
  (∀ (s : State) (c : Nat) (f : BitVec 6) (m : BitVec 3) (img : Image), 32 ≤ f.toNat → f.toNat < 40 →
    let n := f.toNat - 32
    ((s.task c).queue n).occ + ((s.task c).queue n).freed < pwDepth (s.task c).partw →
    ∃ t, s.dstV c f m img = .ok t ∧ ((t.task c).queue n).occ = ((s.task c).queue n).occ + 1 ∧
      (∀ i, i < 1024 → laneOf (BitVec.ofNat 32768 (t.mem.readNat (pushSlot s c n) 4096)) i =
        if ((s.task c).mask m.toNat).getLsbD i then laneOf img i else 0#32) ∧
      (∀ a, a < pushSlot s c n ∨ pushSlot s c n + 4096 ≤ a → t.mem.read a = s.mem.read a))

/-- R125, R131, R132, R133: the integer and bitwise forms. -/
def Obligations.PackedIntegerResults : Prop :=
  PackedForm .viadd 32 (fun x y => x + y) ∧ PackedForm .visub 32 (fun x y => x - y) ∧ PackedForm .vimul 32 (fun x y => x * y) ∧
  PackedForm .vimin 32 smaller ∧ PackedForm .vimax 32 larger ∧ PackedForm .vshl 32 (fun x y => x <<< (y.toNat % 32)) ∧
  PackedForm .vshr 32 (fun x y => x >>> (y.toNat % 32)) ∧ PackedForm .vsra 32 (fun x y => x.sshiftRight (y.toNat % 32)) ∧
  PackedForm .viaddH 16 (fun x y => x + y) ∧ PackedForm .visubH 16 (fun x y => x - y) ∧ PackedForm .vimulH 16 (fun x y => x * y) ∧
  PackedForm .viminH 16 smaller ∧ PackedForm .vimaxH 16 larger ∧ PackedForm .vshlH 16 (fun x y => x <<< (y.toNat % 16)) ∧
  PackedForm .vshrH 16 (fun x y => x >>> (y.toNat % 16)) ∧ PackedForm .vsraH 16 (fun x y => x.sshiftRight (y.toNat % 16)) ∧
  PackedForm .viaddB 8 (fun x y => x + y) ∧ PackedForm .visubB 8 (fun x y => x - y) ∧ PackedForm .vimulB 8 (fun x y => x * y) ∧
  PackedForm .viminB 8 smaller ∧ PackedForm .vimaxB 8 larger ∧ PackedForm .vshlB 8 (fun x y => x <<< (y.toNat % 8)) ∧
  PackedForm .vshrB 8 (fun x y => x >>> (y.toNat % 8)) ∧ PackedForm .vsraB 8 (fun x y => x.sshiftRight (y.toNat % 8)) ∧
  PackedForm .viaddS 32 (fun x y => saturated 32 (x.toInt + y.toInt)) ∧ PackedForm .visubS 32 (fun x y => saturated 32 (x.toInt - y.toInt)) ∧
  PackedForm .viaddHS 16 (fun x y => saturated 16 (x.toInt + y.toInt)) ∧ PackedForm .visubHS 16 (fun x y => saturated 16 (x.toInt - y.toInt)) ∧
  PackedForm .viaddBS 8 (fun x y => saturated 8 (x.toInt + y.toInt)) ∧ PackedForm .visubBS 8 (fun x y => saturated 8 (x.toInt - y.toInt)) ∧
  PackedForm .vand 32 (fun x y => x &&& y) ∧ PackedForm .vor 32 (fun x y => x ||| y) ∧ PackedForm .vxor 32 (fun x y => x ^^^ y) ∧
  PackedForm .vandn 32 (fun x y => x &&& ~~~y)

/-- R93, R101, R124, R128, R129, R130: the FP32 forms; VST gathers what the active lanes' results raise. VEXP2 and VLOG2 answer what
the model computes to far more bits than it rounds to (log 21). -/
def Obligations.FloatResults : Prop :=
  FloatTwo .vadd Num.addF ∧ FloatTwo .vsub (fun x y => Num.addF x (Num.negF y)) ∧ FloatTwo .vmul Num.mulF ∧
  FloatTwo .vmin Num.minF ∧ FloatTwo .vmax Num.maxF ∧
  FloatOne .vabs (signOp (· % 2 ^ 31)) ∧ FloatOne .vneg (signOp (fun p => (p + 2 ^ 31) % 2 ^ 32)) ∧
  FloatOne .vrcp (fun p => Num.rcpF Num.binary32 (Num.decodeF Num.binary32 p)) ∧
  FloatOne .vrsq (fun p => Num.rsqF Num.binary32 (Num.decodeF Num.binary32 p)) ∧
  FloatOne .vexp2 (fun p => Num.exp2F Num.binary32 (Num.decodeF Num.binary32 p)) ∧
  FloatOne .vlog2 (fun p => Num.log2F Num.binary32 (Num.decodeF Num.binary32 p)) ∧
  (∀ (s s1 s2 : State) (d a : BitVec 6) (m : BitVec 3) (x : Image), Sources1 s (.vmov d a m) d a x s1 →
    (s1.addVst s.cur .none).dstV s.cur d m x = .ok s2 → Runs (.vmov d a m) s (s2.retire s.cur .x)) ∧
  (∀ (s s2 s3 : State) (d a b : BitVec 6) (m : BitVec 3) (x y img : Image) (ev : Num.Ev), Sources2 s (.vfma d a b m) d a b x y s2 →
    LaneResults ((s.task s.cur).mask m.toNat)
      (fun i => Num.fpEnc Num.binary32 (Num.addF (Num.mulF (laneVal x i) (laneVal y i)) (laneVal (s.vreg s.cur d.toNat) i))) img ev →
    (s2.addVst s.cur ev).dstV s.cur d m img = .ok s3 → Runs (.vfma d a b m) s (s3.retire s.cur .x)) ∧
  -- VMIN and VMAX: a NaN gives NaN, minus zero lies below plus zero
  (∀ x : Num.FVal, Num.minF .nan x = .nan ∧ Num.minF x .nan = .nan ∧ Num.maxF .nan x = .nan ∧ Num.maxF x .nan = .nan) ∧
  (∀ (n1 n2 : Bool) (m1 m2 : Nat) (e1 e2 : Int),
    let x : Num.FVal := .fin n1 m1 e1
    let y : Num.FVal := .fin n2 m2 e2
    (rational n1 m1 e1 < rational n2 m2 e2 → Num.minF x y = x ∧ Num.minF y x = x ∧ Num.maxF x y = y ∧ Num.maxF y x = y) ∧
    (m1 = 0 → m2 = 0 → n1 = true → n2 = false → Num.minF x y = x ∧ Num.minF y x = x ∧ Num.maxF x y = y ∧ Num.maxF y x = y)) ∧
  (∀ x : Num.FVal, x ≠ .nan → Num.minF (.inf true) x = .inf true ∧ Num.minF x (.inf true) = .inf true ∧
    Num.maxF (.inf false) x = .inf false ∧ Num.maxF x (.inf false) = .inf false ∧
    Num.minF (.inf false) x = x ∧ Num.minF x (.inf false) = x ∧ Num.maxF (.inf true) x = x ∧ Num.maxF x (.inf true) = x) ∧
  -- VRCP and VRSQ: the special rows, and the correctly rounded reciprocals
  Num.rcpF Num.binary32 .nan = (0x7FC00000, ⟨false, false, true⟩) ∧
  (∀ n : Bool, Num.rcpF Num.binary32 (.inf n) = ((if n then 2 ^ 31 else 0), ⟨false, false, false⟩)) ∧
  (∀ (n : Bool) (e : Int), Num.rcpF Num.binary32 (.fin n 0 e) = ((if n then 0xFF800000 else 0x7F800000), ⟨false, true, false⟩)) ∧
  (∀ (n : Bool) (m : Nat) (e : Int), m ≠ 0 → OutFp32 n (1 / ((m : ℝ) * 2 ^ e)) (Num.rcpF Num.binary32 (.fin n m e))) ∧
  Num.rsqF Num.binary32 .nan = (0x7FC00000, ⟨false, false, true⟩) ∧ Num.rsqF Num.binary32 (.inf true) = (0x7FC00000, ⟨false, false, true⟩) ∧
  Num.rsqF Num.binary32 (.inf false) = (0, ⟨false, false, false⟩) ∧
  (∀ (n : Bool) (e : Int), Num.rsqF Num.binary32 (.fin n 0 e) = ((if n then 0xFF800000 else 0x7F800000), ⟨false, true, false⟩)) ∧
  (∀ (m : Nat) (e : Int), m ≠ 0 → Num.rsqF Num.binary32 (.fin true m e) = (0x7FC00000, ⟨false, false, true⟩) ∧
    OutFp32 false (1 / Real.sqrt ((m : ℝ) * 2 ^ e)) (Num.rsqF Num.binary32 (.fin false m e))) ∧
  -- VEXP2 and VLOG2: the special rows and the exact results
  Num.exp2F Num.binary32 .nan = (0x7FC00000, ⟨false, false, true⟩) ∧ Num.exp2F Num.binary32 (.inf true) = (0, ⟨false, false, false⟩) ∧
  Num.exp2F Num.binary32 (.inf false) = (0x7F800000, ⟨false, true, false⟩) ∧
  (∀ (n : Bool) (m : Nat) (e : Int),
    (128 ≤ rational n m e → Num.exp2F Num.binary32 (.fin n m e) = (0x7F800000, ⟨false, true, false⟩)) ∧
    (rational n m e ≤ -150 → Num.exp2F Num.binary32 (.fin n m e) = (0, ⟨false, false, false⟩)) ∧
    (∀ i : Int, rational n m e = i → -149 ≤ i → i ≤ 127 → Num.exp2F Num.binary32 (.fin n m e) =
      (if -126 ≤ i then ((i + 127).toNat * 2 ^ 23, ⟨false, false, false⟩) else (2 ^ (i + 149).toNat, ⟨false, false, false⟩)))) ∧
  Num.log2F Num.binary32 .nan = (0x7FC00000, ⟨false, false, true⟩) ∧ Num.log2F Num.binary32 (.inf true) = (0x7FC00000, ⟨false, false, true⟩) ∧
  Num.log2F Num.binary32 (.inf false) = (0x7F800000, ⟨false, true, false⟩) ∧
  (∀ (n : Bool) (e : Int), Num.log2F Num.binary32 (.fin n 0 e) = (0xFF800000, ⟨false, true, false⟩)) ∧
  (∀ (m : Nat) (e : Int), m ≠ 0 → Num.log2F Num.binary32 (.fin true m e) = (0x7FC00000, ⟨false, false, true⟩)) ∧
  (∀ (t : Nat) (e : Int), OutFp32 (decide (e + t < 0)) ((e + t).natAbs : ℝ) (Num.log2F Num.binary32 (.fin false (2 ^ t) e)))

/-- R92, R93, R94: sums and products of finite values are exact; RoundNE gives a nearest multiple, the even one of two; RoundFmt rounds once to
a format's spacing; a finite FP32 pattern encodes the value that it decodes to. -/
def Obligations.ArithmeticIsExactThenRounded : Prop :=
  (∀ (n1 n2 : Bool) (m1 m2 : Nat) (e1 e2 : Int), ∃ n m e, Num.addF (.fin n1 m1 e1) (.fin n2 m2 e2) = .fin n m e ∧
    rational n m e = rational n1 m1 e1 + rational n2 m2 e2) ∧
  (∀ (n1 n2 : Bool) (m1 m2 : Nat) (e1 e2 : Int), ∃ n m e, Num.mulF (.fin n1 m1 e1) (.fin n2 m2 e2) = .fin n m e ∧
    rational n m e = rational n1 m1 e1 * rational n2 m2 e2) ∧
  (∀ (m : Nat) (e q : Int), 2 * |rational false m e - rational false (Num.roundAt m e false q) q| ≤ (2 : ℚ) ^ q ∧
    (2 * |rational false m e - rational false (Num.roundAt m e false q) q| = (2 : ℚ) ^ q → Num.roundAt m e false q % 2 = 0)) ∧
  (∀ f ∈ [Num.binary32, Num.bfloat16, Num.binary16], ∀ (m : Nat) (e : Int), RoundsTo f ((m : ℝ) * 2 ^ e) (Num.roundMag f m e false)) ∧
  (∀ p, p < 2 ^ 32 → p / 2 ^ 23 % 2 ^ 8 ≠ 255 → Num.fpEnc Num.binary32 (Num.decodeF Num.binary32 p) = (p, .none)) ∧
  (∀ p, p < 2 ^ 32 → p / 2 ^ 23 % 2 ^ 8 = 255 → p % 2 ^ 23 ≠ 0 →
    Num.fpEnc Num.binary32 (Num.decodeF Num.binary32 p) = (0x7FC00000, ⟨false, false, true⟩))

/-- R136, R137: compares write bits of a mask; mask logic. -/
def Obligations.ComparesAndMasks : Prop :=
  Compare .vceq (fun x y => Num.eqF (val32 x) (val32 y)) ∧ Compare .vcne (fun x y => !Num.eqF (val32 x) (val32 y)) ∧
  Compare .vclt (fun x y => Num.ltF (val32 x) (val32 y)) ∧
  Compare .vcle (fun x y => Num.ltF (val32 x) (val32 y) || Num.eqF (val32 x) (val32 y)) ∧
  Compare .vcun (fun x y => val32 x == .nan || val32 y == .nan) ∧
  Compare .viceq (fun x y => x == y) ∧ Compare .vicne (fun x y => x != y) ∧
  Compare .viclt (fun x y => decide (x.toInt < y.toInt)) ∧ Compare .vicle (fun x y => decide (x.toInt ≤ y.toInt)) ∧
  Compare .vicltu (fun x y => decide (x.toNat < y.toNat)) ∧ Compare .vicleu (fun x y => decide (x.toNat ≤ y.toNat)) ∧
  MaskLogic .mand (fun x y => x &&& y) ∧ MaskLogic .mor (fun x y => x ||| y) ∧ MaskLogic .mxor (fun x y => x ^^^ y) ∧
  MaskLogic .mandn (fun x y => x &&& ~~~y) ∧
  (∀ (s : State) (d a : BitVec 6), wellFormed (.mnot d a) = true →
    Runs (.mnot d a) s ((s.modTask s.cur (fun t => t.setMask d.toNat (~~~(t.mask a.toNat)))).retire s.cur .x)) ∧
  -- order and equality of finite values are those of the numbers
  (∀ (n1 n2 : Bool) (m1 m2 : Nat) (e1 e2 : Int),
    (Num.ltF (.fin n1 m1 e1) (.fin n2 m2 e2) = true ↔ rational n1 m1 e1 < rational n2 m2 e2) ∧
    (Num.eqF (.fin n1 m1 e1) (.fin n2 m2 e2) = true ↔ rational n1 m1 e1 = rational n2 m2 e2))

/-- R134, R135, R138, R139, R140, R141: conversion, selection, broadcast, lane movement and reductions. Events of the FP32 value between
two conversions: log 81. -/
def Obligations.MovementAndReductions : Prop :=
  (∀ (s s2 s3 : State) (d a b : BitVec 6) (m : BitVec 3) (x y img : Image), Sources2 s (.vsel d a b m) d a b x y s2 →
    (∀ i, i < 1024 → laneOf img i = if ((s.task s.cur).mask m.toNat).getLsbD i then laneOf x i else laneOf y i) →
    s2.dstV s.cur d 0#3 img = .ok s3 → Runs (.vsel d a b m) s (s3.retire s.cur .x)) ∧
  (∀ (s s1 s2 : State) (d a : BitVec 6) (m : BitVec 3) (x : Word64) (img : Image), wellFormed (.vbcast d a m) = true →
    (s.task s.cur).granted d = true → s.readOp s.cur .x a = .ok (x, s1) → (∀ i, i < 1024 → laneOf img i = BitVec.ofNat 32 x.toNat) →
    s1.dstV s.cur d m img = .ok s2 → Runs (.vbcast d a m) s (s2.retire s.cur .x)) ∧
  (∀ (s s1 : State) (d : BitVec 6) (m : BitVec 3) (img : Image), wellFormed (.vlid d m) = true → (s.task s.cur).granted d = true →
    (∀ i, i < 1024 → laneOf img i = BitVec.ofNat 32 i) →
    s.dstV s.cur d m img = .ok s1 → Runs (.vlid d m) s (s1.retire s.cur .x)) ∧
  (∀ (s s2 s3 s4 : State) (d a b f : BitVec 6) (x y img : Image) (r : Word64), Sources2 s (.vrotm d a b f) d a b x y s2 →
    s2.readOp s.cur .x f = .ok (r, s3) →
    (∀ j, j < 4096 → img.extractLsb' (8 * j) 8 = if j + r.toNat % 4096 < 4096 then x.extractLsb' (8 * (j + r.toNat % 4096)) 8
      else y.extractLsb' (8 * (j + r.toNat % 4096 - 4096)) 8) →
    s3.dstV s.cur d 0#3 img = .ok s4 → Runs (.vrotm d a b f) s (s4.retire s.cur .x)) ∧
  Movement .vperm (fun x y i => laneOf x ((laneOf y i).toNat % 1024)) ∧
  Movement .vzipl (fun x y i => if i % 2 = 0 then laneOf x (i / 2) else laneOf y (i / 2)) ∧
  Movement .vziph (fun x y i => if i % 2 = 0 then laneOf x (512 + i / 2) else laneOf y (512 + i / 2)) ∧
  Reduction .vradd (fun f => treeSum (fun i => (f i).getD (.fin true 0 0)) 10 0) ∧
  Reduction .vrmax (fun f => (List.range 1024).foldl (fun b i => Num.maxF b ((f i).getD (.inf true))) (.inf true)) ∧
  Reduction .vrmin (fun f => (List.range 1024).foldl (fun b i => Num.minF b ((f i).getD (.inf false))) (.inf false)) ∧
  -- each level of VRADD's tree rounds the sum of two neighbours of the level below
  (∀ (f : Nat → Num.FVal) (k i : Nat), treeSum f (k + 1) i =
    Num.decodeF Num.binary32 (Num.fpEnc Num.binary32 (Num.addF (treeSum f k (2 * i)) (treeSum f k (2 * i + 1)))).1) ∧
  (∀ (s s1 s2 : State) (d a : BitVec 6) (t f w : BitVec 4) (src dst : Num.Fmt) (x : Image), Sources1 s (.vcvt d a t f w) d a x s1 →
    Num.Fmt.ofCode t.toNat = some dst → Num.Fmt.ofCode f.toNat = some src →
    let r := vcvtImage dst src (w.toNat + 1) x
    (s1.addVst s.cur r.2).dstV s.cur d 0#3 r.1 = .ok s2 → Runs (.vcvt d a t f w) s (s2.retire s.cur .x)) ∧
  -- without block floating point, element by element, zeros behind the last
  (∀ (dst src : Num.Fmt) (w : Nat) (x : Image), dst ≠ .bfp → src ≠ .bfp →
    (∀ j, j < 1024 → ((vcvtImage dst src w x).1.extractLsb' (dst.bits * j) dst.bits).toNat =
      (Num.convert src dst (x.toNat / 2 ^ (src.bits * j) % 2 ^ src.bits)).1 % 2 ^ dst.bits) ∧
    (vcvtImage dst src w x).1.toNat < 2 ^ (dst.bits * 1024)) ∧
  -- conversions between formats, one element
  (∀ (f g : Num.Fmt) (p : Nat), f.isFloat = true → g.isFloat = true →
    let v := Num.decodeF f.shape p
    let canonical := g.shape.emax * 2 ^ g.shape.fbits + 2 ^ (g.shape.fbits - 1)
    (v = .nan → Num.convert f g p = (canonical, ⟨false, false, true⟩)) ∧
    (∀ n, v = .inf n → (f = g ∨ g = .fp32 → Num.convert f g p = (signOf g.shape n + g.shape.emax * 2 ^ g.shape.fbits, ⟨false, true, false⟩)) ∧
      (f ≠ g → g ≠ .fp32 → Num.convert f g p = (signOf g.shape n + g.shape.emax * 2 ^ g.shape.fbits - 1, ⟨true, false, false⟩))) ∧
    (∀ n m e, v = .fin n m e → (f = g → Num.convert f g p = (p, ⟨false, false, false⟩)) ∧
      (f ≠ g → Num.convert f g p = narrowed g.shape n m e) ∧
      (f ≠ g → g = .fp32 → ∃ m' e', Num.decodeF Num.binary32 (Num.convert f g p).1 = .fin n m' e' ∧ rational n m' e' = rational n m e))) ∧
  (∀ (f g : Num.Fmt) (p : Nat), f.isFloat = true → isInteger g = true →
    let v := Num.decodeF f.shape p
    (v = .nan → Num.convert f g p = (0, ⟨true, false, false⟩)) ∧
    (∀ n, v = .inf n → Num.convert f g p = ((clamped g (if n then -(2 ^ 40) else 2 ^ 40)).1, ⟨true, false, false⟩)) ∧
    (∀ n m e, v = .fin n m e → Num.convert f g p = clamped g ((if n then -1 else 1) * (Num.roundAt m e false 0 : Int)))) ∧
  (∀ (f g : Num.Fmt) (p : Nat), isInteger f = true →
    let x : Int := if f.isSigned then (BitVec.ofNat f.bits p).toInt else (BitVec.ofNat f.bits p).toNat
    (g.isFloat = true → Num.convert f g p = narrowed g.shape (decide (x < 0)) x.natAbs 0) ∧
    (isInteger g = true → f ≠ g → Num.convert f g p = clamped g x) ∧ Num.convert f f p = (p, ⟨false, false, false⟩)) ∧
  -- block floating point: its image, its blocks, and their values
  (∀ (src : Num.Fmt) (w : Nat) (x : Image), src ≠ .bfp → 2 ≤ w → w ≤ 16 →
    let y (j : Nat) : Nat := let p := x.toNat / 2 ^ (src.bits * j) % 2 ^ src.bits
      if src = .fp32 then p else (Num.convert src .fp32 p).1
    let blk (b : Nat) := Num.toBfp w ((List.range 32).map (fun j => Num.decodeF Num.binary32 (y (32 * b + j))))
    let img := (vcvtImage .bfp src w x).1
    (∀ b, b < 32 → (img.extractLsb' (8 * (4064 + b)) 8).toNat = (blk b).1) ∧
    (∀ i, i < 1024 → (img.extractLsb' (w * i) w).toNat = ((blk (i / 32)).2.1[i % 32]?).getD 0) ∧
    (∀ k, 1024 * w ≤ k → k < 8 * 4064 → img.getLsbD k = false)) ∧
  (∀ (w : Nat) (xs : List Num.FVal), 2 ≤ w → BlockOf w xs (Num.toBfp w xs)) ∧
  (∀ (w : Nat) (x : Image), 2 ≤ w → w ≤ 16 → ∀ i, i < 1024 →
    let ex := (x.extractLsb' (8 * (4064 + i / 32)) 8).toNat
    let m := (x.extractLsb' (w * i) w).toInt
    let p := (((vcvtImage .fp32 .bfp w x).1.extractLsb' (32 * i) 32)).toNat
    (ex = 255 → p = 0x7FC00000) ∧ (ex = 0 ∨ m = 0 → ex ≠ 255 → p = 0) ∧
    (ex ≠ 0 → ex ≠ 255 → m ≠ 0 → ∃ k e, Num.decodeF Num.binary32 p = .fin (decide (m < 0)) k e ∧
      rational (decide (m < 0)) k e = (m : ℚ) * 2 ^ ((ex : Int) - 127 - (w - 1 : Nat))))

/-- R122, R123, R142, R143: DEFER appends the masked lanes, ascending, as far as entries are free; DRAIN moves 1024 out or changes
nothing; DRAIN.F moves what there is and fills the rest with zeros and lane ids of all ones. With DQL.CAP = 0 a DEFER appends nothing, a
DRAIN moves nothing and a DRAIN.F only fills. -/
def Obligations.Deferral : Prop :=
  (∀ (s : State) (a n : BitVec 6) (m : BitVec 3), wellFormed (.defer a n m) = true →
    (∀ i, i ≤ n.toNat → (s.task s.cur).granted (a + BitVec.ofNat 6 i) = true) →
    let t := s.task s.cur
    let cap := dqCap t.partw
    let lanes := (List.range 1024).filter (fun i => (t.mask m.toNat).getLsbD i)
    let k := min lanes.length (cap - t.dqCount.toNat)
    t.dqHead.toNat < cap → t.dqCount.toNat ≤ cap →
    ∃ u, Runs (.defer a n m) s u ∧
      (u.task s.cur).dqCount.toNat = t.dqCount.toNat + k ∧ (u.task s.cur).dqHead = t.dqHead ∧
      (∀ i, i < 1024 → m ≠ 0#3 → ((u.task s.cur).mask m.toNat).getLsbD i = ((t.mask m.toNat).getLsbD i && !(lanes.take k).contains i)) ∧
      (u.task s.cur).stat = (if k < lanes.length then t.stat ||| 4#7 else t.stat) ∧
      (∀ j l, lanes[j]? = some l → j < k → ∀ f, f ≤ 8 →
        u.readNat (deferAt s.cur t.partw ((t.dqHead.toNat + t.dqCount.toNat + j) % cap) f) 4 =
          if f = 0 then l else if f ≤ n.toNat + 1 then (laneOf (s.vreg s.cur (a.toNat + f - 1)) l).toNat else 0)) ∧
  (∀ (s : State) (d n l : BitVec 6), wellFormed (.drain d n l) = true → (s.task s.cur).granted l = true →
    (∀ i, i ≤ n.toNat → (s.task s.cur).granted (d + BitVec.ofNat 6 i) = true) →
    let t := s.task s.cur
    (t.dqCount.toNat < 1024 → Runs (.drain d n l) s (s.retire s.cur .x)) ∧
    (1024 ≤ t.dqCount.toNat → t.dqHead.toNat < dqCap t.partw →
      ∃ u, Runs (.drain d n l) s u ∧ (u.task s.cur).dqCount.toNat = t.dqCount.toNat - 1024 ∧
        (u.task s.cur).dqHead.toNat = (t.dqHead.toNat + 1024) % dqCap t.partw ∧ (u.task s.cur).m = t.m ∧
        (∀ i, i < 1024 → (laneOf (u.vreg s.cur l.toNat) i).toNat =
          s.readNat (deferAt s.cur t.partw ((t.dqHead.toNat + i) % dqCap t.partw) 0) 4) ∧
        (∀ i f, i < 1024 → f ≤ n.toNat → d.toNat + f ≠ l.toNat → (laneOf (u.vreg s.cur (d.toNat + f)) i).toNat =
          s.readNat (deferAt s.cur t.partw ((t.dqHead.toNat + i) % dqCap t.partw) (f + 1)) 4))) ∧
  (∀ (s : State) (d n l : BitVec 6) (m : BitVec 3), wellFormed (.drainF d n l m) = true → (s.task s.cur).granted l = true →
    (∀ i, i ≤ n.toNat → (s.task s.cur).granted (d + BitVec.ofNat 6 i) = true) →
    let t := s.task s.cur
    let c := min t.dqCount.toNat 1024
    t.dqHead.toNat < dqCap t.partw →
    ∃ u, Runs (.drainF d n l m) s u ∧ (u.task s.cur).dqCount.toNat = t.dqCount.toNat - c ∧
      (u.task s.cur).dqHead.toNat = (t.dqHead.toNat + c) % dqCap t.partw ∧
      (∀ i, i < 1024 → m ≠ 0#3 → ((u.task s.cur).mask m.toNat).getLsbD i = decide (i < c)) ∧
      (∀ i, i < 1024 → (laneOf (u.vreg s.cur l.toNat) i).toNat =
        if i < c then s.readNat (deferAt s.cur t.partw ((t.dqHead.toNat + i) % dqCap t.partw) 0) 4 else 0xFFFFFFFF) ∧
      (∀ i f, i < 1024 → f ≤ n.toNat → d.toNat + f ≠ l.toNat → (laneOf (u.vreg s.cur (d.toNat + f)) i).toNat =
        if i < c then s.readNat (deferAt s.cur t.partw ((t.dqHead.toNat + i) % dqCap t.partw) (f + 1)) 4 else 0)) ∧
  -- no entries at all
  (∀ (s : State) (a n : BitVec 6) (m : BitVec 3), wellFormed (.defer a n m) = true →
    (∀ i, i ≤ n.toNat → (s.task s.cur).granted (a + BitVec.ofNat 6 i) = true) →
    let t := s.task s.cur
    dqCap t.partw = 0 → t.dqCount = 0#17 →
    ∃ u, Runs (.defer a n m) s u ∧ u.mem = s.mem ∧ (u.task s.cur).dqCount = 0#17 ∧ (u.task s.cur).dqHead = t.dqHead ∧ (u.task s.cur).m = t.m ∧
      (u.task s.cur).stat = (if ∃ i, i < 1024 ∧ (t.mask m.toNat).getLsbD i = true then t.stat ||| 4#7 else t.stat)) ∧
  (∀ (s : State) (d n l : BitVec 6) (m : BitVec 3), (s.task s.cur).granted l = true →
    (∀ i, i ≤ n.toNat → (s.task s.cur).granted (d + BitVec.ofNat 6 i) = true) →
    let t := s.task s.cur
    dqCap t.partw = 0 → t.dqCount = 0#17 →
    (wellFormed (.drain d n l) = true → Runs (.drain d n l) s (s.retire s.cur .x)) ∧
    (wellFormed (.drainF d n l m) = true → ∃ u, Runs (.drainF d n l m) s u ∧ (u.task s.cur).dqCount = 0#17 ∧ (u.task s.cur).dqHead = t.dqHead ∧
      (m ≠ 0#3 → (u.task s.cur).mask m.toNat = 0#1024) ∧ (∀ i, i < 1024 → laneOf (u.vreg s.cur l.toNat) i = 0xFFFFFFFF#32) ∧
      (∀ i f, i < 1024 → f ≤ n.toNat → d.toNat + f ≠ l.toNat → laneOf (u.vreg s.cur (d.toNat + f)) i = 0#32)))

/-- R20, R22, R32, R122, R126, R142, R143: the frame of the vector words. Whatever such a word comes to, it changes no scalar register, no token, no
mask but its destination, no status but VST, no other core, nothing outside the core but its kernel's record area, dropped count and death;
memory changes only in its
destination register or in the slot that a pushed result enters. DEFER, DRAIN and DRAIN.F change besides only the queue's head and count and
STAT.DQFULL, and memory in the queue's entries (DEFER) or in the registers that they name. -/
def Obligations.VectorWordsChangeNothingElse : Prop :=
  (∀ (i : Instr) (v m : Option (BitVec 6)) (s t : State), vectorDests i = some (v, m) → Runs i s t →
    OwnCoreOnly s t ∧
    (t.task s.cur).a = (s.task s.cur).a ∧ (t.task s.cur).sr = (s.task s.cur).sr ∧ (t.task s.cur).k = (s.task s.cur).k ∧
    (∀ n, (∀ d, m = some d → n ≠ d.toNat) → (t.task s.cur).mask n = (s.task s.cur).mask n) ∧
    (t.task s.cur).stat = (s.task s.cur).stat ∧ (t.task s.cur).tks = (s.task s.cur).tks ∧ (t.task s.cur).zst = (s.task s.cur).zst ∧
    (t.task s.cur).slipw = (s.task s.cur).slipw ∧ (t.task s.cur).qfmt = (s.task s.cur).qfmt ∧ (t.task s.cur).mprog = (s.task s.cur).mprog ∧
    (t.task s.cur).streams = (s.task s.cur).streams ∧ (t.task s.cur).flags = (s.task s.cur).flags ∧
    (t.task s.cur).dqHead = (s.task s.cur).dqHead ∧ (t.task s.cur).dqCount = (s.task s.cur).dqCount ∧
    (v = none → ∀ a, t.mem.read a = s.mem.read a) ∧
    (∀ d, v = some d → d.toNat < 32 → ∀ a, a < poolBase s.cur + 4096 * d.toNat ∨ poolBase s.cur + 4096 * d.toNat + 4096 ≤ a →
      t.mem.read a = s.mem.read a) ∧
    (∀ d, v = some d → 32 ≤ d.toNat → ∀ a, a < pushSlot s s.cur (d.toNat - 32) ∨ pushSlot s s.cur (d.toNat - 32) + 4096 ≤ a →
      t.mem.read a = s.mem.read a)) ∧
  (∀ (i : Instr) (regs : List Nat) (m : Option (BitVec 3)) (s t : State), deferWord i = some (regs, m) → Runs i s t →
    OwnCoreOnly s t ∧ (t.task s.cur).a = (s.task s.cur).a ∧ (t.task s.cur).sr = (s.task s.cur).sr ∧ (t.task s.cur).k = (s.task s.cur).k ∧
    (∀ n, (∀ d, m = some d → n ≠ d.toNat) → (t.task s.cur).mask n = (s.task s.cur).mask n) ∧
    ((t.task s.cur).stat = (s.task s.cur).stat ∨ (regs = [] ∧ (t.task s.cur).stat = (s.task s.cur).stat ||| 4#7)) ∧
    (t.task s.cur).tks = (s.task s.cur).tks ∧ (t.task s.cur).vst = (s.task s.cur).vst ∧ (t.task s.cur).zst = (s.task s.cur).zst ∧
    (t.task s.cur).slipw = (s.task s.cur).slipw ∧ (t.task s.cur).qfmt = (s.task s.cur).qfmt ∧ (t.task s.cur).q = (s.task s.cur).q ∧
    (t.task s.cur).streams = (s.task s.cur).streams ∧ (t.task s.cur).flags = (s.task s.cur).flags ∧
    (regs = [] → (t.task s.cur).dqHead = (s.task s.cur).dqHead) ∧
    ∀ a, (∀ n ∈ regs, a < poolBase s.cur + 4096 * n ∨ poolBase s.cur + 4096 * n + 4096 ≤ a) →
      (regs = [] → ∀ e f, e < dqCap (s.task s.cur).partw → f ≤ 8 →
        a < deferAt s.cur (s.task s.cur).partw e f ∨ deferAt s.cur (s.task s.cur).partw e f + 4 ≤ a) → t.mem.read a = s.mem.read a)

/-! Barriers and the end of a task. -/

/-- R146, R147, R148, R149, R205, R288, R296, R297: BAR and PHASE wait on each side; with both waiting, the member joins its next instance of the
scope; the instance completes for all its members together, once every expected member has arrived and every waiting one's conditions
hold; peers hear of an arrival, and once its member's own conditions hold; a member saved meanwhile completes its word when it is restored.
CORE of event 0x52: log 39; members, records and aborts on other packages: log 47; which arrivals at .D and .P peers hear of: log 90. -/
def Obligations.Barriers : Prop :=
  (∀ (i : Instr) (s : State) (sc : BitVec 3) (w : BitVec 1) (a : BitVec 6), i = .bar sc w a ∨ i = .phase sc w a → wellFormed i = true →
    (s.side = .a → w = 1#1 → (s.task s.cur).await a.toNat = .none) → (s.seq s.cur s.side).waiting = false →
    let t := s.setSeq s.cur s.side { s.seq s.cur s.side with waiting := true, blocked := false }
    ((s.seq s.cur s.side.other).waiting = false → Runs i s t) ∧
    ((s.seq s.cur s.side.other).waiting = true → Runs i s (t.arrive s.cur (s.task s.cur).uid (Scope.ofCode sc.toNat)))) ∧
  (∀ (i : Instr) (s : State) (sc : BitVec 3) (w : BitVec 1) (a : BitVec 6), i = .bar sc w a ∨ i = .phase sc w a → wellFormed i = true →
    (s.side = .a → w = 1#1 → (s.task s.cur).await a.toNat = .none) → (s.seq s.cur s.side).waiting = true →
    ((s.member (s.task s.cur).uid).released = true →
      Runs i s (((s.retire s.cur .a true).retire s.cur .x true).setMember (s.task s.cur).uid
        { s.member (s.task s.cur).uid with released := false })) ∧
    ((s.member (s.task s.cur).uid).released = false → Runs i s (s.setSeq s.cur s.side { s.seq s.cur s.side with blocked := false }))) ∧
  (∀ (s : State) (core : Nat) (sc : Scope),
    let uid := (s.task core).uid
    let n := (s.member uid).joinedAt sc
    (s.core core).holdsTask = true → (s.member uid).arrived = some sc → s.groupKnown uid sc = true →
    (∀ v ∈ s.expected uid sc, (s.member v).hasArrived sc n = true ∧
      ((s.member v).waitsAt sc n = true → s.conditionsHold v = true)) →
    Runs (.barrierCompletion core) s
      (((s.expected uid sc).foldl (fun s v => s.release sc n true v) (s.notePhase uid sc)).stopTimer (s.groupKey uid sc) n false)) ∧
  -- the partition's last completion of a PHASE of scope .X is noted
  (∀ (s : State) (uid : Nat) (sc : Scope), (sc ≠ .x → s.notePhase uid sc = s) ∧
    (∀ t p, sc = .x → s.taskOf uid = some t → (s.barWord t).1 = true → NMap.get s.partitions (s.member uid).part = some p →
      ((s.notePhase uid sc).partOf (s.member uid).part).phasedAt = some s.cyc)) ∧
  (∀ (s : State) (core : Nat) (sc : Scope),
    let uid := (s.task core).uid
    (s.core core).holdsTask = true → (s.member uid).arrived = some sc →
    s.groupKnown uid sc = false ∨ (∃ v ∈ s.expected uid sc, (s.member v).hasArrived sc ((s.member uid).joinedAt sc) = false ∨
      ((s.member v).waitsAt sc ((s.member uid).joinedAt sc) = true ∧ s.conditionsHold v = false)) →
    Runs (.barrierCompletion core) s (s.announce uid)) ∧
  -- a group's instances wait for its records to be placed: none whose tasks have not started, none offered or on its way, here or on a peer
  (∀ (s : State) (uid : Nat) (sc : Scope),
    let placed (g : Nat) (r : RingRec) : Prop := r.group = some g → r.img ≠ [] ∧ (∀ k, r.place ≠ .offered k) ∧ ∀ k b, r.place ≠ .moving k b
    (∀ g, (s.member uid).group = some g → sc = .d ∨ sc = .p ∨ sc = .x → (s.groupKnown uid sc = true ↔
      (∀ r ∈ s.records, placed g r) ∧ (∀ x ∈ s.cores, ∀ r, x.2.shadow = some r → placed g r) ∧
      ∀ x, NMap.get s.groups g = some x → x.open_ = 0)) ∧
    ((s.member uid).group = none ∨ sc = .q ∨ sc = .t → s.groupKnown uid sc = true)) ∧
  -- an arrival joins the next instance, or completes at once at one that is aborted; the peers hear of it
  (∀ (s : State) (c uid : Nat) (sc : Scope),
    let m := s.member uid
    let n := m.joinedAt sc + 1#32
    let m' := { m with joined := m.joined.setIfInBounds (Scope.index sc) n }
    (s.instanceAborted (s.groupKey uid sc) n false = false → s.arrive c uid sc =
      ((s.setMember uid { m' with arrived := some sc, told := s.conditionsHold uid }).startTimer (s.groupKey uid sc) n false).tell uid sc
        (s.conditionsHold uid)) ∧
    (s.instanceAborted (s.groupKey uid sc) n false = true → s.arrive c uid sc =
      (((s.retire c .a true).retire c .x true).setMember uid m').tell uid sc true)) ∧
  -- a member that waits tells once that its own conditions have come to hold
  (∀ (s : State) (uid : Nat),
    let m := s.member uid
    (∀ sc, m.arrived = some sc → m.told = false → s.conditionsHold uid = true →
      s.announce uid = (s.setMember uid { m with told := true }).tell uid sc true) ∧
    (m.arrived = none ∨ m.told = true ∨ s.conditionsHold uid = false → s.announce uid = s)) ∧
  (∀ (s : State) (uid : Nat) (sc : Scope) (met : Bool),
    let m := s.member uid
    let heard : Prop := 1 < (s.partOf m.part).packages.length ∧ (sc = .x ∨ ((sc = .d ∨ sc = .p) ∧
      (512 ≤ m.core ∨ ∃ v ∈ s.expected uid sc, (s.member v).pkg ≠ none)))
    (∀ g, m.group = some g → heard → s.tell uid sc met = s.send (.arrival m.part g uid sc (m.joinedAt sc) met)) ∧
    (m.group = none ∨ ¬heard → s.tell uid sc met = s)) ∧
  -- a member of a launch group on another package arrives, or comes to meet its conditions
  (∀ (s : State) (g v : Nat) (m : Member) (sc : Scope) (n : BitVec 32) (met : Bool), NMap.get s.members v = some m → m.group = some g →
    m.pkg ≠ none → sc = .d ∨ sc = .p ∨ sc = .x →
    (n ≠ m.joinedAt sc → 0 ≤ (n - m.joinedAt sc).toInt → Runs (.arrival g v ⟨sc, n, met⟩) s ((s.setMember v { m with
      joined := m.joined.setIfInBounds (Scope.index sc) n
      arrived := if met = true ∨ s.instanceAborted (s.groupKey v sc) n false = true then none else some sc }).startTimer (s.groupKey v sc) n false)) ∧
    (n = m.joinedAt sc → Runs (.arrival g v ⟨sc, n, met⟩) s
      (if met = true ∧ m.arrived = some sc then s.setMember v { m with arrived := none } else s)) ∧
    ((n - m.joinedAt sc).toInt < 0 → Runs (.arrival g v ⟨sc, n, met⟩) s s)) ∧
  -- what the completion of an instance does with a member that waits there
  (∀ (s : State) (uid : Nat) (sc : Scope) (n : BitVec 32) (pay : Bool),
    let m := s.member uid
    (m.waitsAt sc n = false → s.release sc n pay uid = s) ∧
    (m.waitsAt sc n = true → m.pkg ≠ none → s.release sc n pay uid = s.setMember uid { m with arrived := none }) ∧
    (m.waitsAt sc n = true → m.pkg = none →
      (∀ c, s.coreOf uid = some c → (s.core c).mode = .run → s.release sc n false uid =
        ((s.retire c .a true).retire c .x true).setMember uid { m with arrived := none }) ∧
      (s.coreOf uid = none ∨ (∃ c, s.coreOf uid = some c ∧ (s.core c).mode ≠ .run) →
        s.release sc n false uid = s.setMember uid { m with arrived := none, released := true }) ∧
      (∀ t, s.taskOf uid = some t → s.release sc n true uid =
        (s.modTaskOf uid (fun x => { x with pb := x.pb - BitVec.ofNat 28 (s.barWord t).2 })).release sc n false uid))) ∧
  -- an instance whose timer has reached COLT is aborted, and the other packages of its partition hear of it
  (∀ (s : State) (g n : Nat) (sc : Scope) (t : Timer) (v : Nat) (m : Member) (l : List (Nat × Member)), s.timers = [t] →
    t.aborted = false → t.key.scope = sc → t.key.id = g → t.n = BitVec.ofNat 32 n →
    s.members.filter (fun x => s.groupKey x.1 sc == t.key) = (v, m) :: l → (s.partOf m.part).colt.toNat ≤ t.cycles →
    let u := s.abortInstance t.key t.n t.coll
    Runs (.collectiveTimerAbort g sc (.own n)) s
      (if 1 < (s.partOf m.part).packages.length then u.send (.aborted m.part g sc t.key.part t.n.toNat t.coll) else u)) ∧
  (∀ (s : State) (g n : Nat) (sc : Scope), (∀ t ∈ s.timers, t.aborted = true ∨ t.key.scope ≠ sc ∨ t.key.id ≠ g) →
    Runs (.collectiveTimerAbort g sc (.own n)) s s) ∧
  -- its members that wait complete the word, and the kernels with a member here are told
  (∀ (s : State) (k : GroupKey) (n : BitVec 32) (c : Nat),
    s.timers = [⟨k, n, false, c, false⟩] ∨ (s.timers = [] ∧ c = 0 ∧ (k.scope = .p ∨ k.scope = .x)) →
    let all := s.members.filter (fun x => s.groupKey x.1 k.scope == k)
    let u := all.foldl (fun u x => u.release k.scope n false x.1) { s with timers := [⟨k, n, false, c, true⟩] }
    s.abortInstance k n false = ((all.filter (fun x => x.2.pkg.isNone)).map (fun x => x.2.kid)).eraseDups.foldl
      (fun u i => u.postEvent i 0x52#8 0 (BitVec.ofNat 64 (Scope.index k.scope + 2 ^ 32 * n.toNat))) u) ∧
  -- a peer tells of an abort: it holds here too, but at an instance that is over here
  (∀ (s : State) (g place n : Nat) (sc : Scope) (coll : Bool) (x : Group), NMap.get s.groups g = some x → sc = .p ∨ sc = .x →
    let k : GroupKey := ⟨sc, g, if sc = .x then x.part else place⟩
    let i := BitVec.ofNat 32 n
    let all := s.members.filter (fun x => s.groupKey x.1 sc == k)
    let past : Prop := (∃ t, s.timerOf k i coll = some t ∧ t.aborted = true) ∨ (s.timerOf k i coll = none ∧ all ≠ [] ∧
      ∀ y ∈ all, if coll = true then y.2.hasJoined sc i = true else y.2.hasArrived sc i = true ∧ y.2.waitsAt sc i = false)
    (¬past → Runs (.collectiveTimerAbort g sc (.peer place n coll)) s (s.abortInstance k i coll)) ∧
    (past → Runs (.collectiveTimerAbort g sc (.peer place n coll)) s s))

/-- R31, R112, R145, R258, R280, R281, R282: TEND, YIELD and HALT wait for the other side and for what must be over, and end the task; YIELD
first pushes its record, traps 0x11 where the record fails its check, and pushes none through a null handle. That TEND and YIELD wait for the
sources of collectives is the model's (log 89). -/
def Obligations.EndingWords : Prop :=
  (∀ (i : Instr) (s : State), (i = .tend ∨ i = .halt ∨ ∃ k o, i = .yield k o ∧ wellFormed i = true) →
    (s.seq s.cur s.side).waiting = false →
    Runs i s (s.setSeq s.cur s.side { s.seq s.cur s.side with waiting := true, blocked := !(s.seq s.cur s.side.other).waiting })) ∧
  (∀ s : State, BothWait s → AccessesOver (s.task s.cur) → NoChains s s.cur → (s.task s.cur).mq = [] →
    (∀ k ∈ (s.task s.cur).cq, k.read = true) → Runs .tend s (ended s s.cur)) ∧
  -- what TEND waits for: a chain that has used the pool, a command on a tile, an access, a source still to be read
  (∀ s : State, BothWait s →
    (∃ h ∈ s.chainsOf (s.task s.cur).uid, h.pooled = true) ∨ (∃ m ∈ (s.task s.cur).mq, ∃ z, z < 8 ∧ m.op.onTile z = true) ∨
      ¬AccessesOver (s.task s.cur) ∨ (∃ k ∈ (s.task s.cur).cq, k.read = false) →
    Runs .tend s (s.setSeq s.cur .a { s.seq s.cur .a with blocked := false })) ∧
  -- HALT stops the chains with pool work and the matrix queue, each at its boundary, and then waits for the sources of collectives
  (∀ s : State, BothWait s → AccessesOver (s.task s.cur) → (s.core s.cur).chains = [] → (s.task s.cur).mwork.atBoundary = true →
    (∀ k ∈ (s.task s.cur).cq, k.read = true) → Runs .halt s (left (s.haltMatrix s.cur) s.cur)) ∧
  (∀ (s u : State) (busy : Bool), BothWait s → AccessesOver (s.task s.cur) → s.haltChains s.cur (s.task s.cur).uid = (u, busy) →
    let v := u.haltMatrix u.cur
    (busy = true ∨ (u.task u.cur).mwork.atBoundary = false → Runs .halt s u) ∧
    (busy = false → (u.task u.cur).mwork.atBoundary = true →
      ((∀ k ∈ (v.task u.cur).cq, k.read = true) → Runs .halt s (left v u.cur)) ∧
      ((∃ k ∈ (v.task u.cur).cq, k.read = false) → Runs .halt s v))) ∧
  (∀ (s u : State) (c : Nat) (h : Chain) (p : Option Bool), (s.core c).chains = [h] → s.poolWork c h = (u, p) → p ≠ some false →
    (h.run.bind (·.tx) = none → s.haltChains c h.uid = ((u.dropChain c h).addStat c 64#7, false)) ∧
    (h.run.bind (·.tx) ≠ none → s.haltChains c h.uid = (u, true))) ∧
  (∀ (s : State) (c : Nat), (s.task c).mq ≠ [] →
    ((s.haltMatrix c).task c).mq = [] ∧ ((s.haltMatrix c).task c).stat = (s.task c).stat ||| 64#7) ∧
  (∀ (s : State) (k : BitVec 4) (o : BitVec 6) (e : Nat), wellFormed (.yield k o) = true → BothWait s → (s.task s.cur).push = none →
    (s.task s.cur).await o.toNat = .none → (s.task s.cur).awaitsName k = false → AccessesOver (s.task s.cur) → NoChains s s.cur →
    (s.task s.cur).mq = [] → (∀ k ∈ (s.task s.cur).cq, k.read = true) →
    let clear (u : State) : State := u.modTask s.cur (fun t => { t with yreq := t.yreq &&& ~~~1#42 })
    let off := ((s.task s.cur).areg o.toNat).toNat / 32 * 32
    (handleIndex ((s.task s.cur).kreg k) = 0 → Runs (.yield k o) s (ended (clear (s.addTks s.cur 8#6)) s.cur)) ∧
    (Reaches s s.cur ((s.task s.cur).kreg k) false e → inside s s.cur e off 32 = 32 →
      let t := s.addTks s.cur 0#6
      let r := recOf (t.readNow s.cur e off 32) 0
      (s.recordOk (s.task s.cur).ctx r = true → s.pushRoom s.cur r = true →
        Runs (.yield k o) s (ended (clear ((t.modTask s.cur (fun t => { t with push := none })).pushRecord (s.task s.cur).part
          (s.task s.cur).ctx (s.cur / 64) none r)) s.cur)) ∧
      (s.recordOk (s.task s.cur).ctx r = false → Runs (.yield k o) s (t.takeTrap s.cur .a 0x11#8)))) ∧
  -- what the end leaves: an idle core, empty queues, no active loop, and a completion record where a status asks for one
  (∀ (s : State) (c : Nat), ((s.endTask c).core c).mode = .idle ∧ (∀ n, n < 8 → (((s.endTask c).task c).queue n).occ = 0) ∧
    (∀ (d : Side) (n : Nat) (l : LoopCtr), (((s.endTask c).task c).seq d).lc[n]? = some l → l.active = false) ∧ ((s.endTask c).member (s.task c).uid).ended = true) ∧
  -- elements left in the queues are discarded, and STAT.QDROP stands for the completion record
  (∀ (s : State) (c : Nat),
    let t := s.task c
    let left : Prop := ∃ (n : Nat) (q : QState), t.q[n]? = some q ∧ q.occ ≠ 0
    (left → ((s.endTask c).task c).stat = t.stat ||| 2#7 ∧
      ∀ k, s.kernel t.kid = some k → k.area.length < 2 ^ k.recLog → ∃ k' r, (s.endTask c).kernel t.kid = some k' ∧ k'.area = k.area ++ [r] ∧
        r.words.w0.toNat % 2 ^ 16 = 0x4001 ∧ r.words.w2 = (t.stat ||| 2#7).setWidth 64) ∧
    (¬left → ((s.endTask c).task c).stat = t.stat)) ∧
  (∀ (s : State) (c : Nat), (s.task c).tks = 0#6 → (s.task c).stat &&& 0x3A#7 = 0#7 → s.postCompletion c = s) ∧
  (∀ (s : State) (c : Nat) (k : Kernel), s.kernel (s.task c).kid = some k → k.area.length < 2 ^ k.recLog →
    ((s.task c).tks ≠ 0#6 ∨ (s.task c).stat &&& 0x3A#7 ≠ 0#7) →
    ∃ k' r, (s.postCompletion c).kernel (s.task c).kid = some k' ∧ k'.area = k.area ++ [r] ∧ r.words.w0.toNat % 2 ^ 16 = 0x4001 ∧
      r.words.w1 = (s.task c).tks.setWidth 64 ∧ r.words.w2 = (s.task c).stat.setWidth 64 ∧
      r.words.w3.toNat = (s.task c).vst.toNat + 2 ^ 8 * (s.task c).zst.toNat)

/-! Starts, saves and moves of tasks. -/

/-- R33, R118, R119, R122, R257, R259 to R267, R270, R334: a chosen record is staged; a staged record starts on its idle core; a save stops its
team step by step and writes its image; a restore reads the registers of the header, which are those the save wrote, and then the pool; what
a host completes or fails of a fault list. What an image keeps: logs 9, 10 and 12; the steps of a save: log 17; the lease at a restore: log
45; a record that returns to a full ring: log 84, to the ring of its PRIO: log 85. -/
def Obligations.StartsAndSaves : Prop :=
  -- what an idle core takes: a single task into its own slot, a team on the cores it claims
  (∀ (s : State) (core v : Nat) (r : RingRec) (rr : RoundRobin), s.dispatches (core / 64) = true → (s.core core).claim = none →
    (s.core core).mode = .idle → (s.core core).shadow = none → s.servedLater core = false → s.choose core false = some (r, v, rr) →
    (r.record.tasks = 1 → Runs (.dispatchChoice core) s (s.stage core v rr r)) ∧
    (∀ cs, r.record.tasks ≠ 1 → s.placement r.die r = some cs → Runs (.dispatchChoice core) s
      ((s.claimCores (r.neededOf cs) r.id).stage ((r.neededOf cs).headD core) v rr { r with claim := cs }))) ∧
  (∀ (s : State) (core v : Nat) (r : RingRec) (rr : RoundRobin),
    ((s.stage core v rr r).core core).shadow = some r ∧ (∀ x ∈ (s.stage core v rr r).records, x.id ≠ r.id)) ∧
  (∀ (s : State) (core v : Nat) (r : RingRec) (l : List RingRec), s.dispatches (core / 64) = true → (s.core core).claim = none →
    s.vacant core = true → 2048 ≤ (s.core core).idleFor → s.choose core false = none →
    let recs (e v : Nat) := (s.tenants core).flatMap (fun p => ((s.ring p e v).take 16).filter (s.eligible true))
    let others := (List.range 8).filter (fun e => e != core / 64)
    topLevel (fun v => others.any (fun e => !(recs e v).isEmpty)) = some v →
    recs (others.foldl (fun b e => if (recs b v).length < (recs e v).length then e else b) (others.headD 0)) v = r :: l →
    Runs (.otherDieTake core) s { s.setCore core { s.core core with shadow := some r } with
      records := s.records.filter (fun y => y.id != r.id) }) ∧
  -- a withdrawn record stands at the head of its ring and claims no core
  (∀ (s : State) (core i : Nat) (r : RingRec), (s.core core).shadow = some r →
    (s.withdraw core).records.head? = some { r with claim := [] } ∧ ((s.withdraw core).core core).shadow = none ∧
    ∀ c, ((s.withdraw core).core c).claim ≠ some r.id) ∧
  -- launch
  (∀ (s : State) (core : Nat) (r : RingRec), (s.core core).mode = .idle → (s.core core).shadow = some r → r.img = [] →
    s.device.dispatchStopped = false → s.entriesFree r.ctx r.record.tasks = true →
    Runs (.taskLaunch core) s (s.launchRecord r (if r.claim = [] then [core] else r.claim))) ∧
  (∀ (s : State) (i c : Nat), ((s.leaveCores i).core c).claim ≠ some i ∧ ∀ x, ((s.leaveCores i).core c).shadow = some x → x.id ≠ i) ∧
  (∀ (s : State) (r : RingRec) (k : Kernel) (c : Nat), s.kernel r.key = some k →
    let u := (s.startTask r k s.fresh 0 c).leaveCores r.id
    let p := u.partOf r.part
    (r.group = none ∨ p.packages.length ≤ 1 → s.launchRecord r [c] = u) ∧
    (∀ g, r.group = some g → 1 < p.packages.length → s.launchRecord r [c] = u.send (.started r.part g [(p.pkgIdx, c)]))) ∧
  -- the registers of a task at launch
  (∀ (s : State) (r : RingRec) (k : Kernel) (team tidx c i : Nat), s.freeEntry r.ctx = some i →
    let t := (s.startTask r k team tidx c).task c
    ((s.startTask r k team tidx c).core c).mode = .run ∧
    (∀ n, n < 32 → t.areg n = if n = 1 then BitVec.ofNat 64 r.record.foff else if n = 2 then BitVec.ofNat 64 r.record.joff
      else if n = 31 then BitVec.ofNat 64 (lk0 k.partw) else 0#64) ∧
    (∀ n, t.sreg n = 0#64) ∧ t.kreg 0#4 = handleOf (s.entry r.ctx i).gen i ∧ t.kreg 1#4 = r.record.ftok ∧ t.kreg 2#4 = r.record.jtok ∧
    (∀ d, (t.seq d).pc = BitVec.ofNat 32 r.record.entry ∧ (t.seq d).marks = 0#32 ∧ (t.seq d).ret = []) ∧
    t.partw = k.partw ∧ t.dqb = BitVec.ofNat 22 (dqBase k.partw) ∧ t.dql = BitVec.ofNat 17 (dqCap k.partw) ∧
    t.slipw = 8#7 ∧ t.stat = 0#7 ∧ t.tks = 0#6 ∧ t.vst = 0#3 ∧ t.zst = 0#16 ∧ t.mq = [] ∧ t.stores = []) ∧
  (∀ (s : State) (core : Nat), (s.core core).mode = .run → s.deadlineDue core = true → s.endIssued core = false →
    ((s.task core).frameOk = true → Runs (.forcedSave core) s
      (((s.teamCores (s.task core).uid).filter (fun c => (s.core c).mode == .run && !s.endIssued c)).foldl (fun s c => s.startSave c false) s)) ∧
    ((s.task core).frameOk = false → Runs (.forcedSave core) s (s.takeKill core .a 0x14#8 0#32))) ∧
  -- the steps of a save, which a death of the kernel abandons: every member stops; accesses go home and step 4 is done on each core; chains end their pool work; the image is written
  (∀ (s : State) (core : Nat) (k : Kernel), s.kernel (s.task core).kid = some k → k.dying ≠ none → Runs (.saveComplete core) s s) ∧
  (∀ (s : State) (core : Nat) (b : Bool), (s.core core).mode = .save b → (∀ k, s.kernel (s.task core).kid = some k → k.dying = none) →
    let cs := s.teamCores (s.task core).uid
    let toStop := cs.filter (fun c => (s.core c).mode == .run && !s.endIssued c)
    (toStop ≠ [] → Runs (.saveComplete core) s (toStop.foldl (fun s c => s.startSave c false) s)) ∧
    ((∀ c ∈ cs, ∃ b, (s.core c).mode = .save b) →
      ((∃ c ∈ cs, (s.task c).frameOk = false) → Runs (.saveComplete core) s (s.takeKill core .a 0x14#8 0#32)) ∧
      ((∀ c ∈ cs, (s.task c).frameOk = true) →
        ((∃ c ∈ cs, (s.core c).keptLease = none) → (∀ c ∈ cs, (s.task c).push = none) → Runs (.saveComplete core) s
          ((cs.filter (fun c => (s.core c).keptLease.isNone && s.accessesSettled c && s.matrixStops c)).foldl (fun s c => s.stopMatrix c) s)) ∧
        ((∃ c ∈ cs, (s.core c).keptLease = none) → (∃ c ∈ cs, (s.task c).push ≠ none) → Runs (.saveComplete core) s
          (cs.foldl (fun s c => s.pushForSave c) s)) ∧
        ((∀ c ∈ cs, (s.core c).keptLease ≠ none) → ∀ u busy,
          cs.foldl (fun (a : State × Bool) c => let y := a.1.endPoolWork c (s.task c).uid; (y.1, a.2 || y.2)) (s, false) = (u, busy) →
          (busy = true ∨ (∃ c ∈ cs, s.accessesSettled c = false) → Runs (.saveComplete core) s u) ∧
          (busy = false → (∀ c ∈ cs, s.accessesSettled c = true) → Runs (.saveComplete core) s (u.saveTeam core cs)))))) ∧
  (∀ (s u : State) (c : Nat) (h : Chain) (p : Option Bool), s.chainsOn c h.uid = [h] → s.poolWork c h = (u, p) →
    let ends : Prop := h.ending = true ∨ p = some true
    (ends → s.endPoolWork c h.uid = (u.setCore c { u.core c with
      chains := (u.core c).chains.map (fun x => if x.id = h.id then { x with ending := true } else x) }, true)) ∧
    (¬ends → s.endPoolWork c h.uid = (u, p.isNone))) ∧
  (∀ (s : State) (c : Nat),
    ((s.stopMatrix c).core c).keptLease = some (s.task c).lease ∧ ((s.stopMatrix c).task c).lease = .none) ∧
  -- the record that a save returns: IMG = 1, a new STAMP, at the head of the ring of its PRIO; its cores are idle
  (∀ (s : State) (core : Nat) (cs : List Nat),
    let t := s.task core
    let m := s.member t.uid
    FrameTakes s t.ctx t.record.ftok (t.record.foff + m.width * m.height * imageSize) → (∀ c ∈ cs, (s.core c).mode ≠ .save true) →
    ∃ r l, (s.saveTeam core cs).records = r :: l ∧ r.record.isImage = true ∧ r.record.w3 = (s.cyc.setWidth 40).setWidth 64 ∧
      r.stamp = s.cyc.setWidth 40 ∧ r.img = s.teamImage t.uid ∧ r.group = m.group ∧ r.place = .ring ∧ r.level = t.record.prio ∧
      r.die = core / 64 ∧ ∀ c ∈ cs, ((s.saveTeam core cs).core c).mode = .idle) ∧
  -- one that misses a page goes to the fault list, or back to its ring where FULL has come and only REDUCED made the miss (R325)
  (∀ (s : State) (core c : Nat) (l : List Nat),
    let t := s.task core
    let m := s.member t.uid
    let only := s.stageMiss (s.core c).missedReduced t.ctx t.part (s.missedBy c).toNat
    FrameTakes s t.ctx t.record.ftok (t.record.foff + m.width * m.height * imageSize) → (s.core c).mode = .save true →
    ∃ r rs, (s.saveTeam core (c :: l)).records = r :: rs ∧ r.place = (if only = true ∧ s.device.stage = .full then .ring
      else .fault (s.missedBy c) (s.task c).uid only)) ∧
  -- what the header of an image keeps: read again, it gives the registers, the queues and the counters that the save wrote
  (∀ (t u : Task) (m : Member) (susp : Bool) (written : BitVec 1536) (priv : Nat → Byte), InLayout t →
    let v := u.ofHeader (t.header m susp written priv)
    v.a = t.a ∧ v.sr = t.sr ∧ v.k = t.k ∧ v.m = t.m ∧ v.slipw = t.slipw ∧ v.qfmt = t.qfmt ∧ v.tks = t.tks ∧ v.vst = t.vst ∧
    v.zst = t.zst ∧ v.stat = t.stat ∧ v.dqHead = t.dqHead ∧ v.dqCount = t.dqCount ∧ v.spk = t.spk ∧ v.spov = t.spov ∧
    v.mprog = t.mprog ∧ v.pb = t.pb ∧ v.lease = t.lease ∧ v.bins = t.bins ∧ writtenOf (t.header m susp written priv) = written ∧
    (u.partw = t.partw → ∀ n, n < pwTiles t.partw → v.zpw[n]? = t.zpw[n]? ∧ v.zexp[n]? = t.zexp[n]?) ∧
    (∀ n, n < 8 → (v.queue n).occ = (t.queue n).occ ∧ (v.queue n).head = (t.queue n).head ∧ (v.queue n).p = (t.queue n).p ∧
      (v.queue n).g = (t.queue n).g ∧ (v.queue n).awaiting = [] ∧ (v.queue n).fresh = 0) ∧
    (∀ d : Side, (v.seq d).pc = (t.seq d).pc ∧ (v.seq d).marks = (t.seq d).marks ∧ (v.seq d).ret = (t.seq d).ret ∧
      (v.seq d).spilled = (t.seq d).spilled ∧ (v.seq d).bq = (t.seq d).bq ∧ (v.seq d).order = (t.seq d).order ∧
      ∀ (n : Nat) (l : LoopCtr), (t.seq d).lc[n]? = some l → ∃ y : LoopCtr, (v.seq d).lc[n]? = some y ∧ y.count = l.count ∧ y.last = l.last ∧ y.active = l.active) ∧
    (∀ n, n < 16 → (t.stream n).bound = true → v.stream n = { t.stream n with share := none }) ∧
    (∀ f, f < 256 → (v.flag (BitVec.ofNat 8 f)).pushed = (t.flag (BitVec.ofNat 8 f)).pushed ∧
      (v.flag (BitVec.ofNat 8 f)).claimed = (t.flag (BitVec.ofNat 8 f)).claimed ∧ (v.flag (BitVec.ofNat 8 f)).done = (t.flag (BitVec.ofNat 8 f)).done)) ∧
  -- restore: the header through the frame's token, new DOMS, unshared streams, the lease waited for; then the lines
  (∀ (s : State) (core : Nat) (r : RingRec), (s.core core).mode = .idle → (s.core core).shadow = some r → r.img ≠ [] →
    s.device.dispatchStopped = false →
    (∀ u, s.restoreRecord r (if r.claim = [] then [core] else r.claim) = .ok u → Runs (.contextRestore core) s u) ∧
    (∀ ctx e, s.restoreRecord r (if r.claim = [] then [core] else r.claim) = .error (.held ctx e) →
      Runs (.contextRestore core) s (s.noteFrame core (some (ctx, e))))) ∧
  (∀ (s u : State) (r : RingRec) (x : SavedTask) (j c h : Nat) (b : BitVec 6), x.ended = false → x.lines = none →
    s.engineRead r.ctx r.record.ftok ((r.record.foff + imageSize * j : Nat) : Int) 16384 = .ok (h, b) → s.beginRestore r x j c = .ok u →
    let t := x.task.ofHeader h
    (u.core c).mode = .restore ∧ (u.core c).written = writtenOf h ∧ (u.task c).a = t.a ∧ (u.task c).k = t.k ∧ (u.task c).seqA = t.seqA ∧
    (u.task c).seqX = t.seqX ∧ (u.task c).q = t.q ∧ (u.task c).record = r.record ∧ (u.task c).frameOk = s.frameUsable r.ctx r.record ∧
    (u.task c).doms = domsOf r.part (s.partOf r.part).pkgIdx c r.record.width r.record.height j ∧
    (u.task c).lease = (if t.lease = .none then .none else .waiting) ∧ (∀ (n : Nat) (y : StreamReg), (u.task c).streams[n]? = some y → y.share = none)) ∧
  (∀ (s u : State) (core : Nat) (x : SavedTask), (s.core core).mode = .restore → (s.core core).restoring = some x →
    s.restoreLines core x = .ok u → Runs (.contextRestore core) s (u.resumeTask core)) ∧
  (∀ (s : State) (core : Nat) (x : SavedTask) (l : List (Nat × Nat)) (i v j : Nat), x.lines = some l →
    List.Pairwise (fun p q => p.1 ≠ q.1) l → (∀ p ∈ l, p.1 < 1536) → j < 4096 →
    ∃ u, s.restoreLines core x = .ok u ∧
      ((i, v) ∈ l → u.mem.read (poolBase core + 4096 * i + j) = BitVec.ofNat 8 (v / 2 ^ (8 * j))) ∧
      (i < 1536 → (∀ p ∈ l, p.1 ≠ i) → u.mem.read (poolBase core + 4096 * i + j) = 0#8)) ∧
  (∀ (s : State) (part i uid : Nat) (r : RingRec) (va : BitVec 64) (red : Bool),
    s.records.find? (fun x => x.id == i && x.part == part) = some r → r.place = .fault va uid red →
    let r' := { r with record := r.record.stamped s.cyc, stamp := s.cyc.setWidth 40, level := r.record.prio, place := .ring, headSince := none }
    Runs (.faultComplete part i) s { s with records := r' :: s.records.filter (fun x => x.id != i) } ∧
    Runs (.faultFail part i) s (s.killKernel r.key (((r.img.find? (fun x => x.task.uid == uid)).map (·.lastCore)).getD 0) 0x12#8
      (s.pcsOf uid)))

/-- R113, R114, R118, R147, R288, R291 to R294: aging, team claims, and the move of a record between dies and packages. Promotion only while
RUNNING: log 44; into a full ring: log 83; at the head of a full ring: log 84; a record whose images wait to be sent: log 76; a claim whose
record loses its place: log 91; claims and offers after all have declined, MIGT / 2 rounded down: log 103; what an offer carries and when
it is declined: log 104; what packages tell each other of members and launch groups: log 47. -/
def Obligations.RecordsAgeClaimAndMove : Prop :=
  (∀ (s : State) (i : Nat) (r : RingRec), s.ringRecord i = some r →
    let p := s.partOf r.part
    p.age ≠ 0#40 → p.age.toNat < (s.cyc.toNat + 2 ^ 40 - r.stamp.toNat) % 2 ^ 40 → r.level < 3 → p.vstate = .running →
    s.ringRoom r.part r.die (r.level + 1) 1 = true →
    Runs (.promotion i) s { s with records := s.records.filter (fun x => x.id != i) ++ [{ r with
      level := r.level + 1, stamp := s.cyc.setWidth 40, record := r.record.stamped s.cyc,
      headSince := if r.claim = [] then none else r.headSince }] }) ∧
  (∀ (s : State) (i : Nat) (r : RingRec), s.ringRecord i = some r → (s.partOf r.part).age = 0#40 ∨ 3 ≤ r.level → Runs (.promotion i) s s) ∧
  -- each ring of each die has its own capacity, at most 1,024 in REDUCED
  (∀ (s : State) (part die level n : Nat), s.ringRoom part die level n = true ↔ (s.ring part die level).length + n ≤
    (let cap := 2 ^ ((s.partOf part).ringLog[4 * die + level]?.getD 10); if s.device.stage = .reduced then min cap 1024 else cap)) ∧
  (∀ (s : State) (i : Nat) (r : RingRec) (cs : List Nat), s.ringRecord i = some r → 1 < r.record.tasks → r.claim = [] →
    s.allocatable r = true → s.atHead r = true → (s.partOf r.part).inSlice = true → s.dispatches r.die = true → s.placement r.die r = none →
    (s.partOf r.part).migt.toNat / 2 ≤ s.headWait r → s.leastBusy r = some cs →
    Runs (.teamClaim i) s (recordSet (s.claimCores (r.neededOf cs) i) i (fun r => { r with claim := cs }))) ∧
  (∀ (s : State) (i : Nat) (r : RingRec), s.ringRecord i = some r → r.claim ≠ [] → r.allCores r.claim s.vacant = true → s.allocatable r = true →
    (s.partOf r.part).inSlice = true → s.dispatches r.die = true →
    let u : State := { s with records := s.records.filter (fun x => x.id != i) }
    (r.img = [] → Runs (.teamClaimStart i) s (u.launchRecord r r.claim)) ∧
    (∀ v, r.img ≠ [] → u.restoreRecord r r.claim = .ok v → Runs (.teamClaimStart i) s v)) ∧
  -- an offer goes to the first candidate that advertises a placement; without one, or out of slice, the record waits MIGT cycles more
  (∀ (s : State) (i : Nat) (r : RingRec), Numbered s i r → r.place = .ring → 1 < r.record.tasks → (s.partOf r.part).migt.toNat ≤ s.headWait r →
    let u := recordSet (s.leaveCores r.id) r.id (fun r => { r with claim := [] })
    ((s.partOf r.part).inSlice = true → r.claim ≠ [] ∨ s.atHead r = true → Runs (.migrationOffer i) s (u.offerNext { r with claim := [] } 0)) ∧
    ((s.partOf r.part).inSlice = false → (r.claim ≠ [] → Runs (.migrationOffer i) s u) ∧ (r.claim = [] → Runs (.migrationOffer i) s s))) ∧
  (∀ (s : State) (r : RingRec) (k : Nat),
    let p := s.partOf r.part
    let last := 8 * p.packages.length
    (∀ j, k < j → j < last → p.inSlice = true → s.offerable r j = true → (∀ m, k < m → m < j → s.offerable r m = false) →
      s.offerNext r k = (if r.migrates = true then s else s.tellMigrating r true).offerTo r j) ∧
    (p.inSlice = false ∨ (∀ j, k < j → j < last → s.offerable r j = false) →
      s.offerNext r k = recordSet (if r.migrates = true then s.tellMigrating r false else s) r.id
        (fun r => { r with place := .ring, headSince := some s.cyc, offer := none }))) ∧
  (∀ (s : State) (r : RingRec) (j : Nat),
    (j < 8 → s.offerTo r j = recordSet s r.id (fun r => { r with place := .offered j, offer := none })) ∧
    (8 ≤ j → s.offerTo r j = (recordSet { s with fresh := s.fresh + 1 } r.id (fun r => { r with place := .offered j, offer := some s.fresh })).send
      (.migrationOffer ((s.partOf r.part).candidate j) (s.peerOffer r (j % 8) s.fresh)))) ∧
  -- the peers hear that a record of a launch group migrates, or does so no longer; one that has an offer, that the record is called back
  (∀ (s : State) (r : RingRec) (on : Bool),
    (∀ g, r.group = some g → 1 < (s.partOf r.part).packages.length → s.tellMigrating r on = s.send (.migrating r.part g r.img.isEmpty on)) ∧
    (r.group = none ∨ (s.partOf r.part).packages.length ≤ 1 → s.tellMigrating r on = s)) ∧
  (∀ (s : State) (r : RingRec) (k n : Nat), r.offer = some n → r.place = .offered k ∨ r.place = .moving k false →
    s.callBack r = (s.tellMigrating r false).send (.migrationWithdraw r.part ((s.partOf r.part).candidate k) n)) ∧
  -- candidates 1 to 7 are the other dies of the package; from 8 on the dies of the other packages, in their order
  (∀ (s : State) (r : RingRec) (k : Nat), 0 < k → k < 8 →
    (s.offerable r k = true ↔ ∃ a ∈ (s.die ((r.die + k) % 8)).adverts, r.fits a = true)) ∧
  (∀ (s : State) (r : RingRec) (j d : Nat), 0 < j → d < 8 →
    let p := s.partOf r.part
    (s.offerable r (8 * j + d) = true ↔
      ∃ l, (p.packages[(p.pkgIdx + j) % p.packages.length]?.getD 0, d, l) ∈ s.device.peerAdverts ∧ ∃ a ∈ l, r.fits a = true)) ∧
  (∀ (r : RingRec) (a : Advert), r.fits a = true ↔ a.part = r.part ∧ a.width = r.record.width ∧ a.height = r.record.height ∧
    (r.img = [] ∨ (a.px, a.py) = originParity r.record.width r.img)) ∧
  -- advertisements: a die's own, told to its package and to the partition's others; a peer's; the package has eight dies
  (∀ (s : State) (die : Nat), 8 ≤ die → Runs (.advertisement (.own die)) s s) ∧
  (∀ (s : State) (die : Nat), die < 8 → ∃ t, Runs (.advertisement (.own die)) s t ∧
    ∀ p w h px py, (⟨p, w, h, px, py⟩ : Advert) ∈ (t.die die).adverts ↔
      (1 ≤ w ∧ w ≤ 8 ∧ 1 ≤ h ∧ h ≤ 8 ∧ p ∈ NMap.keys s.partitions ∧ ∃ x y, x + w ≤ 8 ∧ y + h ≤ 8 ∧ px = x % 2 ∧ py = y % 2 ∧
        ∀ i j, i < w → j < h → let c := 64 * die + 8 * (y + j) + x + i
          s.vacant c = true ∧ (s.core c).claim = none ∧ s.tenant c p = true)) ∧
  (∀ (s : State) (die part pkg : Nat) (p : Partition), die < 8 → s.partitions = [(part, p)] → p.peers = [pkg] →
    ∃ t l, Runs (.advertisement (.own die)) s t ∧ t.outbox = s.outbox ++ [.advertisement part pkg die l] ∧
      ∀ a, a ∈ l ↔ a ∈ (t.die die).adverts ∧ a.part = part) ∧
  (∀ (s : State) (pkg die : Nat) (l : List Advert),
    ∃ t, Runs (.advertisement (.peer pkg die l)) s t ∧ (pkg, die, l) ∈ t.device.peerAdverts ∧
      (∀ m, (pkg, die, m) ∈ t.device.peerAdverts → m = l) ∧
      (∀ x y m, x ≠ pkg ∨ y ≠ die → ((x, y, m) ∈ t.device.peerAdverts ↔ (x, y, m) ∈ s.device.peerAdverts))) ∧
  -- acceptance: a die of this package claims a placement that it holds now, or the next is asked; a peer accepts, or declines
  (∀ (s : State) (i k : Nat) (r : RingRec), Numbered s i r → r.place = .offered k →
    (8 ≤ k → r.offer = some i → Runs (.migrationAccept (.own i)) s (recordSet s r.id (fun r => { r with place := .moving k false })) ∧
      Runs (.migrationOffer i) s (s.offerNext r k)) ∧
    (r.offer ≠ some i → Runs (.migrationOffer i) s s ∧ (8 ≤ k → Runs (.migrationAccept (.own i)) s s)) ∧
    (∀ cs, k < 8 → s.dispatches ((r.die + k) % 8) = true → s.placement ((r.die + k) % 8) { r with die := (r.die + k) % 8 } = some cs →
      Runs (.migrationAccept (.own i)) s (recordSet (s.claimCores (r.neededOf cs) r.id) r.id (fun x => { x with place := .moving k false, claim := cs }))) ∧
    (k < 8 → s.accepts ((r.die + k) % 8) r = none → Runs (.migrationAccept (.own i)) s (s.offerNext r k))) ∧
  -- a peer's offer: its placement is claimed and its entries stand here, or it is declined; or the peer takes it back
  (∀ (s : State) (pkg : Nat) (o : PeerOffer), (s.partOf o.part).packages.contains pkg = true → (NMap.get s.contexts o.ctx).isSome = true →
    s.partOfContext o.ctx = o.part →
    let q := awaitedRecord o pkg s.fresh []
    let asked : RingRec := { q with img := offeredMembers o }
    let taken := o.entries.foldlM (fun u x => u.installEntry o.ctx [] x) s
    let key := kernelKey o.ctx o.record.kid
    (∀ k cs u, s.kernel key = some k → k.dying = none → k.deaths = o.deaths → (s.partOf o.part).vstate = .running →
      s.accepts o.die asked = some cs → taken = some u →
      Runs (.migrationAccept (.offered pkg o)) s ((({ u with fresh := u.fresh + 1, records := u.records ++ [{ q with claim := cs }] } : State).claimCores
        (asked.neededOf cs) s.fresh).send (.migrationAccept o.part pkg o.number))) ∧
    ((∀ k, s.kernel key = some k → k.dying ≠ none ∨ k.deaths ≠ o.deaths) ∨ (s.partOf o.part).vstate ≠ .running ∨ s.accepts o.die asked = none ∨
        taken = none → Runs (.migrationAccept (.offered pkg o)) s (s.send (.migrationDecline o.part pkg o.number)))) ∧
  (∀ (s : State) (pkg n : Nat),
    (∀ r, s.records.find? (fun x => x.place == .awaited pkg n) = some r → Runs (.migrationAccept (.withdrawn pkg n)) s
      { s.leaveCores r.id with records := s.records.filter (fun x => x.id != r.id) }) ∧
    (s.records.find? (fun x => x.place == .awaited pkg n) = none → Runs (.migrationAccept (.withdrawn pkg n)) s s)) ∧
  -- the move: images travel with the record, to the head of its ring at the target with a new STAMP, or in a message
  (∀ (s : State) (i k : Nat) (r : RingRec) (img : List SavedTask), Stands s i r → r.place = .moving k false → s.sentImages r = .ok img →
    let q := { r with img := img }
    let pkg := (s.partOf r.part).candidate k
    (8 ≤ k → s.movable r = true → Runs (.migration (.own i)) s (((recordSet s i (fun r => { r with place := .moving k true })).sendMembers q pkg).send
      (.migration pkg (s.peerRecord q (k % 8))))) ∧
    (8 ≤ k → s.movable r = false → Runs (.migration (.own i)) s s) ∧
    (k < 8 →
      let r' := { q with die := (r.die + k) % 8, stamp := s.cyc.setWidth 40, record := r.record.stamped s.cyc, place := .moving k true, headSince := none }
      Runs (.migration (.own i)) s { s with records := r' :: s.records.filter (fun x => x.id != i) })) ∧
  -- the acknowledgement: the record is gone, and may be dispatched at the target; one that has not started is unplaced there
  (∀ (s : State) (i k : Nat) (r : RingRec), Numbered s i r → r.place = .moving k true →
    let u := s.tellMigrating r false
    (8 ≤ k →
      let v : State := { u with records := s.records.filter (fun x => x.id != r.id) }
      Runs (.migrationAck i) s (if r.img = [] then v.modGroup r.group (fun x => { x with open_ := x.open_ + 1 }) else v)) ∧
    (k < 8 → Runs (.migrationAck i) s (recordSet u r.id (fun r => { r with place := .ring })))) ∧
  -- from then on the peer runs its members
  (∀ (s : State) (r : RingRec) (pkg : Nat) (x : SavedTask), x ∈ r.img → x.ended = false →
    ((s.sendMembers r pkg).member x.task.uid).pkg = some pkg ∧ (s.sendMembers r pkg).records = s.records) ∧
  -- a peer's record comes in for the claim that waits for it: head of its ring, the cores claimed, the peer told; without one it is discarded
  (∀ (s : State) (pkg : Nat) (r : PeerRecord) (k : Kernel) (p : RingRec), (s.partOf r.part).packages.contains pkg = true →
    (NMap.get s.contexts r.ctx).isSome = true → s.partOfContext r.ctx = r.part → s.kernel (kernelKey r.ctx r.record.kid) = some k →
    s.records.find? (fun x => x.place == .awaited pkg r.number) = some p → r.group = none →
    ∃ t q l, Runs (.migration (.peer pkg r)) s t ∧ t.records = q :: l ∧ q.id = p.id ∧ (∀ x ∈ l, x.id ≠ p.id) ∧ q.die = r.die ∧ q.level = r.level ∧
      q.claim = p.claim ∧ q.place = .ring ∧ q.record = r.record.stamped s.cyc ∧ q.stamp = s.cyc.setWidth 40 ∧ q.img.length = r.tasks.length ∧
      t.outbox = s.outbox ++ [.migrationAck r.part pkg r.number]) ∧
  (∀ (s : State) (pkg : Nat) (r : PeerRecord), s.kernel (kernelKey r.ctx r.record.kid) = none ∨
      s.records.find? (fun x => x.place == .awaited pkg r.number) = none → Runs (.migration (.peer pkg r)) s s) ∧
  -- an entry that comes with a record keeps its index and generation, its frame list in the first room here
  (∀ (s : State) (ctx run : Nat) (ids : List Nat) (x : PeerEntry) (c : Context), NMap.get s.contexts ctx = some c →
    s.holdsEntry ctx x = false → x.index < c.petSize → (c.entry x.index).state = .free → c.listRoom x.frames.length = some run →
    ∃ t, s.installEntry ctx ids x = some t ∧ (t.entry ctx x.index).gen = x.gen ∧ (t.entry ctx x.index).infl = 0 ∧
      (t.entry ctx x.index).len = x.len ∧ (t.entry ctx x.index).w = x.w ∧ (t.entry ctx x.index).state = PetState.ofCode x.state ∧
      (t.entry ctx x.index).freeLater = x.freeLater ∧
      (t.entry ctx x.index).frames = x.frames.map (fun f => ⟨f.size, f.phys, f.dte, f.swz, f.leaf, f.wake, f.dirty⟩) ∧
      (Origin.ofCode x.origin = .scratchpad → (t.entry ctx x.index).base = poolBase 0 + x.base) ∧
      (Origin.ofCode x.origin ≠ .scratchpad → x.frames ≠ [] → (t.entry ctx x.index).base = run)) ∧
  -- its images: registers and counters by the header, pool lines as the message brings them
  (∀ (r : PeerRecord) (k : Kernel) (uid base : Nat) (x : PeerTask),
    let y := savedOfPeer r k uid base x
    y.task.uid = uid ∧ y.written = writtenOf x.header ∧ y.lines = some x.lines ∧
    y.task.seqA.waiting = y.task.seqX.waiting ∧ (y.task.seqA.waiting = true ↔ x.released = true ∨ (arrivedOf x.header).isSome = true) ∧
    (∀ (n : Nat) (l : LoopCtr), n < 3 → (y.task.seqA.lc[n]? = some l → l.start = x.starts[n]?.getD 0#32) ∧
      (y.task.seqX.lc[n]? = some l → l.start = x.starts[3 + n]?.getD 0#32)) ∧
    ∃ t : Task, t.kid = kernelKey r.ctx r.record.kid ∧ t.partw = k.partw ∧
      y.task = { t.ofHeader x.header with seqA := y.task.seqA, seqX := y.task.seqX } ∧
      y.task.seqA.pc = (t.ofHeader x.header).seqA.pc ∧ y.task.seqX.pc = (t.ofHeader x.header).seqX.pc) ∧
  -- a member on another package is saved there, or runs on, or ends
  (∀ (s : State) (uid : Nat), (s.member uid).pkg ≠ none → (s.member uid).ended = false →
    Runs (.migration (.ended uid)) s ((s.setMember uid { s.member uid with ended := true, arrived := none, away := false }).leaveGroup
      (s.member uid).group 1)) ∧
  (∀ (s : State) (uid : Nat) (b : Bool), (s.member uid).pkg ≠ none →
    Runs (.migration (.away uid b)) s (s.setMember uid { s.member uid with away := b })) ∧
  -- a launch group of a peer begins, its records unplaced; the tasks of one start there; one migrates, or does so no longer
  (∀ (s : State) (part key records tasks : Nat), Runs (.migration (.launched part key records tasks)) s
    { s with fresh := s.fresh + 1, groups := NMap.set s.groups s.fresh ⟨part, key, tasks, records, 0⟩ }) ∧
  (∀ (s : State) (g pkg : Nat) (x : Group) (c : Nat × Nat), NMap.get s.groups g = some x →
    let m : Member := { Member.first x.kid x.part 0 0 1 1 (some g) (s.placeNumber x.part c) with pkg := some pkg }
    Runs (.migration (.started g pkg [c])) s (({ s.setMember s.fresh m with fresh := s.fresh + 1 } : State).modGroup (some g)
      (fun x => { x with open_ := x.open_ - 1 }))) ∧
  (∀ (s : State) (g : Nat) (x : Group) (unstarted on : Bool), NMap.get s.groups g = some x →
    let n := if unstarted = true then x.moving else x.open_
    let n' := if on = true then n + 1 else n - 1
    Runs (.migration (.migrating g unstarted on)) s
      { s with groups := NMap.set s.groups g (if unstarted = true then { x with moving := n' } else { x with open_ := n' }) }) ∧
  (∀ (s : State) (g : Nat) (x : Group) (f : Group → Group), NMap.get s.groups g = some x →
    s.modGroup (some g) f = { s with groups := NMap.set s.groups g (f x) })

/-- R207, R257, R268, R288, R290, R298, R306, R307, R315, R32: the death of a kernel: the sweep discards what its tasks and records hold and frees its entries; the
death record follows once every other package has acknowledged. Fields and counts of the death record: log 38; peers: log 15. -/
def Obligations.KernelDeath : Prop :=
  (∀ (s : State) (kid : Nat) (k : Kernel) (d : Death), s.kernel kid = some k → k.dying = some d → d.swept = false →
    let peers := (s.partOf (s.partOfContext k.ctx)).peers
    let d' := { d with swept := true, tasks := s.tasksOf kid, freed := s.entriesOf k.ctx kid, acks := peers, since := s.cyc }
    let u := (s.sweep kid k.ctx).modKernel kid (fun k => { k with dying := some d' })
    Runs (.kernelDeath kid) s (({ u with outbox := u.outbox ++ peers.map (fun p => Msg.kill p kid) } : State).closeDeath kid)) ∧
  (∀ (s : State) (kid : Nat) (k : Kernel) (d : Death), s.kernel kid = some k → k.dying = some d → d.swept = true → d.acks = [] →
    k.area.length < 2 ^ k.recLog →
    ∃ t k' r, Runs (.kernelDeath kid) s t ∧ t.kernel kid = some k' ∧ k'.dying = none ∧ k'.area = k.area ++ [r] ∧
      r.words.w0.toNat % 2 ^ 8 = 5 ∧ r.words.w1 = BitVec.ofNat 64 d.absorbed ∧ r.words.w2 = BitVec.ofNat 64 d.tasks ∧
      r.words.w3 = BitVec.ofNat 64 d.freed) ∧
  -- after a sweep no core runs the kernel and no record or waiting record names it
  (∀ (s : State) (kid ctx : Nat), NMap.sorted s.cores = true →
    (∀ c, ((s.sweep kid ctx).core c).mode ≠ .idle → ((s.sweep kid ctx).task c).kid ≠ kid) ∧
    (∀ r ∈ (s.sweep kid ctx).records, r.key ≠ kid)) ∧
  -- the sweep counts as a death, and the kernel's launch groups stand for nothing any more
  (∀ (s : State) (kid ctx : Nat),
    (∀ k, s.kernel kid = some k → ∃ k', (s.sweep kid ctx).kernel kid = some k' ∧ k'.deaths = k.deaths + 1) ∧
    (∀ g x, NMap.get s.groups g = some x → x.kid = kid → NMap.get (s.sweep kid ctx).groups g = some ⟨x.part, kid, 0, 0, 0⟩)) ∧
  -- a word in execution completes: an atomic in flight takes its step before its task is discarded (log 100)
  (∀ (s : State) (c : Nat) (f : AtomicFlight), (s.task c).atomics = [f] → (s.task c).vatom = none → (s.task c).push = none →
    (s.task c).seqA.flushing = none → (s.task c).seqX.flushing = none → (s.stopTask c).mem = (s.atomicStep c 0 f).mem) ∧
  (∀ (s : State) (kid : Nat) (k : Kernel), s.kernel kid = some k →
    Runs (.kill kid) s { (s.sweep kid k.ctx) with outbox := (s.sweep kid k.ctx).outbox ++ [.killAck kid] }) ∧
  (∀ (s : State) (kid pkg : Nat) (k : Kernel) (d : Death), s.kernel kid = some k → k.dying = some d → d.swept = true → pkg ∈ d.acks →
    let ack (u : State) : State := (u.modKernel kid (fun k => { k with
      dying := k.dying.map (fun d => { d with acks := d.acks.filter (fun p => p != pkg) }) })).closeDeath kid
    Runs (.killAcknowledgement kid pkg) s (ack s) ∧
    (10000 * s.device.clock ≤ (s.cyc - d.since).toNat → Runs (.killAckTimeout kid pkg) s (ack (s.packageFails pkg))) ∧
    ((s.cyc - d.since).toNat < 10000 * s.device.clock → Runs (.killAckTimeout kid pkg) s s)) ∧
  -- what peers do here, in a partition's security domain
  (∀ (s : State) (part a n : Nat), s.atHome a n = true → s.owns part a n false = true →
    Runs (.remoteAccess part (.read a n)) s
      { s with outbox := s.outbox ++ [.readData ((List.range n).map (fun i => s.homeByte (a + i)))] }) ∧
  (∀ (s : State) (part a : Nat) (bs : List Byte), bs ≠ [] → s.atHome a bs.length = true → s.owns part a bs.length true = true →
    ∃ t, Runs (.remoteAccess part (.write a bs)) s t ∧ t.outbox = s.outbox ++ [.writeAck] ∧
      (∀ i b, bs[i]? = some b → t.mem.read (a + i) = b) ∧ (∀ x, x < a ∨ a + bs.length ≤ x → t.mem.read x = s.mem.read x)) ∧
  (∀ (s : State) (part a : Nat) (v : BitVec 64), s.atHome a 8 = true → s.owns part a 8 true = true →
    ∃ t, Runs (.remoteAccess part (.atomic a 8 .add false v 0#64)) s t ∧
      t.outbox = s.outbox ++ [.fetched (BitVec.ofNat 64 (s.readNat a 8))] ∧
      (∀ i, i < 8 → t.mem.read (a + i) = BitVec.ofNat 8 ((s.readNat a 8 + v.toNat) % 2 ^ 64 / 2 ^ (8 * i)))) ∧
  (∀ (s : State) (part a n : Nat), 0 < n → s.atHome a n = true → s.owns part a n false = false → Runs (.remoteAccess part (.read a n)) s s) ∧
  -- in this package's wake window as the partition reaches it a load finds the counts, and nothing else is taken
  (∀ (s : State) (part a n : Nat), Config.wakeBase + 65536 * part ≤ a → a + n ≤ Config.wakeBase + 65536 * (part + 1) → (s.partOf part).own.wakeRegs ≠ [] →
    Runs (.remoteAccess part (.read a n)) s { s with outbox := s.outbox ++ [.readData ((List.range n).map (fun i => s.homeByte (a + i)))] } ∧
    (∀ bs, bs.length = n → Runs (.remoteAccess part (.write a bs)) s s)) ∧
  -- the far tier is read, never written
  (∀ (s : State) (part a : Nat) (bs : List Byte), s.atHome a bs.length = true → s.owns part a bs.length true = false →
    Runs (.remoteAccess part (.write a bs)) s s) ∧
  (∀ (s : State) (part a n st o : Nat), place s.nstr a = some (.far st o) → s.owns part a n true = false) ∧
  (∀ (s : State) (part a : Nat) (bs : List Byte),
    (s.atPeer a bs.length = true → ∃ t, Runs (.remoteAccess part (.home a bs)) s t ∧ t.outbox = s.outbox ∧
      (∀ i b, bs[i]? = some b → t.mem.read (a + i) = b) ∧ (∀ x, x < a ∨ a + bs.length ≤ x → t.mem.read x = s.mem.read x)) ∧
    (s.atPeer a bs.length = false → Runs (.remoteAccess part (.home a bs)) s s)) ∧
  (∀ (s : State) (part reg : Nat) (v : BitVec 64), Runs (.stololayrWake part reg v) s (s.wakeWrite part reg v) ∧
    Runs (.wakeRegisterWrite part reg v) s (s.wakeWrite part reg v)) ∧
  (∀ (s : State) (part reg gi : Nat) (g : Graph), s.boundGraph part reg = some (gi, g) ↔
    (NMap.get s.wakeRegs reg = some gi ∧ NMap.get s.graphs gi = some g ∧ g.part = part)) ∧
  (∀ (s : State) (part reg : Nat) (v : BitVec 64), s.boundGraph part reg = none → s.wakeWrite part reg v = s) ∧
  (∀ (s : State) (part reg gi : Nat) (v : BitVec 64) (g : Graph), s.boundGraph part reg = some (gi, g) →
    (v.toNat < 2 ^ 32 → g.registered = true → v.setWidth 32 = handleOf g.gen gi → g.wakes < 64 →
      s.wakeWrite part reg v = { s with graphs := NMap.set s.graphs gi { g with wakes := g.wakes + 1, sources := g.sources ++ [none] } }) ∧
    (v.toNat < 2 ^ 32 → g.registered = false ∨ v.setWidth 32 ≠ handleOf g.gen gi ∨ 64 ≤ g.wakes →
      s.wakeWrite part reg v = { s with graphs := NMap.set s.graphs gi { g with wakeErrors := g.wakeErrors + 1 } }) ∧
    (2 ^ 32 ≤ v.toNat → s.wakeWrite part reg v = s))

/-- R158, R161, R164, R165, R167, R169, R172, R321, R322, R329, R330: what system software does to pinned entries, hash masks, the page-walk cache and
the dirty log, and the patrol scrubber. When a recorded free applies: log 50; what the scrubber writes back: log 62; guest-physical
addresses, and a ring outside the near tier: log 31; a revocation request of an entry under revocation, a refresh or kill of one that is not HELD: log 92. -/
def Obligations.Drydown : Prop :=
  (∀ e : PetEntry,
    (e.state = .active ∨ e.state = .dead → e.free = { e with state := .freeing, gen := e.gen + 1#12 }) ∧
    (e.state = .quiescing ∨ e.state = .held → e.free = { e with freeLater := true }) ∧
    (e.state = .free ∨ e.state = .freeing ∨ e.state = .quarantined → e.free = e)) ∧
  (∀ (s : State) (ctx i : Nat),
    let e := s.entry ctx i
    (e.state = .active → Runs (.revocationRequest ctx i) s ((s.setEntry ctx i { e with state := .quiescing }).drainEntry ctx i)) ∧
    (e.state = .quiescing ∨ e.state = .held → Runs (.revocationRequest ctx i) s s) ∧
    (e.state = .free ∨ e.state = .freeing ∨ e.state = .dead ∨ e.state = .quarantined →
      Runs (.revocationRequest ctx i) s (s.notify (.rejected "REVOCATION_REQUEST"))) ∧
    (e.state = .quiescing → e.infl = 0 → Runs (.entryHeld ctx i) s ((s.setEntry ctx i { e with state := .held }).notify (.entryHeld ctx i))) ∧
    (e.state ≠ .quiescing ∨ e.infl ≠ 0 → Runs (.entryHeld ctx i) s s) ∧
    (e.state = .held → Runs (.entryKill ctx i) s ((s.setEntry ctx i { e with state := .dead }).postEvent e.kid 0x41#8 0
      ((handleOf e.gen i).setWidth 64))) ∧
    (∀ words e' s', e.state = .held → s.refreshed ctx e words = some (e', s') →
      Runs (.refresh ctx i words) s ((s'.setEntry ctx i { e' with state := .active }).payFrames ctx i)) ∧
    (∀ words, e.state ≠ .held ∨ s.refreshed ctx e words = none → Runs (.refresh ctx i words) s (s.notify (.rejected "REFRESH"))) ∧
    (e.state ≠ .held → Runs (.entryKill ctx i) s (s.notify (.rejected "ENTRY_KILL"))) ∧
    (e.state = .freeing → e.infl = 0 → e.origin ≠ .anonymous →
      Runs (.entryFreed ctx i) s (s.setEntry ctx i (if e.gen = 0#12 then { e with state := .quarantined } else { PetEntry.fresh with gen := e.gen }))) ∧
    (e.state = .active ∨ e.state = .dead → e.freeLater = true → s.accessHeld ctx i = false →
      Runs (.entryFreed ctx i) s (s.setEntry ctx i { e.free with freeLater := false })) ∧
    (e.state = .active ∨ e.state = .dead → s.accessHeld ctx i = true → Runs (.entryFreed ctx i) s s)) ∧
  -- the frames of images that owe what arrived while their frame was under revocation are written at the refresh
  (∀ (s : State) (ctx i : Nat), (∀ r ∈ s.records, ∀ x ∈ r.img, x.owes = false) → s.cores = [] → s.payFrames ctx i = s) ∧
  (∀ (s : State) (ctx i : Nat) (r : RingRec), r ∈ (s.payFrames ctx i).records → r.ctx = ctx → handleIndex r.record.ftok = i →
    ∀ x ∈ r.img, x.owes = false) ∧
  (∀ (s : State) (ctx : Nat) (x : Context), NMap.get s.contexts ctx = some x →
    Runs (.pwcInvalidate ctx) s { s with contexts := NMap.set s.contexts ctx { x with pwc := [] } }) ∧
  (∀ (s : State) (st : Nat) (m0 m1 m2 m3 m4 m5 : BitVec 64), st < 8 →
    let f (m : BitVec 64) : BitVec 64 := m &&& 0x0000FFFFFFFFC000#64
    (s.serves = true → s.framesMeet (Place.inStack st) = false → Runs (.hmaskSet st [m0, m1, m2, m3, m4, m5]) s
      { s with hmask := s.hmask.setIfInBounds st #v[f m0, f m1, f m2, f m3, f m4, f m5] }) ∧
    (s.serves = false ∨ s.framesMeet (Place.inStack st) = true → Runs (.hmaskSet st [m0, m1, m2, m3, m4, m5]) s (s.notify (.rejected "HMASK_SET")))) ∧
  (∀ (s : State) (part : Nat) (v : BitVec 64) (p : Partition), NMap.get s.partitions part = some p →
    let set (p : Partition) : State := { s with partitions := NMap.set s.partitions part p }
    let near := s.frameOk part 1 (4096 * (v.toNat / 2 ^ 12 % 2 ^ 36)) (8 * 2 ^ (v.toNat % 32))
    (v.toNat % 32 = 0 ∨ (6 ≤ v.toNat % 32 ∧ v.toNat % 32 ≤ 20 ∧ near = true) → Runs (.dlbWrite part v) s
      (set { p with dlb := v &&& 0x0000FFFFFFFFF01F#64, dlh := 0#32, dlt := 0#32, dltSeen := 0#32 })) ∧
    ((1 ≤ v.toNat % 32 ∧ v.toNat % 32 ≤ 5) ∨ 20 < v.toNat % 32 ∨ (v.toNat % 32 ≠ 0 ∧ near = false) → Runs (.dlbWrite part v) s (s.notify (.rejected "DLB_WRITE"))) ∧
    (0 ≤ (p.dlh - v.setWidth 32).toInt → Runs (.dltWrite part v) s (set { p with dlt := v.setWidth 32 })) ∧
    ((p.dlh - v.setWidth 32).toInt < 0 → Runs (.dltWrite part v) s (s.notify (.rejected "DLT_WRITE"))) ∧
    Runs (.dlxClear part v) s (set { p with dlx := if v.getLsbD 0 then 0#1 else p.dlx })) ∧
  -- a write of TAIL makes room in the ring from the next cycle
  (∀ (s : State) (part : Nat) (p : Partition), NMap.get s.partitions part = some p → (s.tick.partOf part).dltSeen = p.dlt) ∧
  (∀ p : Partition, p.dirtyFull = true ↔ (p.dlh - p.dltSeen).toNat = 2 ^ (p.dlb.toNat % 32) % 2 ^ 32) ∧
  -- the scrubber: a granule of a stack with power; none while a task runs in locked-clock mode
  (∀ (s : State) (st : Nat), s.scrubs st = true ↔
    ((s.die (st % 8)).power = .active ∨ (s.die (st % 8)).power = .idle) ∧ (s.device.locked = false ∨ s.taskRuns = false)) ∧
  (∀ (s : State) (g st : Nat), s.stackAt (64 * g) = some st → s.scrubs st = true →
    let u (s : State) : State := { s with scrubbed := NMap.set s.scrubbed g (BitVec.ofNat 512 (s.readNat (64 * g) 64)) }
    Runs (.scrubRead g false) s (u s) ∧ Runs (.scrubRead g true) s (u (s.countCorrected (.hbm st) 1))) ∧
  (∀ (s : State) (p : CheckPoint) (n : Nat),
    ((s.countCorrected p n).counter (checkIndex p)).cor.toNat = min (2 ^ 32 - 1) ((s.counter (checkIndex p)).cor.toNat + n) ∧
    ((s.countCorrected p n).counter (checkIndex p)).unc = (s.counter (checkIndex p)).unc) ∧
  (∀ (s : State) (g : Nat) (b : Bool), s.stackAt (64 * g) = none ∨ (∃ st, s.stackAt (64 * g) = some st ∧ s.scrubs st = false) →
    Runs (.scrubRead g b) s s ∧ Runs (.scrubWriteBack g) s s) ∧
  (∀ (s : State) (g st : Nat) (v : BitVec 512), NMap.get s.scrubbed g = some v → s.stackAt (64 * g) = some st → s.scrubs st = true →
    Runs (.scrubWriteBack g) s { s with mem := s.mem.writeRun (64 * g) (bytesOf 64 v.toNat) }) ∧
  (∀ (s : State) (g : Nat), NMap.get s.scrubbed g = none → Runs (.scrubWriteBack g) s s)


/-! The engines' steps. -/

/-- R214 to R218, R223, R237: how a chain's entries are read and what each does: COPY, LOOP, COND, SIGNAL, WAIT and END, and the codes that
halt a chain at an entry that is none. CAUSE of the error record: log 65; a loop that a COND has left: log 99; a paused device: log 95. -/
def Obligations.ChainSteps : Prop :=
  (∀ (s : State) (core : Nat) (h : Chain), First s core h →
    Runs (.chainStart core) s (s.setChain core { h with started := true })) ∧
  -- an entry is read once, and kept
  (∀ (s : State) (core i : Nat) (h : Chain) (e : BitVec 256), NMap.get h.kept i = some e → s.chainEntry core h i = .entry e s) ∧
  (∀ (s : State) (core i ent : Nat) (h : Chain) (b b' : BitVec 6) (v z : Nat), NMap.get h.kept i = none →
    s.engineCheck h.ctx h.k0 ((h.head.toNat + 32 * i : Nat) : Int) 32 false = .ok (some (ent, z, 32), b) →
    s.engineRead h.ctx h.k0 ((h.head.toNat + 32 * i : Nat) : Int) 32 = .ok (v, b') →
    s.chainEntry core h i = .entry (BitVec.ofNat 256 v) (s.setCore core { s.core core with
      chains := (s.core core).chains.map (fun x => if x.id = h.id then { x with kept := NMap.set x.kept i (BitVec.ofNat 256 v) } else x) })) ∧
  -- an entry that is none: past the extent, with the bits that TokenCheck sets, of an unassigned kind, with a reserved bit set, a SHAPE without its COPY
  (∀ (i : Instr) (s : State) (core : Nat) (g : Chain), interprets i core → First s core g → g.started = true →
    g.run = none → ∀ b, s.chainEntry core g g.at_ = .beyond b → Runs i s ((s.modTaskOf g.uid (·.raiseTks b)).chainError core g 6)) ∧
  (∀ (s : State) (core i : Nat) (h : Chain) (b : BitVec 6) (x : Option (Nat × Nat × Nat)), NMap.get h.kept i = none →
    s.engineCheck h.ctx h.k0 ((h.head.toNat + 32 * i : Nat) : Int) 32 false = .ok (x, b) → (∀ e z m, x = some (e, z, m) → m ≠ 32) →
    s.chainEntry core h i = .beyond b) ∧
  (∀ (i : Instr) (s u : State) (core : Nat) (h : Chain) (e : BitVec 256), interprets i core → Under s core h e u →
    (7 ≤ e.toNat % 16 → Runs i s (u.chainError core h 1)) ∧
    (e.toNat % 16 < 7 → entryClean e = false → Runs i s (u.chainError core h 2)) ∧
    (e.toNat % 16 = 2 → entryClean e = true → Runs i s (u.chainError core h 3))) ∧
  -- the word of a chain that halts
  (∀ code i : Nat, code < 2 ^ 16 → i < 2 ^ 16 → (copyErrorWord code i).toNat = 2 ^ 63 + 2 ^ 32 + 2 ^ 16 * code + i) ∧
  (∀ (t : Task) (r : Nat) (w : Word64) (err : Bool), (t.deliver 0 w err = t) ∧ (0 < r → r < 32 → (t.deliver r w err).areg r = w ∧
    (t.deliver r w err).await r = if err then .error else .none)) ∧
  -- COPY: its run
  (∀ (s u v : State) (core : Nat) (h g : Chain) (e x : BitVec 256) (dims : List (Nat × Int × Int)), Under s core h e u →
    e.toNat % 16 = 1 → entryClean e = true →
    let nd := bitsAt e.toNat 4 3
    let rcv := bitsAt e.toNat 8 8
    let len := bitsAt e.toNat 160 32
    nd ≤ 5 → u.shapes core h nd ((nd + 1) / 2) [] = (.entry x v, dims, none) → First v core g → len ≤ 2 ^ 24 →
    rcv = 255 ∨ rcv < v.teamSize g.uid →
    let inside := g.loops.filter (fun l => decide (l.index - l.back ≤ g.at_) && decide (g.at_ < l.index))
    let soff : Int := (bitsAt e.toNat 64 32 : Int) + inside.foldl (fun a l => a + (l.iter : Int) * l.sadv) 0
    let doff : Int := (bitsAt e.toNat 128 32 : Int) + inside.foldl (fun a l => a + (l.iter : Int) * l.dadv) 0
    let span := 1 + (nd + 1) / 2
    let run : CopyRun := ⟨BitVec.ofNat 32 (bitsAt e.toNat 32 32), BitVec.ofNat 32 (bitsAt e.toNat 96 32), soff, doff, len, rcv, dims,
      dims.map (fun _ => 0), 0, span, none⟩
    let pooled := g.pooled || v.tokenInPool g.ctx core run.stok || v.tokenInPool g.ctx core run.dtok
    (len = 0 ∨ dims.any (fun d => d.1 == 0) = true →
      Runs (.chainCopy core) s (v.setChain core { g with at_ := g.at_ + span, pooled := pooled })) ∧
    (len ≠ 0 → dims.any (fun d => d.1 == 0) = false → Runs (.chainCopy core) s (v.setChain core { g with run := some run, pooled := pooled }))) ∧
  -- COPY: the codes of an ill-formed one
  (∀ (s u : State) (core : Nat) (h : Chain) (e : BitVec 256), Under s core h e u → e.toNat % 16 = 1 → entryClean e = true →
    (5 < bitsAt e.toNat 4 3 → Runs (.chainCopy core) s (u.chainError core h 3)) ∧
    (∀ (v : State) (g : Chain) (x : BitVec 256) (dims : List (Nat × Int × Int)), bitsAt e.toNat 4 3 ≤ 5 →
      u.shapes core h (bitsAt e.toNat 4 3) ((bitsAt e.toNat 4 3 + 1) / 2) [] = (.entry x v, dims, none) →
      First v core g →
      (2 ^ 24 < bitsAt e.toNat 160 32 → Runs (.chainCopy core) s (v.chainError core g 4)) ∧
      (bitsAt e.toNat 160 32 ≤ 2 ^ 24 → bitsAt e.toNat 8 8 ≠ 255 → v.teamSize g.uid ≤ bitsAt e.toNat 8 8 →
        Runs (.chainCopy core) s (v.chainError core g 7)))) ∧
  -- COPY: a transaction of at most 256 bytes and one destination row: TokenCheck on both tokens, counted in INFL; its source rows; its
  -- destination row, counted in the receiver's PB; its end
  (∀ (s : State) (core : Nat) (h : Chain) (r : CopyRun) (k1 k2 : BitVec 6) (x y : Option (Nat × Nat × Nat)),
    First s core h → h.run = some r → r.tx = none →
    let so := r.soff + tupleOff (fun d => d.2.1) r.dims r.idx + r.x
    let d := r.doff + tupleOff (fun d => d.2.2) r.dims r.idx + r.x
    let n := min (r.len - r.x) (256 - (d % 256).toNat)
    let a := s.openSide h.ctx x
    -- the source counts in INFL before the destination is checked
    s.engineCheck h.ctx r.stok so n false = .ok (x, k1) → a.1.engineCheck h.ctx r.dtok d n true = .ok (y, k2) →
    let wake := match y with | some (e, neg, m) => (s.pagesOf h.ctx e (d + neg).toNat m).any (·.wake) | none => false
    let u := a.1.modTaskOf h.uid (fun t => t.raiseTks (k1 ||| k2 ||| (if wake then 2#6 else 0#6)))
    let b := u.openSide h.ctx (if wake then none else y)
    Runs (.copyTransaction core) s (b.1.setChain core { h with run := some { r with tx := some ⟨a.2, b.2, n, 0, 0, 0⟩ } })) ∧
  (∀ (s : State) (ctx : Nat), s.openSide ctx none = (s, none) ∧ ∀ e neg m, s.openSide ctx (some (e, neg, m)) =
    if m = 0 then (s, none) else (s.raiseInfl ctx e, some (e, neg, m))) ∧
  (∀ (s : State) (core : Nat) (h : Chain) (r : CopyRun) (x : CopyTx), First s core h → h.run = some r → r.tx = some x →
    let so := r.soff + tupleOff (fun d => d.2.1) r.dims r.idx + r.x
    let d := r.doff + tupleOff (fun d => d.2.2) r.dims r.idx + r.x
    let go (u : State) (y : CopyTx) : State := u.setChain core { h with run := some { r with tx := some y } }
    (∀ e neg m, x.src = some (e, neg, m) → x.got < m →
      let p := s.sidePart h.ctx e (so + neg + x.got) (m - x.got)
      Runs (.copyTransaction core) s (go s { x with
        got := x.got + max 1 p.bytes.length
        data := x.data + natOf (p.bytes.map (fun y => s.homeByte y.2)) * 2 ^ (8 * (neg + x.got)) })) ∧
    (∀ e neg m u, (∀ e' n' m', x.src = some (e', n', m') → m' ≤ x.got) → x.dst = some (e, neg, m) → x.put < m →
      let off := (d + neg + x.put).toNat
      let p := s.sidePart h.ctx e off (m - x.put)
      let k := max 1 p.bytes.length
      s.logDirty (s.partOfContext h.ctx) (512 + core) h.ctx e off k = .ok u →
      let w := u.writeCells (p.bytes.map (fun y => (y.2, BitVec.ofNat 8 (x.data / 2 ^ (8 * (neg + x.put + y.1))))))
      let w := if r.rcv = 255 then w else match w.teamMember h.uid r.rcv with | some v => w.countBytes v k | none => w
      Runs (.copyTransaction core) s (go w { x with put := x.put + k })) ∧
    ((∀ e n m, x.src = some (e, n, m) → m ≤ x.got) → (∀ e n m, x.dst = some (e, n, m) → m ≤ x.put) →
      let u := (x.src.toList.map (·.1) ++ x.dst.toList.map (·.1)).foldl (fun u e => u.lowerInfl h.ctx e) s
      (r.x + x.n < r.len → Runs (.copyTransaction core) s (u.setChain core { h with run := some { r with tx := none, x := r.x + x.n } })) ∧
      (r.len ≤ r.x + x.n → ∀ idx, nextTuple r.dims r.idx = some idx →
        Runs (.copyTransaction core) s (u.setChain core { h with run := some { r with tx := none, x := 0, idx := idx } })) ∧
      (r.len ≤ r.x + x.n → nextTuple r.dims r.idx = none →
        Runs (.copyTransaction core) s (u.setChain core { h with run := none, at_ := h.at_ + r.span })))) ∧
  -- bytes written reach PB of the receiver, or go to the package that runs it
  (∀ (s : State) (uid n : Nat) (m : Member), NMap.get s.members uid = some m →
    (m.pkg = none → s.countBytes uid n = s.modTaskOf uid (fun t => t.addPb n)) ∧
    (∀ p, m.pkg = some p → s.countBytes uid n = s.send (.count m.part p uid n))) ∧
  -- LOOP
  (∀ (s u : State) (core : Nat) (h : Chain) (e : BitVec 256), Under s core h e u → e.toNat % 16 = 3 → entryClean e = true →
    let back := bitsAt e.toNat 8 8
    let count := bitsAt e.toNat 32 32
    (back = 0 ∨ h.at_ < back → Runs (.chainLoop core) s (u.chainError core h 5)) ∧
    (0 < back → back ≤ h.at_ →
      (∀ l, h.loops.find? (fun l => l.index == h.at_) = some l →
        let rest := (h.loops.dropWhile (fun m => m.index != h.at_)).drop 1
        (l.iter + 1 < l.count → Runs (.chainLoop core) s (u.setChain core { h with
          at_ := h.at_ - back, loops := { l with iter := l.iter + 1 } :: rest })) ∧
        (l.count ≤ l.iter + 1 → Runs (.chainLoop core) s (u.setChain core { h with at_ := h.at_ + 1, loops := rest }))) ∧
      (h.loops.find? (fun l => l.index == h.at_) = none →
        let crosses := h.loops.any (fun l => decide (h.at_ - back < l.index - l.back))
        (crosses = true → Runs (.chainLoop core) s (u.chainError core h 5)) ∧
        (crosses = false → count ≤ 1 → Runs (.chainLoop core) s (u.setChain core { h with at_ := h.at_ + 1 })) ∧
        (crosses = false → 1 < count → 4 ≤ h.loops.length → Runs (.chainLoop core) s (u.chainError core h 5)) ∧
        (crosses = false → 1 < count → h.loops.length < 4 →
          Runs (.chainLoop core) s (u.setChain core { h with at_ := h.at_ - back, loops :=
            ⟨h.at_, back, count, 1, signedAt e.toNat 64, signedAt e.toNat 96⟩ :: h.loops }))))) ∧
  -- COND, SIGNAL, END
  (∀ (s u : State) (core : Nat) (h : Chain) (e : BitVec 256), Under s core h e u → entryClean e = true →
    let f := BitVec.ofNat 8 (bitsAt e.toNat 8 8)
    (e.toNat % 16 = 4 →
      let done := (u.flagOf h.uid f).done = (u.flagOf h.uid f).pushed
      ((done ↔ e.getLsbD 16 = true) → Runs (.chainCond core) s (u.setChain core { h with at_ := h.at_ + 1 + bitsAt e.toNat 24 8 })) ∧
      (¬(done ↔ e.getLsbD 16 = true) → Runs (.chainCond core) s (u.setChain core { h with at_ := h.at_ + 1 }))) ∧
    (e.toNat % 16 = 5 →
      let deps := ((u.chainsOf h.uid).map (·.id)).filter (fun i => decide (i < h.id))
      Runs (.chainSignal core) s ((u.modFlags h.uid (fun t => t.pushSetter f deps)).setChain core { h with at_ := h.at_ + 1 })) ∧
    (e.toNat % 16 = 0 → Runs (.chainEnd core) s (u.finishChain core h (some (0#64, false)))) ∧
    -- WAIT claims, then waits for DONE; with no setter to claim it is 0x21
    (e.toNat % 16 = 6 →
      (∀ g n, h.wait = some (g, n) →
        (0 ≤ ((u.flagOf h.uid f).done - n).toInt → Runs (.chainWait core) s (u.setChain core { h with at_ := h.at_ + 1, wait := none })) ∧
        (((u.flagOf h.uid f).done - n).toInt < 0 → Runs (.chainWait core) s s)) ∧
      (h.wait = none →
        let x := u.flagOf h.uid f
        (x.claimed ≠ x.pushed → Runs (.chainWait core) s
          ((u.modFlags h.uid (fun t => (t.claim f).2)).setChain core { h with wait := some (f, x.claimed + 1#32) })) ∧
        (x.claimed = x.pushed →
          Runs (.chainWait core) s ((u.setChain core { h with wait := some (f, x.claimed + 1#32) }).killTask h.uid h.kid core 0x21#8))))) ∧
  -- the flags of a chain's task: its own while it lives or stands stopped by a trap, those that it has left once it has ended
  (∀ (s : State) (uid : Nat) (f : BitVec 8),
    (∀ t, s.taskOf uid = some t → s.flagOf uid f = t.flag f) ∧
    (∀ c x, s.taskOf uid = none → s.cores.find? (fun x => x.2.mode == .stopped && x.2.task.uid == uid) = some (c, x) →
      s.flagOf uid f = (s.task c).flag f) ∧
    (∀ m, s.taskOf uid = none → s.cores.find? (fun x => x.2.mode == .stopped && x.2.task.uid == uid) = none → NMap.get s.members uid = some m →
      s.flagOf uid f = NMap.getD m.flags f.toNat ⟨0#32, 0#32, 0#32⟩))

/-- R182, R185, R223, R231, R232, R238, R288, R295, R296: the collective engine reads a core's next command and its source, row by row,
adds its contribution, tells the packages of its peers and takes theirs; an instance that every member has joined completes for the members
of this package, row by row, or fails with the lowest code; counts reach PB; setters take effect behind what they wait for. Codes: log 40;
VST: log 63; ended members: log 64; ranks: log 46; the order of serving, and whose source a broadcast reads: log 105; a paused device: log 95. -/
def Obligations.CollectiveSteps : Prop :=
  (∀ (s : State) (core : Nat) (k : CollCmd), (s.task core).cq.find? (fun k => !k.read) = some k → (s.core core).holdsTask = true →
    let t := s.task core
    -- the descriptor; a broadcast waits for the records of its group to be placed, since only its root reads a source
    let known := s.groupKnown t.uid k.scope
    (k.work = none → k.kind = 3 → known = false → Runs (.contribution (.own core)) s s) ∧
    (∀ (d : Nat) (b : BitVec 6), k.work = none → k.kind ≠ 3 ∨ known = true → s.engineRead t.ctx k.k0 (k.off.toNat : Int) 64 = .ok (d, b) →
      let desc := BitVec.ofNat 512 d
      let x := CollDesc.ofBits desc
      let reads := collDescOk k.kind (if known = true then s.ranks t.uid k.scope else [x.root]) desc = true ∧ (k.kind = 3 → s.rank t.uid k.scope = x.root)
      Runs (.contribution (.own core)) s ((s.modTask core (fun t => t.raiseTks b)).setColl core
        { k with work := some (desc, RowReads.begin_ (if reads then [((x.soff : Int), x.count * x.size)] else [])), held := none })) ∧
    -- its source, one row transaction at a time
    (∀ (desc : BitVec 512) (r r' : RowReads), k.work = some (desc, r) → r.step s t.ctx (CollDesc.ofBits desc).stok = .ok r' →
      let u := s.modTask core (fun t => t.raiseTks r'.tks)
      let x := CollDesc.ofBits desc
      (r'.todo ≠ [] → Runs (.contribution (.own core)) s (u.setColl core { k with work := some (desc, r'), held := none })) ∧
      (∀ v, r'.todo = [] → r'.got = [v] → Runs (.contribution (.own core)) s (u.joinColl core k desc (bytesOf (x.count * x.size) v))) ∧
      (r'.todo = [] → r'.got = [] → Runs (.contribution (.own core)) s (u.joinColl core k desc []))) ∧
    (∀ (ctx e : Nat), s.collStep core k = .error (.held ctx e) →
      Runs (.contribution (.own core)) s (s.setColl core { k with held := some (ctx, e) }))) ∧
  (∀ (s : State) (core : Nat), (s.task core).cq.find? (fun k => !k.read) = none → Runs (.contribution (.own core)) s s) ∧
  -- reads by rows: a step reads every part that lies in the row of the first, each as far as its row reaches, and leaves the others
  (∀ l : List (Int × Nat), (RowReads.begin_ l).got = l.map (fun _ => 0) ∧ (RowReads.begin_ l).tks = 0#6 ∧
    ∀ i : Nat, (RowReads.begin_ l).todo[i]? = (l[i]?).map (fun (r : Int × Nat) => (i, 0, r.1, r.2))) ∧
  (∀ (r : RowReads) (s : State) (ctx : Nat) (h : Word32) (i d n v : Nat) (off : Int) (b : BitVec 6),
    s.engineRead ctx h off (s.rowPart ctx h off n) = .ok (v, b) →
    let k := s.rowPart ctx h off n
    r.part s ctx h (i, d, off, n) = .ok ⟨r.todo ++ (if k < n then [(i, d + k, off + k, n - k)] else []),
      modifyAt r.got i (fun x => x + v * 2 ^ (8 * d)), r.tks ||| b⟩) ∧
  (∀ (r w : RowReads) (s : State) (ctx : Nat) (h : Word32) (p0 p : Nat × Nat × Int × Nat) (l : List (Nat × Nat × Int × Nat)),
    ({ r with todo := [] } : RowReads).step s ctx h = .ok { r with todo := [] } ∧
    ({ r with todo := [p0] } : RowReads).step s ctx h = ({ r with todo := [] } : RowReads).part s ctx h p0 ∧
    (({ r with todo := p0 :: l } : RowReads).step s ctx h = .ok w →
      (s.rowOf ctx h p.2.2.1 = s.rowOf ctx h p0.2.2.1 →
        ({ r with todo := p0 :: l ++ [p] } : RowReads).step s ctx h = w.part s ctx h p) ∧
      (s.rowOf ctx h p.2.2.1 ≠ s.rowOf ctx h p0.2.2.1 →
        ({ r with todo := p0 :: l ++ [p] } : RowReads).step s ctx h = .ok { w with todo := w.todo ++ [p] }))) ∧
  -- a source that has been read joins the member's next instance; at an aborted one the command ends with 0x0102
  (∀ (s : State) (core : Nat) (k : CollCmd) (desc : BitVec 512) (source : List Byte),
    let t := s.task core
    let m := s.member t.uid
    let inst := m.collsAt k.scope + 1#32
    let key := s.groupKey t.uid k.scope
    let u := (s.setColl core { k with read := true, work := none, held := none }).setMember t.uid
      { m with colls := m.colls.setIfInBounds (Scope.index k.scope) inst }
    let rank := if k.scope = .q ∨ k.scope = .t then m.tidx else s.standing t.uid
    let b : Contrib := ⟨t.uid, t.kid, t.ctx, t.part, rank, k.id, k.kind, k.rb, desc, source⟩
    (u.instanceAborted key inst true = true → s.joinColl core k desc source = u.finishColl b (collErrorWord 0x0102) true) ∧
    (u.instanceAborted key inst true = false → s.joinColl core k desc source =
      ((u.contribute key inst b).startTimer key inst true).sendContribution t.uid k.scope inst b)) ∧
  (∀ (s : State) (uid p : Nat) (sc : Scope) (n : BitVec 32) (b : Contrib),
    ((∀ v ∈ s.expected uid sc, (s.member v).pkg = none) → s.sendContribution uid sc n b = s) ∧
    ((∃ v ∈ s.expected uid sc, (s.member v).pkg = some p) →
      Msg.contribution b.part p ⟨uid, sc, n, b.rank, b.kind, b.desc, b.source⟩ ∈ (s.sendContribution uid sc n b).outbox)) ∧
  -- a peer's contribution
  (∀ (s : State) (c : PeerContrib) (m : Member) (p : Nat), NMap.get s.members c.member = some m → m.pkg = some p →
    let key := s.groupKey c.member c.scope
    (s.instanceAborted key c.n true = false → 0 < (c.n - m.collsAt c.scope).toInt → Runs (.contribution (.peer c)) s
      (((s.setMember c.member { m with colls := m.colls.setIfInBounds (Scope.index c.scope) c.n }).contribute key c.n
        ⟨c.member, m.kid, 0, m.part, c.rank, 0, c.kind, 0, c.desc, c.source⟩).startTimer key c.n true)) ∧
    (s.instanceAborted key c.n true = true → Runs (.contribution (.peer c)) s s)) ∧
  -- completion: once every expected member has joined
  (∀ (s : State) (i : Nat) (x : CollInst) (b : Contrib) (l : List Contrib), s.collectives[i]? = some x → x.work = none → x.contribs = b :: l →
    let sc := x.key.scope
    let sorted := ranked sc x.contribs
    let own := sorted.filter (fun b => (s.member b.uid).pkg.isNone)
    let u := s.stopTimer x.key x.n true
    (s.groupKnown b.uid sc = false ∨ (s.expected b.uid sc).all (fun v => (s.member v).hasJoined sc x.n) = false →
      Runs (.collectiveCompletion i) s s) ∧
    (s.groupKnown b.uid sc = true → (s.expected b.uid sc).all (fun v => (s.member v).hasJoined sc x.n) = true →
      (∀ code, collFailure (sorted.map (·.rank)) sorted = some code →
        Runs (.collectiveCompletion i) s (own.foldl (fun u b => u.finishColl b (collErrorWord code) true)
          { u with collectives := removeAt u.collectives i })) ∧
      (collFailure (sorted.map (·.rank)) sorted = none → Runs (.collectiveCompletion i) s
        { u with collectives := modifyAt u.collectives i (fun x => { x with work := some (own.map (collPart b.kind sorted)) }) }))) ∧
  -- then what it owes each member, one row transaction at a time
  (∀ (s u : State) (i : Nat) (x : CollInst) (p : CollPart) (l : List CollPart) (o : Option CollPart), s.collectives[i]? = some x →
    x.work = some (p :: l) → (s.partOf p.dest.part).vstate ≠ .paused → s.payPart p = .ok (u, o) →
    (o.toList ++ l = [] → Runs (.collectiveCompletion i) s { u with collectives := removeAt u.collectives i }) ∧
    (o.toList ++ l ≠ [] → Runs (.collectiveCompletion i) s
      { u with collectives := modifyAt u.collectives i (fun x => { x with work := some (o.toList ++ l), held := none }) })) ∧
  (∀ (s : State) (p : CollPart), p.todo = [] →
    s.payPart p = .ok ((s.modTaskOf p.dest.uid (fun t => t.raiseVst p.vst)).finishColl p.dest 0#64 false, none)) ∧
  (∀ (s u : State) (p : CollPart) (off m : Nat) (bs : List Byte) (l : List (Nat × List Byte)) (k : BitVec 6), p.todo = (off, bs) :: l →
    let b := p.dest
    let tok := (CollDesc.ofBits b.desc).dtok
    let n := max 1 (s.rowPart b.ctx tok (off : Int) bs.length)
    let rest := if n < bs.length then (off + n, bs.drop n) :: l else l
    (s.discards b.uid b.ctx tok off = false →
      s.engineWrite (1536 + (s.coreOf b.uid).getD (s.member b.uid).core) b.part b.ctx tok (off : Int) n (natOf (bs.take n)) = .ok (u, k, m) →
      s.payPart p = .ok ((u.modTaskOf b.uid (fun t => t.raiseTks k)).countBytes b.uid m, some { p with todo := rest })) ∧
    -- a write into the pool that its task has left by HALT is discarded
    (s.discards b.uid b.ctx tok off = true →
      s.payPart p = .ok ((s.modTaskOf b.uid (fun t => t.raiseTks 0#6)).countBytes b.uid 0, some { p with todo := rest }))) ∧
  (∀ (s : State) (uid ctx off : Nat) (h : Word32),
    ((s.member uid).halted = none → s.discards uid ctx h off = false) ∧
    (∀ c k a o x ps y ys, (s.member uid).halted = some c → s.pieces ctx (handleIndex h) off 1 = x :: ps → x.bytes = y :: ys → y.2 = a →
      (place s.nstr a = some (.pool k o) → (s.discards uid ctx h off = true ↔ k = c)) ∧
      ((∀ k o, place s.nstr a ≠ some (.pool k o)) → s.discards uid ctx h off = false))) ∧
  (∀ (kind : Nat) (l : List Contrib) (b : Contrib),
    let r := received kind (CollDesc.ofBits b.desc) l b
    collPart kind l b = ⟨b, (r.1.map (fun p => ((CollDesc.ofBits b.desc).doff + p.1, p.2))).filter (fun p => !p.2.isEmpty), r.2.toBits⟩) ∧
  (∀ (s : State) (i : Nat) (x : CollInst) (p : CollPart) (l : List CollPart), s.collectives[i]? = some x →
    x.work = some (p :: l) → (s.partOf p.dest.part).vstate = .paused → Runs (.collectiveCompletion i) s s) ∧
  -- an instance whose timer has reached COLT is aborted: 0x0102 to every member that has joined it, event 0x52 to their kernels
  (∀ (s : State) (g n c : Nat) (sc : Scope) (k : GroupKey) (i : BitVec 32) (v : Nat) (m : Member) (ms : List (Nat × Member)) (x : CollInst),
    s.timers = [⟨k, i, true, c, false⟩] → s.collectives = [x] → x.key = k → x.n = i → k.scope = sc → k.id = g → i = BitVec.ofNat 32 n →
    s.members.filter (fun x => s.groupKey x.1 sc == k) = (v, m) :: ms → (s.partOf m.part).colt.toNat ≤ c → (s.partOf m.part).packages.length ≤ 1 →
    let u := x.contribs.foldl (fun u b => u.finishColl b (collErrorWord 0x0102) true) { s with timers := [⟨k, i, true, c, true⟩] }
    Runs (.collectiveTimerAbort g sc (.own n)) s (((((v, m) :: ms).filter (fun x => x.2.pkg.isNone)).map (fun x => x.2.kid)).eraseDups.foldl
      (fun u kid => u.postEvent kid 0x52#8 0 (BitVec.ofNat 64 (Scope.index sc + 2 ^ 32 * i.toNat))) { u with collectives := [] })) ∧
  (∀ code : Nat, code < 2 ^ 16 → (collErrorWord code).toNat = 2 ^ 63 + 2 ^ 33 + 2 ^ 16 * code) ∧
  (∀ (s : State) (b : Contrib) (w : Word64) (err : Bool), s.finishColl b w err =
    s.modTaskOf b.uid (fun t => { t.deliver b.rb w err with cq := t.cq.filter (fun k => k.id != b.cmd) })) ∧
  -- the order of ranks, and what each kind gives a member
  (∀ (sc : Scope) (l : List Contrib),
    let sorted := l.foldl (fun l b => insertRank b l) []
    (sc = .q ∨ sc = .t → ranked sc l = sorted) ∧
    (sc = .d ∨ sc = .p ∨ sc = .x → (ranked sc l).length = sorted.length ∧
      ∀ (i : Nat) (b : Contrib), sorted[i]? = some b → (ranked sc l)[i]? = some { b with rank := i })) ∧
  (∀ (b : Contrib) (l : List Contrib), List.Pairwise (fun x y => x.rank ≤ y.rank) l →
    List.Pairwise (fun x y => x.rank ≤ y.rank) (insertRank b l) ∧ List.Perm (insertRank b l) (b :: l)) ∧
  (∀ (x : CollDesc) (l : List Contrib) (b y : Contrib),
    received 1 x l b = ([(0, (reduceAll x (l.map (·.source))).1)], (reduceAll x (l.map (·.source))).2) ∧
    (b.rank = x.root → received 0 x l b = received 1 x l b ∧
      received 2 x l b = (l.map (fun y => ((if l.length = 1 then 0 else y.rank) * x.count * x.size, y.source)), .none)) ∧
    (b.rank ≠ x.root → received 0 x l b = ([], .none) ∧ received 2 x l b = ([], .none)) ∧
    (l.find? (fun y => y.rank == x.root) = some y → received 3 x l b = ([(0, y.source)], .none))) ∧
  (∀ (x : CollDesc) (srcs : List (List Byte)) (j : Nat), x.size = 2 ∨ x.size = 4 → j < x.count →
    ((reduceAll x srcs).1.drop (x.size * j)).take x.size = bytesOf x.size (reduceElem x.fmt x.op (srcs.map (valueAt x.size j))).1) ∧
  (∀ a b : Nat, reduceElem 4 0 [a, b] = ((a + b) % 2 ^ 32, .none)) ∧
  (∀ (s : State) (uid n : Nat), Runs (.count uid n) s (s.countBytes uid n)) ∧
  (∀ (t : Task) (n : Nat), (t.addPb n).pb.toNat = min (t.pb.toNat + n) (2 ^ 28 - 1)) ∧
  -- setters: of a task that lives, and of one that has ended with chains or collectives that run on
  (∀ (s : State) (uid i : Nat) (w : Setter), (s.flagTask uid).setters[i]? = some w →
    let t := s.flagTask uid
    let owed (x : CollInst) (n : Nat) : Prop := (x.work = none ∧ ∃ b ∈ x.contribs, b.uid = uid ∧ b.cmd = n) ∨
      ∃ l, x.work = some l ∧ ∃ p ∈ l, p.dest.uid = uid ∧ p.dest.cmd = n
    let busy (n : Nat) : Prop := (∃ m ∈ t.mq, m.id = n) ∨ (∃ k ∈ t.cq, k.id = n) ∨ (∃ x ∈ s.cores, ∃ h ∈ x.2.chains, h.id = n) ∨
      ∃ x ∈ s.collectives, owed x n
    ((∀ n ∈ w.deps, ¬busy n) → Runs (.setterTakesEffect uid i) s (s.modFlags uid (fun t =>
      { t with setters := removeAt t.setters i }.setFlag w.flag { t.flag w.flag with done := (t.flag w.flag).done + 1#32 }))) ∧
    ((∃ n ∈ w.deps, busy n) → Runs (.setterTakesEffect uid i) s s)) ∧
  -- a share group that has not started in 65,536 cycles
  (∀ (s : State) (i : Nat) (x : ShareGroup), NMap.get s.shares i = some x →
    (x.started = false → 65536 ≤ (s.cyc - x.since).toNat → Runs (.shareGroupTimeout i) s
      (x.members.foldl (fun s m => s.takeKill m.1 .a 0x24#8 0#32) { s with shares := NMap.del s.shares i })) ∧
    (x.started = true ∨ (s.cyc - x.since).toNat < 65536 → Runs (.shareGroupTimeout i) s s))

/-- R102 to R108, R182, R221, R222, R224, R225, R228 to R230, R242 to R250, R262: what each command of the matrix queue does at its head,
one row transaction, block or step at a time. The model's readings: how far ahead a member of a share group goes, log 33; a kept block of
a share group comes without TKS bits, log 35; events of stream elements, log 36; an engine's push comes before the sequencers' in a cycle,
log 28; how many blocks are read and written together, log 88; a shared stream's metadata, log 106; the side that a trap record of the array names, log 107; ZEXP of a command, log 73; sparse metadata, log 34; values that a drain
drops, log 74; CAUSE of the error record, log 65. -/
def Obligations.MatrixSteps : Prop :=
  (∀ (s : State) (core : Nat), s.matrixRuns core = true ↔ QueueRuns s core) ∧
  -- an array command starts with the lease held; CLR clears its region
  (∀ (s : State) (core z a b : Nat) (sp : Bool) (x : Word64) (e : BitVec 16), AtHead s core (.mmul sp z a b x) e →
    (s.task core).lease = .holding → (s.task core).mstart = false →
    let u := s.setTask core { s.task core with mstart := true, mprog := BitVec.ofNat 36 (2 ^ 35 + 2 ^ 32 * (z % 8)) }
    (x.getLsbD 40 = false → Runs (.arrayCommandStart core) s u) ∧
    (x.getLsbD 40 = true → Runs (.arrayCommandStart core) s
      ((List.range (bitsAt x.toNat 0 8)).foldl (fun v m => v.writeTile core z (128 * m) (List.replicate (bitsAt x.toNat 8 8) (false, 0))) u))) ∧
  -- a step: the metadata of a sparse step first, then the blocks of A, then those of B, one row transaction at a time
  (∀ (s u : State) (core z a b : Nat) (x : Word64) (e : BitVec 16), Stepping s core true z a b x e → (s.task core).mwork.a = [] →
    (s.task core).mwork.md.length < (s.task core).stepWords a (stepBlocksA true x (s.task core).mstepsDone) →
    s.stepMetadata core z a ((s.task core).stepWords a (stepBlocksA true x (s.task core).mstepsDone) - (s.task core).mwork.md.length) = .ok u →
    Runs (.arrayStep core) s u) ∧
  (∀ (s : State) (core z a b : Nat) (sp : Bool) (x : Word64) (e : BitVec 16), Stepping s core sp z a b x e →
    let w := (s.task core).mwork
    let na := stepBlocksA sp x (s.task core).mstepsDone
    let nb := stepBlocksB sp x (s.task core).mstepsDone
    (sp = true → w.a = [] → (s.task core).stepWords a na ≤ w.md.length) →
    (w.a.length < na →
      (∀ blk u, MayDeliver s core a → s.stepBlock core a (na - w.a.length) = .ok (some blk, u) →
        Runs (.arrayStep core) s (worked u core (fun m => { m with a := m.a ++ [blk] }))) ∧
      (∀ u, MayDeliver s core a → s.stepBlock core a (na - w.a.length) = .ok (none, u) → Runs (.arrayStep core) s u) ∧
      (¬MayDeliver s core a → Runs (.arrayStep core) s s)) ∧
    (na ≤ w.a.length → w.b.length < nb →
      (∀ blk u, MayDeliver s core b → s.stepBlock core b (nb - w.b.length) = .ok (some blk, u) →
        Runs (.arrayStep core) s (worked u core (fun m => { m with b := m.b ++ [blk] }))) ∧
      (∀ u, MayDeliver s core b → s.stepBlock core b (nb - w.b.length) = .ok (none, u) → Runs (.arrayStep core) s u) ∧
      (¬MayDeliver s core b → Runs (.arrayStep core) s s)) ∧
    (na ≤ w.a.length → nb ≤ w.b.length → Runs (.arrayStep core) s (s.finishStep core sp z a b x e.toInt))) ∧
  -- blocks come row by row, those of one 4 KiB of the pattern together, or at once where the share group has read them
  (∀ (s : State) (c n m : Nat) (blk : Block),
    let t := s.task c
    let r := t.stream n
    let x := StreamDesc.ofBits r.desc
    let b := r.pos / 32
    -- all that the command takes, so that no row is read twice; a distributor 4 KiB of the pattern at a time
    let y := (s.readsOf c n).getD (x.begin_ b (max 1 (if r.share = none then m else min (s.shareRoom c n m) (x.unitLeft b))))
    let put (u : State) : State := u.modTask c (fun t => t.deliverBlock n blk)
    (s.sharedBlock r b = some blk → s.stepBlock c n m = .ok (some blk, put s)) ∧
    (s.sharedBlock r b = none → y.block x b = some blk → s.stepBlock c n m = .ok (some blk, put (s.setReads c n (b + 1) y))) ∧
    (∀ w, s.sharedBlock r b = none → y.block x b = none → y.reads.step s t.ctx r.handle = .ok w →
      let v := { y with reads := { w with tks := 0#6 } }
      let u := s.addTks c w.tks
      (v.block x b = some blk → s.stepBlock c n m = .ok (some blk, put (u.setReads c n (b + 1) v))) ∧
      (v.block x b = none → s.stepBlock c n m = .ok (none, u.setReads c n b v)))) ∧
  -- the reads of a block, and the block that they make
  (∀ (x : StreamDesc) (b m : Nat), x.begin_ b m = ⟨b, m, RowReads.begin_ ((List.range m).flatMap (fun j => x.reads (b + j)))⟩) ∧
  (∀ (y : BlockReads) (x : StreamDesc) (b : Nat) (blk : Block),
    let lo := ((List.range (b - y.first)).map (fun j => (x.reads (y.first + j)).length)).sum
    let len := (x.reads b).length
    y.block x b = some blk ↔ (y.first ≤ b ∧ b < y.first + y.count ∧ (∀ p ∈ y.reads.todo, p.1 < lo ∨ lo + len ≤ p.1) ∧
      blk = x.block b ((y.reads.got.drop lo).take len))) ∧
  (∀ (x : StreamDesc) (b j : Nat), x.fmt ≠ 9 → j < 32 →
    (32 * b + j < x.total → (x.reads b)[j]? = some (x.offset (32 * b + j), x.format.size)) ∧
    (x.total ≤ 32 * b + j → (x.reads b)[j]? = none)) ∧
  (∀ (x : StreamDesc) (b : Nat), x.fmt = 9 → x.reads b = if x.total ≤ 32 * b then [] else
    [(x.offset (32 * b) + (4 * x.width * (32 * b % x.bounds.headD 1 / 32) : Nat), 4 * x.width), (x.ebase + b * x.estride, 1)]) ∧
  (∀ (x : StreamDesc) (b : Nat), 0 < x.unitLeft b ∧ x.unitLeft b + b % max 1 (1024 / x.elemBits) = max 1 (1024 / x.elemBits)) ∧
  -- where the reads stand: with the command, or with the share group, which keeps every block that it has read
  (∀ (s : State) (c n b : Nat) (y : BlockReads), ((s.task c).stream n).share = none →
    s.readsOf c n = (s.task c).mwork.reads ∧
    s.setReads c n b y = worked s c (fun w => { w with reads := if y.first + y.count ≤ b then none else some y })) ∧
  (∀ (s : State) (c n b g : Nat) (y : BlockReads) (z : ShareGroup), ((s.task c).stream n).share = some g → NMap.get s.shares g = some z →
    s.readsOf c n = z.reads ∧ ∃ kept, s.setReads c n b y = { s with shares := NMap.set s.shares g { z with
      kept := kept, reads := if y.reads.todo = [] then none else some y } } ∧
      (∀ i blk, y.first ≤ i → i < y.first + y.count → y.block (StreamDesc.ofBits z.desc) i = some blk → NMap.get kept i = some blk) ∧
      ∀ i, i < y.first ∨ y.first + y.count ≤ i ∨ y.block (StreamDesc.ofBits z.desc) i = none → NMap.get kept i = NMap.get z.kept i) ∧
  (∀ (t : Task) (n : Nat) (blk : Block), n < 16 → ((t.deliverBlock n blk).stream n).pos = (t.stream n).pos + 32 ∧
    (blk.real < 32 → (t.deliverBlock n blk).stat = t.stat ||| statSUND)) ∧
  -- no member goes further than WIN units of 4 KiB ahead of the slowest; none begins before the group has started
  (∀ (s : State) (c n : Nat), ((s.task c).stream n).share = none → s.shareReady c n = true ∧ ∀ m, s.shareRoom c n m = m) ∧
  (∀ (s : State) (c n g m : Nat) (x : ShareGroup), ((s.task c).stream n).share = some g → NMap.get s.shares g = some x →
    let e := (StreamDesc.ofBits x.desc).elemBits
    (s.shareReady c n = true ↔ 1 ≤ s.shareRoom c n 1) ∧
    (x.started = false → s.shareRoom c n m = 0) ∧
    (x.started = true → ∀ k, 1 ≤ k → (k ≤ s.shareRoom c n m ↔ k ≤ m ∧ ∀ y ∈ x.members,
      (((s.task c).stream n).pos + 32 * k) * e ≤ ((s.task y.1).stream y.2).pos * e + 8 * 4096 * (StreamDesc.ofBits x.desc).win))) ∧
  -- metadata: four bits for each group of four, row by row; an illegal group invalidates the tile and kills the kernel
  (∀ (s : State) (c z a m : Nat) (w : RowReads),
    let t := s.task c
    let x := StreamDesc.ofBits (t.stream a).desc
    let n := (t.stream a).pos / 32 + t.mwork.md.length
    let y := t.mwork.reads.getD ⟨n, m, RowReads.begin_ ((List.range m).map (fun j => (((x.moff + 8 * (n + j) : Nat) : Int), 8)))⟩
    let missing (w : RowReads) : Prop := ∃ p ∈ w.todo, p.1 = n - y.first
    (missing y.reads → y.reads.step s t.ctx (t.stream a).handle = .ok w) → (¬missing y.reads → w = y.reads) →
    let u := s.addTks c w.tks
    let v := { y with reads := { w with tks := 0#6 } }
    (missing w → s.stepMetadata c z a m = .ok (worked u c (fun k => { k with reads := some v }))) ∧
    (¬missing w →
      let md := w.got[n - y.first]?.getD 0
      let r := worked u c (fun k => { k with reads := if v.first + v.count ≤ n + 1 then none else some v, md := k.md ++ [md] })
      (illegalGroup md = none → s.stepMetadata c z a m = .ok r) ∧
      (∀ g, illegalGroup md = some g → s.stepMetadata c z a m = .ok (r.sparseHalt c z n md g)))) ∧
  (∀ md g : Nat, illegalGroup md = some g ↔ (g < 16 ∧ bitsAt md (4 * g + 2) 2 ≤ bitsAt md (4 * g) 2 ∧
    ∀ h, h < g → bitsAt md (4 * h) 2 < bitsAt md (4 * h + 2) 2)) ∧
  (∀ (s : State) (c z n md g : Nat) (k : Kernel), z < 8 → s.kernel (s.task c).kid = some k → k.dying = none →
    k.area.length + 1 < 2 ^ k.recLog →
    let u := s.sparseHalt c z n md g
    (u.core c).mode = .stopped ∧ (u.task c).mq = [] ∧ ((u.task c).zpwOf z).getLsbD 8 = true ∧
    ∃ k' d r1 r2, u.kernel (s.task c).kid = some k' ∧ k'.area = k.area ++ [r1, r2] ∧ k'.dying = some d ∧ d.cause = 0x33#8 ∧
      r1.words.w0.toNat % 2 ^ 16 = 4 ∧ r1.words.w1 = BitVec.ofNat 64 (s.task c).mstepsDone ∧ r1.words.w2 = BitVec.ofNat 64 md ∧
      r1.words.w3 = BitVec.ofNat 64 (n + 2 ^ 32 * g) ∧ r2.words.w0.toNat % 2 ^ 16 = 0x3302) ∧
  (∀ (md k : Nat) (pats : List Nat), k < 64 →
    (expandSparse md pats)[k]? = some (if bitsAt md (4 * (k / 4)) 2 = k % 4 then pats[2 * (k / 4)]?.getD 0
      else if bitsAt md (4 * (k / 4) + 2) 2 = k % 4 then pats[2 * (k / 4) + 1]?.getD 0 else 0)) ∧
  -- the end of a step: its K-blocks, budget and quota, one more step
  (∀ (s : State) (core z a b : Nat) (sp : Bool) (x : Word64) (e : Int),
    let t := s.task core
    let wa := bitsAt (t.zpwOf z).toNat 0 4 + 1
    let wb := bitsAt (t.zpwOf z).toNat 4 4 + 1
    let o := stepOperands sp (StreamDesc.ofBits (t.stream a).desc) (StreamDesc.ofBits (t.stream b).desc) (bitsAt x.toNat 0 8)
      (bitsAt x.toNat 8 8) (stepK sp x t.mstepsDone) wa wb t.mwork
    let v := (s.addVst core o.2.2).accumulate core z (bitsAt x.toNat 8 8) wa wb e o.1 o.2.1
    let q := v.quad (quadOf core)
    let v := v.setQuad (quadOf core) { q with budget := q.budget - (wa * wb : Nat) }
    let v := v.modPartition t.part (fun p => { p with useBit := p.useBit + wa * wb })
    s.finishStep core sp z a b x e = v.modTask core (fun t' => { t' with
      mprog := mprogOf true z (t.mstepsDone + 1), mheld := none, mwork := MatrixWork.idle })) ∧
  (∀ (sp : Bool) (x : Word64) (done : Nat),
    let unit := if sp then 512 else 256
    stepK sp x done = min unit (bitsAt x.toNat 16 21 - unit * done) ∧
    stepBlocksA sp x done = bitsAt x.toNat 0 8 * (stepK sp x done / (if sp then 64 else 32)) ∧
    stepBlocksB sp x done = bitsAt x.toNat 8 8 * (stepK sp x done / 32)) ∧
  (∀ (A B : StreamDesc) (m n kc wa wb : Nat) (w : MatrixWork), ∃ ev ev',
    stepOperands false A B m n kc wa wb w = (chunks (kc / 32) m (w.a.map (fun y => (y.operand A wa).1)),
      chunks (kc / 32) n (w.b.map (fun y => (y.operand B wb).1)), ev) ∧
    (w.md.length = w.a.length → stepOperands true A B m n kc wa wb w =
      (chunks (kc / 32) m ((w.a.zip w.md).flatMap (fun y => (y.1.sparseOperands A wa y.2).1)),
        chunks (kc / 32) n (w.b.map (fun y => (y.operand B wb).1)), ev'))) ∧
  (∀ (b : Block) (x : StreamDesc) (w md : Nat), x.width = w →
    b.sparseOperands x w md = ([⟨b.ex, signedAll w ((expandSparse md b.pats).take 32)⟩, ⟨b.ex, signedAll w ((expandSparse md b.pats).drop 32)⟩],
      .none)) ∧
  (∀ (b : Block) (x : StreamDesc) (w : Nat),
    (x.fmt = 9 → x.width = w → b.operand x w = (⟨b.ex, signedAll w b.pats⟩, .none)) ∧
    (x.fmt ≠ 9 ∨ x.width ≠ w → (b.operand x w).1 = (operandOf w (b.fp32 x).1).1)) ∧
  -- every element of the region takes the K-blocks of its row and its column, ascending
  (∀ (s : State) (c z n wa wb i j : Nat) (e : Int) (rows cols : List (List Operand)) (row col : List Operand) (y : Bool × Int),
    Memory.wf s.mem = true → n ≤ 128 → cols.length = n → rows.length ≤ 128 → rows[i]? = some row → cols[j]? = some col →
    s.tileElems c z (128 * i + j) 1 = [y] →
    (s.accumulate c z n wa wb e rows cols).tileElems c z (128 * i + j) 1 = [(macElem wa wb e y (row.zip col)).1]) ∧
  (∀ (wa wb : Nat) (e : Int) (y : Bool × Int) (l : List (Operand × Operand)) (p q : Operand),
    let r := macElem wa wb e y l
    let k := macBlock wa wb e r.1 p q
    macElem wa wb e y [] = (y, false, false) ∧ macElem wa wb e y (l ++ [(p, q)]) = (k.1, r.2.1 || k.2.1, r.2.2 || k.2.2)) ∧
  -- one K-block on one element: a NaN block, a zero block; else the exact product brought to the tile's scale and added
  (∀ (wa wb : Nat) (e : Int) (acc : Bool × Int) (p q : Operand),
    (p.ex = 255 ∨ q.ex = 255 → macBlock wa wb e acc p q = ((true, acc.2), false, true)) ∧
    (p.ex ≠ 255 → q.ex ≠ 255 → p.ex = 0 ∨ q.ex = 0 → macBlock wa wb e acc p q = (acc, false, false)) ∧
    (p.ex ≠ 255 → q.ex ≠ 255 → p.ex ≠ 0 → q.ex ≠ 0 →
      let x := ((p.ms.zip q.ms).map (fun m => m.1 * m.2)).sum
      let sh : Int := (p.ex : Int) + q.ex - 254 - (wa - 1 : Nat) - (wb - 1 : Nat) - e
      (∀ k : Nat, sh = k → let t := clip47 (x * 2 ^ k)
        macBlock wa wb e acc p q = ((acc.1, clip47 (acc.2 + t)), decide (t ≠ x * 2 ^ k ∨ clip47 (acc.2 + t) ≠ acc.2 + t), false)) ∧
      (∀ k : Nat, 0 < k → sh = -(k : Int) → ∃ t, Nearest x k t ∧
        macBlock wa wb e acc p q = ((acc.1, clip47 (acc.2 + t)), decide (clip47 (acc.2 + t) ≠ acc.2 + t), false)))) ∧
  -- an array command ends; the array passes on when its budget is spent
  (∀ (s : State) (core z a b : Nat) (sp : Bool) (x : Word64) (e : BitVec 16), AtHead s core (.mmul sp z a b x) e →
    (s.task core).lease = .holding → (s.task core).mstart = true → stepsOf sp x ≤ (s.task core).mstepsDone →
    let u := popped (s.setTask core { s.task core with mstart := false, mprog := mprogOf false z (s.task core).mstepsDone }) core
    (0 < (u.quad (quadOf core)).budget → Runs (.arrayCommandEnd core) s u) ∧
    (∀ w, (u.quad (quadOf core)).budget ≤ 0 → u.nextWaiting (quadOf core) (quadPos core) = some w →
      Runs (.arrayCommandEnd core) s ((u.modTask core (fun t => { t with lease := .waiting })).grantLease w)) ∧
    ((u.quad (quadOf core)).budget ≤ 0 → u.nextWaiting (quadOf core) (quadPos core) = none →
      Runs (.arrayCommandEnd core) s (u.setQuad (quadOf core) ⟨some core, u.budgetOf core⟩))) ∧
  -- widths, clears
  (∀ (s : State) (core z : Nat) (a b : BitVec 4) (e : BitVec 16), AtHead s core (.prec z a b) e → Runs (.precAtHead core) s
    (popped (s.modTask core (fun t => t.setZpw z (BitVec.ofNat 9 (256 * bitsAt (t.zpwOf z).toNat 8 1 + 16 * b.toNat + a.toNat)))) core)) ∧
  (∀ (s : State) (core z : Nat) (e : BitVec 16), AtHead s core (.mclr z) e → Runs (.mclrAtHead core) s
    (popped ((s.writeTile core z 0 (List.replicate 16384 (false, 0))).modTask core (fun t => t.setZpw z (t.zpwOf z &&& 0xFF#9))) core)) ∧
  -- a load: 512 blocks, then INV clears
  (∀ (s : State) (core z st : Nat) (e : BitVec 16), AtHead s core (.mld z st) e →
    ((s.task core).mwork.blocks = 512 → Runs (.mldAtHead core) s
      (popped (s.modTask core (fun t => t.setZpw z (t.zpwOf z &&& 0xFF#9))) core)) ∧
    ((s.task core).mwork.blocks ≠ 512 →
      (∀ blk u, MayDeliver s core st → s.stepBlock core st (512 - (s.task core).mwork.blocks) = .ok (some blk, u) → Runs (.mldAtHead core) s
        (u.loadBlock core z e.toInt (StreamDesc.ofBits ((s.task core).stream st).desc) blk)) ∧
      (∀ u, MayDeliver s core st → s.stepBlock core st (512 - (s.task core).mwork.blocks) = .ok (none, u) → Runs (.mldAtHead core) s u) ∧
      (¬MayDeliver s core st → Runs (.mldAtHead core) s s))) ∧
  (∀ (s : State) (c z : Nat) (e : Int) (x : StreamDesc) (blk : Block),
    let n := (s.task c).mwork.blocks
    let v := blk.fp32 x
    let es := v.1.map (loadElem e)
    s.loadBlock c z e x blk = worked (((s.addVst c v.2).writeTile c z (32 * n) (es.map (·.1))).addZsat c z (es.any (·.2))) c
      (fun m => { m with blocks := n + 1 })) ∧
  (∀ (e : Int) (p : Nat),
    let v := Num.decodeF Num.binary32 p
    (v = .nan → loadElem e p = ((true, 0), false)) ∧
    (∀ n, v = .inf n → loadElem e p = ((false, if n then -(2 ^ 47 - 1) else 2 ^ 47 - 1), true)) ∧
    (∀ (n : Bool) (m : Nat) (ex : Int), v = .fin n m ex →
      let x : Int := (if n then -1 else 1) * m
      (∀ k : Nat, ex = e + k → loadElem e p = ((false, clip47 (x * 2 ^ k)), decide (clip47 (x * 2 ^ k) ≠ x * 2 ^ k))) ∧
      (∀ k : Nat, 0 < k → ex = e - k → ∃ r, Nearest x k r ∧ loadElem e p = ((false, clip47 r), decide (clip47 r ≠ r))))) ∧
  (∀ (s : State) (core z i j : Nat) (es : List (Bool × Int)) (y : Bool × Int), es[j]? = some y → y.2.natAbs < 2 ^ 47 →
    (s.writeTile core z i es).tileElems core z (i + j) 1 = [y]) ∧
  -- a drain to a stream: 512 times 32 elements, those of one 4 KiB of the pattern together, their writes row by row
  (∀ (s : State) (core z st : Nat) (hist : Bool) (e : BitVec 16), AtHead s core (.mst z st hist) e →
    ((s.task core).mwork.writes = [] → 512 ≤ (s.task core).mwork.blocks → Runs (.mstAtHead core) s (popped s core)) ∧
    ((s.task core).mwork.writes = [] → (s.task core).mwork.blocks < 512 →
      Runs (.mstAtHead core) s (s.takeDrain core z st hist e.toInt)) ∧
    (∀ w l u, (s.task core).mwork.writes = w :: l → s.putRow core st w l = .ok u →
      Runs (.mstAtHead core) s (u.modTask core (fun t => { t with mheld := none })))) ∧
  (∀ (s : State) (c z st : Nat) (hist : Bool) (e : Int), st < 16 →
    let t := s.task c
    let pos := (t.stream st).pos
    let x := StreamDesc.ofBits (t.stream st).desc
    let m := 512 - t.mwork.blocks
    let w (j : Nat) := x.writes (pos + 32 * j) (hist || x.hist) (s.drainValues c z (32 * (t.mwork.blocks + j)) 32 e)
    let u := s.takeDrain c z st hist e
    ((u.task c).stream st).pos = pos + 32 * m ∧
    (u.task c).mwork = { t.mwork with blocks := t.mwork.blocks + m, writes := (List.range m).flatMap (fun j => (w j).1) } ∧
    (u.task c).vst = t.vst ||| ((List.range m).foldl (fun a j => a.or (w j).2) Num.Ev.none).toBits ∧
    (x.total < pos + 32 * m → (u.task c).stat = t.stat ||| statSUND) ∧ u.mem = s.mem) ∧
  -- a row transaction makes every write that lies in the row of the first, each as far as its row reaches, and leaves the others
  (∀ (s : State) (c st : Nat) (w0 : RowWrite) (l : List RowWrite) (u : State) (r : List RowWrite),
    let ctx := (s.task c).ctx
    let h := ((s.task c).stream st).handle
    let go (a : State × List RowWrite) (w : RowWrite) : Except Stop (State × List RowWrite) :=
      if s.rowOf ctx h w.off = s.rowOf ctx h w0.off then (a.1.putPart c st w).map (fun p => (p.1, a.2 ++ p.2.toList)) else .ok (a.1, a.2 ++ [w])
    ((w0 :: l).foldlM go (s, []) = .ok (u, r) → s.putRow c st w0 l = .ok (worked u c (fun x => { x with writes := r })))) ∧
  (∀ (s u : State) (c st m : Nat) (w : RowWrite) (b : BitVec 6),
    let t := s.task c
    let h := (t.stream st).handle
    let k := s.rowPart t.ctx h w.off w.n
    s.engineWrite (1024 + c) t.part t.ctx h w.off k w.data = .ok (u, b, m) →
    let wrote := w.wrote || decide (0 < m)
    let v := u.addTks c b
    (k < w.n → s.putPart c st w = .ok (v, some ⟨w.off + k, w.n - k, w.data / 2 ^ (8 * k), w.bin, wrote⟩)) ∧
    (w.n ≤ k → (w.bin = none ∨ wrote = false → s.putPart c st w = .ok (v, none)) ∧
      (∀ n, w.bin = some n → wrote = true → s.putPart c st w = .ok (v.modTask c (fun t => t.count1 n), none)))) ∧
  (∀ (x : StreamDesc) (pos j : Nat) (count : Bool) (vs : List Num.FVal) (v : Num.FVal), x.fmt ≠ 9 → vs[j]? = some v → j < 32 →
    pos + j < x.total → (x.writes pos count vs).1[j]? = some ⟨x.offset (pos + j), x.format.size, (drainTo x.format v).1,
      if count then some (binOf x.format (drainTo x.format v).1) else none, false⟩) ∧
  -- the drained value: NaN, or the element at the tile's scale; rounded once to the target, to FP32 first for block floating point
  (∀ (e : Int) (y : Bool × Int), drainValue true e y = .nan ∧ drainValue false e (true, y.2) = .nan ∧
    drainValue false e (false, y.2) = .fin (decide (y.2 < 0)) y.2.natAbs e) ∧
  (∀ (f : Num.Fmt) (n : Bool) (m : Nat) (e : Int),
    (f.isFloat = true → drainTo f (.fin n m e) = narrowed f.shape n m e) ∧
    (isInteger f = true → drainTo f (.fin n m e) = clamped f ((if n then -1 else 1) * (Num.roundAt m e false 0 : Int)) ∧
      drainTo f .nan = (0, ⟨true, false, false⟩))) ∧
  (∀ (w : Nat) (vs : List Num.FVal), 2 ≤ w → (∀ v ∈ vs, ∃ n m e, v = .fin n m e) →
    let r := vs.map (Num.satEnc Num.binary32)
    let d := drainBlock w vs
    ∃ ev, BlockOf w (r.map (fun p => Num.decodeF Num.binary32 p.1)) (d.1, d.2.1, ev) ∧ d.2.2 = (r.foldl (fun (a : Num.Ev) p => a.or p.2) Num.Ev.none).or ev) ∧
  (∀ (w : Nat) (vs : List Num.FVal), Num.FVal.nan ∈ vs →
    (drainBlock w vs).1 = 255 ∧ (drainBlock w vs).2.1 = vs.map (fun _ => 0) ∧ (drainBlock w vs).2.2.nan = true) ∧
  -- a drain to a queue
  (∀ (s : State) (core z q n done : Nat) (fmt : Nat) (hist : Bool) (e : BitVec 16) (l : List MCmd), QueueRuns s core →
    (s.task core).mq = ⟨n, .mstQ z fmt q hist done, e⟩ :: l → s.qroom core q = true → ((s.task core).queue q).fresh = 0 →
    let f := (Num.Fmt.ofCode fmt).getD .raw32
    let per := 4096 / f.size
    let ps := (s.drainValues core z (per * done) per e.toInt).map (drainTo f)
    let u := (s.enqueue core q (BitVec.ofNat 32768 (ps.foldr (fun p a => p.1 % 2 ^ f.bits + 2 ^ f.bits * a) 0))).addVst core
      (ps.foldl (fun a p => a.or p.2) .none)
    let v := if hist then ps.foldl (fun s p => s.modTask core (·.count1 (binOf f p.1))) u else u
    Runs (.mstElementPush core) s (v.modTask core (fun t => { t with
      mq := if done + 1 = 4 * f.size then l else ⟨n, .mstQ z fmt q hist (done + 1), e⟩ :: l }))) ∧
  -- the histogram
  (∀ (s : State) (core : Nat) (e : BitVec 16), AtHead s core .histClr e →
    Runs (.histClrAtHead core) s (popped (s.modTask core (fun t => { t with bins := Vector.replicate 256 0#32 })) core)) ∧
  (∀ (s : State) (core q : Nat) (e : BitVec 16), AtHead s core (.histRd q) e → s.qroom core q = true → ((s.task core).queue q).fresh = 0 →
    Runs (.histRdAtHead core) s (popped (s.enqueue core q
      (imageOf (fun i => ((s.task core).bins[i]?.getD 0#32).toNat))) core))

/-! The front end. -/

/-- R301 to R305, R312, R319: a queue reads its packets in order, 4 KiB ahead, none behind a FENCE or an INDIRECT; each packet's effect and
completion entry; the packets that halt a queue; how records reach the host. The places of a packet's operands, of a code object's words and
of a launch record are the model's (log 23); result of LOAD: log 41;
reading behind INDIRECT: log 43; FENCE: log 51; completions: log 52; QUEUE_RESET: log 53; places: log 54; kernel ids: log 8; status 0x10
before 0x11, the rounding of INDIRECT's address and length: log 109. -/
def Obligations.CommandQueues : Prop :=
  (∀ (s : State) (n tail : Nat) (q : CmdQueue), NMap.get s.queues n = some q →
    Runs (.queueTailWrite n tail) s { s with queues := NMap.set s.queues n { q with tail := tail } }) ∧
  (∀ (s : State) (n a left d : Nat) (q : CmdQueue), NMap.get s.queues n = some q → s.takesPackets q.part = true → q.halted = false →
    let read (q : CmdQueue) (a d : Nat) : State :=
      let b := BitVec.ofNat 512 (s.readNat (Config.hostBase + a) 64)
      { s with queues := NMap.set s.queues n { q with
          fetched := q.fetched ++ [(b, d)], stopped := b.toNat % 2 ^ 8 == 4 || b.toNat % 2 ^ 8 == 5 } }
    (q.stopped = false → q.fetched.length < 64 →
      (∀ bs, q.buffers = (a, left, d) :: bs → 64 ≤ left →
        Runs (.packetRead n) s (read { q with buffers := (a + 64, left - 64, d) :: bs } a d)) ∧
      (q.buffers = [] → q.readPos < q.tail →
        Runs (.packetRead n) s (read { q with readPos := q.readPos + 1 } (q.base + 64 * (q.readPos % 2 ^ q.log)) 0)) ∧
      (q.buffers = [] → q.tail ≤ q.readPos → Runs (.packetRead n) s s)) ∧
    (q.stopped = true ∨ 64 ≤ q.fetched.length → Runs (.packetRead n) s s)) ∧
  (∀ (s : State) (n d : Nat) (q : CmdQueue) (b : BitVec 512) (l : List (BitVec 512 × Nat)), NMap.get s.queues n = some q → q.halted = false →
    s.takesPackets q.part = true → q.fetched = (b, d) :: l →
    let op := b.toNat % 2 ^ 8
    (op = 0 ∨ 7 < op → Runs (.unknownCommand n) s (answered s n q 0x10 0#64 true)) ∧
    (1 ≤ op → op ≤ 7 → b.toNat / 2 ^ 8 % 2 ^ 56 ≠ 0 → Runs (.unknownCommand n) s (answered s n q 0x11 0#64 true)) ∧
    (1 ≤ op → op ≤ 7 → b.toNat / 2 ^ 8 % 2 ^ 56 = 0 → Runs (.unknownCommand n) s s)) ∧
  (∀ (s : State) (n : Nat) (q : CmdQueue), NMap.get s.queues n = some q →
    (q.halted = true → Runs (.queueReset n) s { s with queues := NMap.set s.queues n { q with
      halted := false, stopped := false, fetched := [], buffers := [], readPos := q.tail, launching := [] } }) ∧
    (q.halted = false → Runs (.queueReset n) s s)) ∧
  -- the operands of the packet at the head
  (∀ (s : State) (n : Nat) (q : CmdQueue), NMap.get s.queues n = some q → q.fetched ≠ [] → ∀ i x, Named q i x ↔ x = s.operand n i) ∧
  (∀ (s : State) (n d : Nat) (q : CmdQueue) (req : LoadRequest), PacketDue s n 1 d q →
    (s.loadNamed n req = true ↔ (∃ a len, Named q 0 a ∧ Named q 1 len ∧ req.oddBytes = len % 4 ∧ req.text.length = len / 4 ∧
      ∀ j w, req.text[j]? = some w → w.toNat = s.readNat (Config.hostBase + a + 4 * j) 4 % 2 ^ 32) ∧
      Named q 2 req.partw.toNat ∧ Named q 3 req.recLog) ∧
    (s.loadNamed n req = false → Runs (.load n req) s s)) ∧
  (∀ (s : State) (n d : Nat) (q : CmdQueue) (req : LaunchRequest), PacketDue s n 2 d q →
    (s.launchNamed n req = true ↔ Named q 0 req.record.w0.toNat ∧ Named q 1 req.record.w1.toNat ∧ Named q 2 req.record.w2.toNat ∧
      Named q 3 req.record.w3.toNat ∧ Named q 4 req.count ∧ ∃ x, Named q 5 x ∧ req.stride = BitVec.ofNat 32 x) ∧
    (q.launching = [] → s.launchNamed n req = false → Runs (.launch n req) s s)) ∧
  -- a LOAD and its status
  (∀ (s : State) (n d : Nat) (q : CmdQueue) (req : LoadRequest), PacketDue s n 1 d q → s.loadNamed n req = true →
    s.partOfContext req.ctx = q.part → NMap.get s.contexts req.ctx ≠ none →
    (s.loadStatus req ≠ 0 → Runs (.load n req) s (answered s n q (s.loadStatus req) 0#64 false)) ∧
    (∀ kid, s.loadStatus req = 0 → s.freeKid req.ctx (s.kernels.length + 1) 1 = some kid →
      let x := scanText req.text 0 0
      let c := constExtent req.text x.data
      let k := loadedKernel req x c
      let u := (s.writeRun req.textAt (bytesOfWords req.text)).writeRun req.constAt c.1
      let key := 2 ^ 20 * req.ctx + kid
      s.loadPlaces q.part k = true →
        (s.device.stage ≠ .reduced → Runs (.load n req) s
          (answered { u with kernels := NMap.set u.kernels key k } n q 0 (loadResult kid k.param) false)) ∧
        (s.device.stage = .reduced → Runs (.load n req) s
          (answered { s with kernels := NMap.set s.kernels key { k with staged := some (req.text, c.1) } } n q 0 (loadResult kid k.param) false)))) ∧
  -- the kernel id is the lowest that no kernel of the context has, from 1 to 2^20 - 1
  (∀ (s : State) (ctx kid : Nat), s.freeKid ctx (s.kernels.length + 1) 1 = some kid →
    1 ≤ kid ∧ kid < 2 ^ 20 ∧ s.kernel (2 ^ 20 * ctx + kid) = none ∧ ∀ j, 1 ≤ j → j < kid → s.kernel (2 ^ 20 * ctx + j) ≠ none) ∧
  -- where a load may put things: a virtual address that nothing of the context uses, on a multiple of 2^16 in the device-managed half
  (∀ (s : State) (part : Nat) (k : Kernel), s.loadPlaces part k = true →
    k.constVa.msb = true ∧ k.constVa.toNat % 2 ^ 16 = 0 ∧ k.constVa.toNat % 2 ^ 48 + k.constLen ≤ 2 ^ 48 ∧
    (∀ x ∈ s.kernels, x.2.ctx = k.ctx → k.constVa.toNat + k.constLen ≤ x.2.constVa.toNat ∨ x.2.constVa.toNat + x.2.constLen ≤ k.constVa.toNat) ∧
    ∀ y e, NMap.get s.contexts k.ctx = some y → e ∈ y.pet → e.2.origin = .translated → e.2.inUse = true →
      k.constVa.toNat + k.constLen ≤ e.2.va.toNat ∨ e.2.va.toNat + e.2.len ≤ k.constVa.toNat) ∧
  -- the checks of a LOAD, the lowest that applies first
  (∀ (s : State) (req : LoadRequest),
    let x := scanText req.text 0 0
    (req.text = [] ∨ req.oddBytes ≠ 0 ∨ 2 ^ 22 < req.text.length → s.loadStatus req = 1) ∧
    (req.text ≠ [] → req.oddBytes = 0 → req.text.length ≤ 2 ^ 22 → x.runsOut = true → s.loadStatus req = 2) ∧
    (s.loadStatus req = 0 → partwOk req.partw = true ∧ 6 ≤ req.recLog ∧ req.recLog ≤ 16 ∧ req.room = true ∧
      (s.freeKid req.ctx (s.kernels.length + 1) 1).isSome = true ∧
      (s.device.stage = .reduced → s.staged + 4 * req.text.length + (constExtent req.text x.data).1.length ≤ 2 ^ 20))) ∧
  -- a LAUNCH and its status
  (∀ (s : State) (n d : Nat) (q : CmdQueue) (req : LaunchRequest), PacketDue s n 2 d q → q.launching = [] → s.launchNamed n req = true →
    (req.count = 0 ∨ 4096 < req.count → Runs (.launch n req) s (answered s n q 0x22 0#64 false)) ∧
    (1 ≤ req.count → req.count ≤ 4096 →
      let fits := s.partOfContext req.ctx = q.part ∧ s.recordOk req.ctx req.record = true
      (¬fits → Runs (.launch n req) s (answered s n q 0x20 0#64 false)) ∧
      (fits → s.framesUsable req.ctx req.record req.count req.stride = false → Runs (.launch n req) s (answered s n q 0x21 0#64 false)) ∧
      (fits → s.framesUsable req.ctx req.record req.count req.stride = true → ¬(s.device.locked = true ∧ s.taskRuns = true) →
        let u := s.launchGroup q.part req.ctx q.dies (launchRecords req.record req.count req.stride)
        ∃ t, Runs (.launch n req) s t ∧ pushedOn u n { q with launching := [s.fresh], groups := s.fresh :: q.groups } t))) ∧
  (∀ (s : State) (n : Nat) (q : CmdQueue) (i : Instr), NMap.get s.queues n = some q → q.launching ≠ [] →
    (∃ req, i = .launch n req) ∨ (∃ h, i = .wake n h) → ∃ t, Runs i s t ∧ pushedOn s n q t) ∧
  -- WAKE, INDIRECT, FENCE
  (∀ (s : State) (n d : Nat) (q : CmdQueue) (h : BitVec 32), PacketDue s n 3 d q → q.launching = [] →
    (h ≠ BitVec.ofNat 32 (s.operand n 0) → Runs (.wake n h) s s) ∧
    (h = BitVec.ofNat 32 (s.operand n 0) → s.graphIn q.part (handleIndex h) = true →
      let r := (s.wakeGraph (handleIndex h) h (some n)).startRoots (handleIndex h)
      ∃ t q', NMap.get r.1.queues n = some q' ∧ Runs (.wake n h) s t ∧ pushedOn r.1 n { q' with launching := r.2 } t) ∧
    (h = BitVec.ofNat 32 (s.operand n 0) → s.graphIn q.part (handleIndex h) = false → Runs (.wake n h) s (answered s n q 0 0#64 false))) ∧
  (∀ (s : State) (n d a len : Nat) (q : CmdQueue), PacketDue s n 4 d q → a ≠ s.operand n 0 ∨ len ≠ s.operand n 1 →
    Runs (.indirect n a len) s s) ∧
  (∀ (s : State) (n d a len : Nat) (q : CmdQueue), PacketDue s n 4 d q → Named q 0 a → Named q 1 len →
    (d = 4 → Runs (.indirect n a len) s (answered s n q 0x12 0#64 true)) ∧
    (d ≠ 4 → Runs (.indirect n a len) s (answered s n { q with
      buffers := (a / 64 * 64, min (len / 64 * 64) (2 ^ 20), d + 1) :: q.buffers } 0 0#64 false))) ∧
  (∀ (s : State) (n d : Nat) (q : CmdQueue), PacketDue s n 5 d q →
    let done (g : Nat) : Prop := ∀ x, NMap.get s.groups g = some x → x.live = 0
    let waits (x : Graph) : Prop := some n ∈ x.sources
    ((∀ g ∈ q.groups, done g) → (∀ x ∈ s.graphs, ¬waits x.2) → Runs (.fence n) s (answered s n q 0 0#64 false)) ∧
    ((∃ g ∈ q.groups, ¬done g) ∨ (∃ x ∈ s.graphs, waits x.2) → Runs (.fence n) s s)) ∧
  -- a root run that takes a queue's wake counts among what that queue started, whose wake it is no more
  (∀ (s : State) (gi : Nat) (g : Graph) (h : BitVec 32) (from_ : Option Nat), NMap.get s.graphs gi = some g → g.registered = true →
    h = handleOf g.gen gi →
    (g.wakes < 64 → s.wakeGraph gi h from_ = s.setGraph gi { g with wakes := g.wakes + 1, sources := g.sources ++ [from_] }) ∧
    (64 ≤ g.wakes → s.wakeGraph gi h from_ = s.setGraph gi { g with wakeErrors := g.wakeErrors + 1 })) ∧
  (∀ (s : State) (n r : Nat) (q : CmdQueue), NMap.get s.queues n = some q →
    s.creditGroup (some n) r = s.setQueue n { q with groups := r :: q.groups }) ∧
  -- records to the host's event ring; its capacity is the implementation's (log 13)
  (∀ (s : State) (kid : Nat) (k : Kernel) (r : AreaRec) (rs : List AreaRec), s.kernel kid = some k → k.area = r :: rs →
    let part := s.partOfContext k.ctx
    s.inService part = true →
    (r.incarnation ≠ (s.partOf part).incarnation →
      Runs (.recordCopy kid) s ((s.modKernel kid (fun k => { k with area := rs })).modPartition part (fun p => { p with stale := p.stale + 1 }))) ∧
    (r.incarnation = (s.partOf part).incarnation → Runs (.recordCopy kid) s
      (if k.hostRing.length < Config.eventRingCapacity then s.modKernel kid (fun k => { k with area := rs, hostRing := k.hostRing ++ [r.words] })
        else s))) ∧
  (∀ (s : State) (kid : Nat) (k : Kernel), s.kernel kid = some k → s.inService (s.partOfContext k.ctx) = false ∨ k.area = [] →
    Runs (.recordCopy kid) s s) ∧
  (∀ (s : State) (kid : Nat), Runs (.eventRingDrain kid) s (s.modKernel kid (fun k => { k with hostRing := [] })))

/-- R308 to R310: REGISTER and UNREGISTER; a run takes its wake, enabling or items and lowers FREE; its end gives items and FREE back; loop
and conditional nodes. Operand and descriptor places: log 23; the lowest free index: log 8; status numbers: log 42; several roots: log 48;
the group that a run is credited to: log 51; conditional nodes: log 55; loop bodies: log 56. -/
def Obligations.GraphRuns : Prop :=
  (∀ (s : State) (n d : Nat) (q : CmdQueue) (g : GraphDesc), PacketDue s n 6 d q →
    (g ≠ s.graphAt g.ctx (s.operand n 0) → Runs (.register n g) s s) ∧
    (g = s.graphAt g.ctx (s.operand n 0) →
      (s.registerStatus q.part g ≠ 0 → Runs (.register n g) s (answered s n q (s.registerStatus q.part g) 0#64 false)) ∧
      (s.registerStatus q.part g = 0 →
        (∀ i, s.freeGraph (s.graphs.length + 1) 1 = some i →
          let gen := match NMap.get s.graphs i with | some x => x.gen | none => 0#12
          Runs (.register n g) s (answered { s with graphs := NMap.set s.graphs i (Graph.ofDesc g q.part gen q.dies) } n q 0
            ((handleOf gen i).setWidth 64) false)) ∧
        (s.freeGraph (s.graphs.length + 1) 1 = none → Runs (.register n g) s (answered s n q 6 0#64 false))))) ∧
  -- a handle's index is the lowest from 1 to 2^20 - 1 that no registered graph has
  (∀ (s : State) (i : Nat), s.freeGraph (s.graphs.length + 1) 1 = some i →
    let taken (j : Nat) : Prop := ∃ g, NMap.get s.graphs j = some g ∧ g.registered = true
    1 ≤ i ∧ i < 2 ^ 20 ∧ ¬taken i ∧ ∀ j, 1 ≤ j → j < i → taken j) ∧
  -- a cycle outside the bodies of loops, through edges and the successors of conditional nodes, is refused
  (∀ (s : State) (part u : Nat) (g : GraphDesc) (n : NodeDesc), g.nodes[u]? = some n → (∀ m ∈ g.nodes, m.body = []) →
    u ∈ n.successors ∨ (∃ e ∈ g.edges, e.src = u ∧ e.dst = u) → s.registerStatus part g ≠ 0) ∧
  (∀ (s : State) (n d : Nat) (q : CmdQueue) (h : BitVec 32), PacketDue s n 7 d q → h ≠ BitVec.ofNat 32 (s.operand n 0) →
    Runs (.unregister n h) s s) ∧
  (∀ (s : State) (n d : Nat) (q : CmdQueue) (h : BitVec 32), PacketDue s n 7 d q → h = BitVec.ofNat 32 (s.operand n 0) →
    let i := handleIndex h
    (∀ g, NMap.get s.graphs i = some g → g.part = q.part → g.registered = true → h = handleOf g.gen i →
      -- its runs have ended where none is in progress and none is to come of a wake, of items or of an enabling
      let to_come (u : Nat) : Prop := (g.isRoot u = true ∧ (g.node u).taken < g.wakes) ∨
        (g.isRoot u = false ∧ (∀ e ∈ g.edges, e.dst = u → 1 ≤ e.items) ∧ ((g.node u).enabled = true ∨ g.awaitsEnabling u = false))
      let ended : Prop := ∀ u, u < g.nodes.length → (g.node u).run = none ∧ (g.node u).busy = false ∧ ¬to_come u
      (ended → Runs (.unregister n h) s (answered { s with graphs := NMap.set s.graphs i { g with
        registered := false, gen := g.gen + 1#12, wakes := 0, sources := [],
        nodes := g.nodes.map (fun n => { n with taken := 0, enabled := false }) } } n q 0 0#64 false)) ∧
      (¬ended → Runs (.unregister n h) s s)) ∧
    ((∀ g, NMap.get s.graphs i = some g → g.part ≠ q.part ∨ g.registered = false ∨ h ≠ handleOf g.gen i) →
      Runs (.unregister n h) s (answered s n q 1 0#64 false))) ∧
  -- the start of a run
  (∀ (s : State) (i u : Nat) (g : Graph), RunDue s i u g →
    let x := (g.node u).desc
    (x.kind = .task → ¬(s.device.locked = true ∧ s.taskRuns = true) → Runs (.runStart i u) s
      (((s.setGraph i (nodeSet (g.take u) u (fun n => { n with run := some s.fresh }))).launchGroup g.part g.ctx g.dies
        (launchRecords x.record x.count x.stride)).creditGroup (g.sourceOf u) s.fresh)) ∧
    (x.kind = .task → s.device.locked = true ∧ s.taskRuns = true → Runs (.runStart i u) s s) ∧
    (∀ trips body, x.kind = .loop trips body → Runs (.runStart i u) s
      (s.setGraph i ((nodeSet (g.take u) u (fun n => { n with busy := true, trips := trips - 1 })).beginPass u))) ∧
    (∀ t o a b, x.kind = .cond t o a b → Runs (.runStart i u) s (s.setGraph i (nodeSet (g.take u) u (fun n => { n with busy := true }))))) ∧
  (∀ (s : State) (i u : Nat) (g : Graph), NMap.get s.graphs i = some g → ¬RunDue s i u g → Runs (.runStart i u) s s) ∧
  -- which nodes have to be enabled: the first of a loop's body, and a successor that its conditional node has no edge to
  (∀ (g : Graph) (u : Nat), g.awaitsEnabling u = true ↔ (∃ n ∈ g.nodes, u ∈ g.bodyRoots n.desc.body) ∨
    ∃ w, w < g.nodes.length ∧ u ∈ (g.node w).desc.successors ∧ ∀ e ∈ g.edges, e.src = w → e.dst ≠ u) ∧
  -- what a start and an end do to an edge
  (∀ (e : GraphEdge) (u : Nat), e.src ≠ e.dst →
    (e.take u).free = (if e.src = u then e.free - 1 else e.free) ∧ (e.take u).items = (if e.dst = u then e.items - 1 else e.items)) ∧
  (∀ (e : GraphEdge) (u : Nat) (gives : Nat → Bool), e.src ≠ e.dst →
    (e.finish u gives).items = (if e.src = u ∧ gives e.dst = true then e.items + 1 else e.items) ∧
    (e.finish u gives).free = (if (e.src = u ∧ gives e.dst = false) ∨ e.dst = u then e.free + 1 else e.free)) ∧
  -- a run of a node that has to be enabled takes its enabling
  (∀ (g : Graph) (u : Nat), u < g.nodes.length → g.isRoot u = false → ((g.take u).node u).enabled = false) ∧
  -- the end of a run
  (∀ (s : State) (i u r : Nat) (g : Graph), NMap.get s.graphs i = some g → (g.node u).run = some r →
    (s.groupEnded r = true →
      Runs (.runEnd i u) s ((s.admitGroup r).setGraph i (g.finish u (fun _ => true)))) ∧
    (s.groupEnded r = false → Runs (.runEnd i u) s (s.admitGroup r))) ∧
  (∀ (s : State) (i u trips : Nat) (body : List Nat) (g : Graph), NMap.get s.graphs i = some g → (g.node u).run = none →
    (g.node u).desc.kind = .loop trips body → (g.node u).busy = true →
    ((g.node u).trips = 0 → g.passOver u = true → Runs (.runEnd i u) s (s.setGraph i (g.finish u (fun _ => true)))) ∧
    (g.passOver u = false → Runs (.runEnd i u) s s) ∧
    (0 < (g.node u).trips → g.passOver u = true → Runs (.loopNodePass i u) s
      (s.setGraph i ((nodeSet g u (fun n => { n with trips := n.trips - 1 })).beginPass u)))) ∧
  (∀ (s : State) (i u off z o v : Nat) (t : BitVec 32) (b : BitVec 6) (g : Graph), NMap.get s.graphs i = some g →
    (g.node u).desc.kind = .cond t off z o → (g.node u).busy = true → s.engineRead g.ctx t (off : Int) 8 = .ok (v, b) →
    let to_ := if v = 0 then z else o
    let other := if v = 0 then o else z
    let f := g.finish u (fun v => v == to_ || v != other)
    ((∃ e ∈ f.edges, e.src = u ∧ e.dst = to_) → Runs (.conditionalNodeRead i u) s (s.setGraph i f)) ∧
    ((¬∃ e ∈ f.edges, e.src = u ∧ e.dst = to_) → Runs (.conditionalNodeRead i u) s
      (s.setGraph i (nodeSet f to_ (fun n => { n with enabled := true })))))


/-! Partitions and virtual devices. -/

/-- R115, R269, R317, R318, R320: slices open and close, quota windows begin; a virtual device is descheduled, paused with its image, restored,
rescheduled and reset. When a quota window begins: log 57; what an image holds, when it is written, what turns a restore away, and whose a
shared pool is between tasks: log 95; the offers that the end of a slice takes back: log 104. -/
def Obligations.VirtualDevices : Prop :=
  (∀ (s : State) (p : Nat), Runs (.tenantSliceEnd p) s (s.closeSlice p)) ∧
  (∀ (s : State) (p : Nat), NMap.get s.partitions p ≠ none → ((s.closeSlice p).partOf p).inSlice = false) ∧
  (∀ (s : State) (p : Nat), (s.takesPackets p = true → Runs (.tenantSliceOpen p) s (s.modPartition p (fun x => { x with inSlice := true }))) ∧
    (s.takesPackets p = false → Runs (.tenantSliceOpen p) s s)) ∧
  -- the end of a slice: every running task has a request of WHY = 1 or had one already; no record of the partition stays in a shadow slot
  (∀ (s : State) (p c : Nat), (s.core c).running = true → (s.task c).part = p → s.device.stage ≠ .reduced →
    (s.task c).yreq.getLsbD 0 = false → ((s.closeSlice p).task c).yreq = s.cyc.setWidth 40 ++ 3#2) ∧
  (∀ (s : State) (p c : Nat) (r : RingRec), ((s.closeSlice p).core c).shadow = some r → r.part ≠ p) ∧
  (∀ (s : State) (p c : Nat) (r : RingRec), (s.core c).shadow = some r → r.part = p →
    ∃ x ∈ (s.closeSlice p).records, x.id = r.id ∧ x.claim = []) ∧
  -- nothing of it is offered any more, and a peer that has an offer hears so
  (∀ (s : State) (p k : Nat) (r : RingRec), r ∈ (s.closeSlice p).records → r.part = p → r.place ≠ .offered k) ∧
  (∀ (s : State) (p k n : Nat) (r : RingRec), (∀ x ∈ s.cores, x.2.shadow = none) → s.records = [r] → r.part = p → r.place = .offered k →
    (s.closeSlice p).records = [{ r with place := .ring, headSince := some s.cyc, offer := none }] ∧
    (r.offer = some n → Msg.migrationWithdraw p ((s.partOf p).candidate k) n ∈ (s.closeSlice p).outbox)) ∧
  -- quota windows: the use is counted in the window of its cycle, and a new window begins with none
  (∀ (s : State) (p : Nat),
    let w := s.cyc.toNat / (s.partOf p).pqwin.toNat
    (w ≠ (s.partOf p).window → Runs (.quotaWindow p) s (s.modPartition p (fun x => { x with useCyc := 0, useBit := 0, window := w }))) ∧
    (w = (s.partOf p).window → Runs (.quotaWindow p) s (s.modPartition p (fun x => x)))) ∧
  (∀ (s : State) (p : Nat) (x : Partition), NMap.get s.partitions p = some x →
    let w := (s.cyc + 1#64).toNat / x.pqwin.toNat
    (w ≠ x.window → (s.tick.partOf p).useCyc = 0 ∧ (s.tick.partOf p).useBit = 0 ∧ (s.tick.partOf p).window = w) ∧
    (w = x.window → (s.tick.partOf p).useBit = x.useBit ∧ (s.tick.partOf p).useCyc =
      x.useCyc + (s.cores.filter (fun y => y.2.mode != .idle && y.2.task.part == p)).length)) ∧
  -- descheduling, in one step or more
  (∀ (s : State) (p : Nat) (x : Partition), NMap.get s.partitions p = some x →
    let t := s.modPartition p (fun x => { x with closing := true })
    let u := if x.inSlice then t.closeSlice p else t
    let down := u.modPartition p (fun x => { x with vstate := .descheduled, closing := false })
    ∀ i : Instr, i = .deschedule p ∨ i = .pause p → x.vstate = .running →
      ((∃ q ∈ s.queues, q.2.part = p ∧ q.2.launching ≠ []) → Runs i s t) ∧
      ((∀ q ∈ s.queues, q.2.part = p → q.2.launching = []) → (u.occupied p = true → Runs i s u) ∧ (u.occupied p = false → Runs i s down))) ∧
  (∀ (s : State) (p : Nat), NMap.get s.partitions p = none ∨ (s.partOf p).vstate ≠ .running → Runs (.deschedule p) s s) ∧
  (∀ (s : State) (p : Nat) (x : Partition), NMap.get s.partitions p = some x → x.vstate = .descheduled →
    -- the image is written once no record of the device is on its way from a die to another
    let underWay : Prop := ∃ r ∈ s.records, r.part = p ∧ ((∃ k b, r.place = .moving k b) ∨ ∃ k n, r.place = .awaited k n)
    (¬underWay → Runs (.pause p) s (({ s with images := s.images.filter (fun y => y.part != p) ++ [s.migrationImage p] } : State).modPartition p
      (fun x => { x with vstate := .paused }))) ∧
    (underWay → Runs (.pause p) s s) ∧
    (let u := s.modPartition p (fun x => { x with vstate := .running, inSlice := true })
     Runs (.reschedule p) s { u with records := s.records.map (fun r =>
      if r.part = p ∧ r.place = .ring then { r with stamp := s.cyc.setWidth 40, record := r.record.stamped s.cyc } else r) })) ∧
  (∀ (s : State) (p : Nat), (s.migrationImage p).partition = s.partOf p ∧ (s.migrationImage p).records = (s.records.filter (fun r => r.part == p)).map (fun r => { r with claim := [] }) ∧
    (s.migrationImage p).contexts = s.contexts.filter (fun x => x.2.part == p) ∧
    (s.migrationImage p).cells = s.mem.filter (fun c => s.ownsAlone p (s.partOf p).own c.1) ∧
    -- the chains that run on after their tasks
    (∀ c x h, (c, x) ∈ s.cores → h ∈ x.chains → s.partOfContext h.ctx = p → ∃ l, (c, l) ∈ (s.migrationImage p).chains ∧ h ∈ l) ∧
    (s.migrationImage p).tables = (s.contexts.filter (fun x => x.2.part == p)).flatMap (fun x => s.pageTables x.2) ∧
    (s.migrationImage p).queues = s.queues.filter (fun x => x.2.part == p) ∧ (s.migrationImage p).graphs = s.graphs.filter (fun x => x.2.part == p) ∧
    (s.migrationImage p).members = s.members.filter (fun x => x.2.part == p) ∧ (s.migrationImage p).groups = s.groups.filter (fun x => x.2.part == p) ∧
    ∀ i k, (i, k) ∈ s.kernels → s.partOfContext k.ctx = p → NMap.get s.contexts k.ctx ≠ none → (i, k) ∈ (s.migrationImage p).kernels) ∧
  -- page tables: four levels from both roots down
  (∀ (s : State) (x : Context), let range (n a : Nat) := (a, n, s.mem.filter (fun c => decide (a ≤ c.1) && decide (c.1 < a + n)))
    let l2 := s.tablesBelow [x.hostRoot, x.devRoot]
    s.pageTables x = ([x.hostRoot, x.devRoot] ++ l2 ++ s.tablesBelow l2).map (range 4096) ++ (s.tablesBelow (s.tablesBelow l2)).map (range 256)) ∧
  (∀ (s : State) (l : List Nat) (a i : Nat), a ∈ l → a % 8 = 0 → i < 512 → (s.mem.read (a + 8 * i)).getLsbD 0 = true →
    (s.mem.read (a + 8 * i)).getLsbD 1 = false → 256 * s.readNat (a + 8 * i + 1) 5 ∈ s.tablesBelow l) ∧
  (∀ (s : State) (o : Ownership) (a : Nat), s.inOwned o a = true ↔
    (∃ k b, place s.nstr a = some (.pool k b) ∧ quadOf k ∈ o.quads) ∨
    (((∃ k b, place s.nstr a = some (.near k b)) ∨ ∃ k b, place s.nstr a = some (.far k b)) ∧
      ((∃ r ∈ o.ranges, r.1 ≤ a ∧ a < r.1 + r.2) ∨ ∃ r ∈ anonRanges o, r.1 ≤ a ∧ a < r.1 + r.2))) ∧
  (∀ (s : State) (p : Nat) (o : Ownership) (a : Nat), s.ownsAlone p o a = true ↔
    s.inOwned o a = true ∧ ∀ x ∈ s.partitions, x.1 ≠ p → s.inOwned x.2.own a = false) ∧
  -- over a paused device its image stands as it is, with what was written since; where its partition is none it comes from the image, if it fits
  (∀ (s : State) (i : Nat) (x : MigrationImage), s.images[i]? = some x →
    let back (t : State) : Prop := Runs (.migrationImageRestore i) s t
    let no := s.reject "MIGRATION_IMAGE_RESTORE"
    let u := s.restoreImage x
    let free : Prop := (∀ c ∈ x.contexts, ∀ y, NMap.get s.contexts c.1 = some y → y.part = x.part) ∧
      ∀ g ∈ x.graphs, ∀ y, NMap.get s.graphs g.1 = some y → y.part = x.part
    let room : Prop := s.device.stage = .reduced → u.staged ≤ 2 ^ 20 ∧ ∀ d l, d < 8 → l < 4 → (u.ring x.part d l).length ≤ 1024
    (s.serves = false → back no) ∧
    (∀ p, s.serves = true → NMap.get s.partitions x.part = some p →
      (p.vstate = .paused → back (s.modPartition x.part (fun p => { p with vstate := .descheduled, closing := false, inSlice := false }))) ∧
      (p.vstate ≠ .paused → back no)) ∧
    (s.serves = true → NMap.get s.partitions x.part = none → (free ∧ room → back u) ∧ (¬(free ∧ room) → back no))) ∧
  (∀ (s : State) (x : MigrationImage),
    let u := s.restoreImage x
    u.partOf x.part = { x.partition with vstate := .descheduled, closing := false, inSlice := false } ∧
    (s.device.stage ≠ .full → u.records = x.records ++ s.records.filter (fun r => r.part != x.part) ∧ u.mem = (s.restoreMemory x).mem) ∧
    (s.device.stage = .full → (∀ r ∈ x.records, (∀ va m, r.place ≠ .fault va m true) → r ∈ u.records) ∧
      ((∀ k ∈ s.kernels, k.2.staged = none) → (∀ k ∈ x.kernels, k.2.staged = none) → u.mem = (s.restoreMemory x).mem)) ∧
    -- what its hosts' rings held has been delivered; in REDUCED its texts and constant extents are in staging memory
    (∀ j k, x.kernels = [(j, k)] → s.device.stage = .reduced → k.staged = none → ∃ text cs, NMap.get u.kernels j =
      some { k with staged := some (text, cs), hostRing := [] } ∧ text.length = k.textLen ∧ cs.length = k.constLen) ∧
    -- its chains stand behind those of their cores' copy engines
    (∀ c l, x.chains = [(c, l)] → (u.core c).chains = (s.core c).chains ++ l)) ∧
  -- the image's page tables, and what the partition alone owns, hold the image's bytes, zero where it lists none; all of it counts as written
  (∀ (s : State) (x : MigrationImage),
    let mine (a : Nat) : Bool := s.ownsAlone x.part x.partition.own a
    let cells := x.cells.filter (fun c => mine c.1)
    let clear := s.mem.filter (fun c => !mine c.1)
    (x.tables = [] → (s.restoreMemory x).mem = Memory.writeCells clear cells) ∧
    (∀ a n l, x.tables = [(a, n, l)] → (s.restoreMemory x).mem =
      Memory.writeCells (Memory.writeCells (clear.filter (fun c => decide (c.1 < a) || decide (a + n ≤ c.1))) l) cells) ∧
    ∀ g v, NMap.get (s.restoreMemory x).scrubbed g = some v → mine (64 * g) = false ∧
      ∀ r ∈ x.tables, 64 * g + 64 ≤ r.1 ∨ r.1 + r.2.1 ≤ 64 * g) ∧
  -- reset: an empty device that runs, its ownership kept, its incarnation one higher
  (∀ (s : State) (p : Nat) (x : Partition), NMap.get s.partitions p = some x → ∃ t, Runs (.virtualDeviceReset p) s t ∧
    (t.partOf p).vstate = .running ∧ (t.partOf p).inSlice = true ∧ (t.partOf p).closing = false ∧ (t.partOf p).own = x.own ∧
    (t.partOf p).incarnation = x.incarnation + 1#16 ∧ (∀ r ∈ t.records, r.part ≠ p) ∧
    (∀ m ∈ t.members, m.2.part ≠ p) ∧ (∀ q ∈ t.queues, q.2.part = p → q.2.halted = true ∧ q.2.fetched = [])) ∧
  (∀ (s : State) (p : Nat), NMap.get s.partitions p = none → Runs (.virtualDeviceReset p) s s)

/-- R113, R116, R157, R160, R162, R313, R316: partitions and contexts come and go; parameter registers take values in range and keep their own
otherwise. What the end of a context sweeps: log 58; NSTR: log 59; which check points exist: log 61. -/
def Obligations.PartitionsAndParameters : Prop :=
  (∀ (r : PartitionRequest), partitionOk r = true ↔ r.id ≤ 4095 ∧ 1 ≤ r.packages.length ∧ r.packages.length ≤ 8192 ∧
    r.pkgIdx < r.packages.length ∧ r.ringLog.length = 32 ∧ (∀ n ∈ r.ringLog, 10 ≤ n ∧ n ≤ 20) ∧ ownershipOk r.own = true ∧ r.queues.length ≤ 64 ∧
    -- a queue launches to dies of the package
    ∀ q ∈ r.queues, ∀ d ∈ q.dies, d < 8) ∧
  (∀ o : Ownership, ownershipOk o = true ↔ (∀ q ∈ o.quads, q < 128) ∧ (∀ p ∈ o.ports, p.1 < 32) ∧ (∀ r ∈ o.anon, r.1 < 8 ∧ r.2.1 + r.2.2 ≤ 2 ^ 24) ∧
    (o.anon.map (fun r => r.1)).Nodup ∧ (o.ports.map (fun p => p.1)).Nodup ∧ ∀ r ∈ o.wakeRegs, r < 8192) ∧
  (∀ d : Nat, (pointHere (.pool d) = true ↔ d < 8) ∧ (pointHere (.hbm d) = true ↔ d < 16) ∧ (pointHere (.mesh d) = true ↔ d < 8) ∧
    (pointHere (.dieToDie d) = true ↔ d < 9) ∧ (pointHere (.ethernet d) = true ↔ d < 32)) ∧
  (∀ x y : CheckPoint, pointHere x = true → pointHere y = true → checkIndex x = checkIndex y → x = y) ∧
  -- a ring of each level on each die, with a capacity of its own; 2^10 at most in REDUCED
  (∀ (s : State) (p d l n : Nat), (s.partOf p).ringLog[4 * d + l]? = some n →
    s.ringCap p d l = if s.device.stage = .reduced then min (2 ^ n) (2 ^ 10) else 2 ^ n) ∧
  (∀ (s : State) (r : PartitionRequest), s.serves = true → partitionOk r = true → NMap.get s.partitions r.id = none →
    ∃ t, Runs (.partitionCreation r) s t ∧
      (∀ j x, r.queues[j]? = some x → ∃ q, NMap.get t.queues (64 * r.id + j) = some q ∧ q.part = r.id ∧ q.ctx = x.ctx ∧ q.base = x.base ∧
        q.log = x.log ∧ q.doneAt = x.doneAt ∧ q.halted = false ∧ q.fetched = []) ∧ (t.partOf r.id).packages = r.packages ∧ (t.partOf r.id).pkgIdx = r.pkgIdx ∧
      (t.partOf r.id).ringLog = r.ringLog ∧ (t.partOf r.id).own = r.own ∧ (t.partOf r.id).vstate = .running ∧ t.mem = s.mem) ∧
  (∀ (s : State) (r : PartitionRequest), s.serves = false ∨ partitionOk r = false ∨ NMap.get s.partitions r.id ≠ none →
    Runs (.partitionCreation r) s (s.reject "PARTITION_CREATION")) ∧
  (∀ (s : State) (p : Nat) (x : Partition), NMap.get s.partitions p = some x →
    ∃ t, Runs (.partitionDestruction p) s t ∧ NMap.get t.partitions p = none ∧ (∀ q ∈ t.queues, q.2.part ≠ p) ∧
      (∀ g ∈ t.graphs, g.2.part ≠ p) ∧ (∀ r ∈ t.records, r.part ≠ p) ∧
      (∀ d ∈ t.dies.toList, (∀ y ∈ d.rr.toList, y.part ≠ some p) ∧ ∀ a ∈ d.adverts, a.part ≠ p)) ∧
  (∀ (s : State) (p : Nat), NMap.get s.partitions p = none → Runs (.partitionDestruction p) s s) ∧
  (∀ (s : State) (r : ContextRequest),
    let ok := s.serves = true ∧ NMap.get s.contexts r.id = none ∧ NMap.get s.partitions r.part ≠ none ∧ r.petSize ≤ 2 ^ 20
    (ok → Runs (.contextCreation r) s { s with
      contexts := NMap.set s.contexts r.id ⟨r.part, r.hostRoot, r.devRoot, r.petAt, r.petSize, r.listAt, r.listCap, [], []⟩ }) ∧
    (¬ok → Runs (.contextCreation r) s (s.reject "CONTEXT_CREATION"))) ∧
  (∀ (s : State) (c : Nat), Runs (.contextDestruction c) s ((s.sweepContext c).dropContext c)) ∧
  (∀ (s : State) (c : Nat), NMap.get (s.dropContext c).contexts c = none ∧
    (NMap.get s.contexts c ≠ none → ∀ k ∈ (s.dropContext c).kernels, k.2.ctx ≠ c)) ∧
  (∀ (s : State) (p : Nat) (own : Ownership),
    let ok := NMap.get s.partitions p ≠ none ∧ (s.partOf p).vstate = .paused ∧ ownershipOk own = true
    (ok → Runs (.ownershipChange p own) s ((s.modPartition p (fun x => { x with own := own })).materialise own.quads)) ∧
    (¬ok → Runs (.ownershipChange p own) s (s.reject "OWNERSHIP_CHANGE"))) ∧
  -- parameter registers
  (∀ (s : State) (r : ParamReg) (v : BitVec 64), s.serves = false →
    Runs (.parameterRegisterWrite r v) s (s.reject "PARAMETER_REGISTER_WRITE")) ∧
  (∀ (s : State) (p : Nat) (v : BitVec 64), s.serves = true →
    let low (n : Nat) := v.toNat % 2 ^ n
    let keep (r : ParamReg) : Prop := Runs (.parameterRegisterWrite r v) s (s.reject "PARAMETER_REGISTER_WRITE")
    let set (r : ParamReg) (f : Partition → Partition) : Prop := Runs (.parameterRegisterWrite r v) s (s.modPartition p f)
    (1 ≤ low 5 → low 5 ≤ 16 → set (.pwgt p) (fun x => { x with pwgt := v.setWidth 5 })) ∧
    (low 5 = 0 ∨ 16 < low 5 → keep (.pwgt p)) ∧
    set (.pqcyc p) (fun x => { x with pqcyc := v }) ∧ set (.pqbit p) (fun x => { x with pqbit := v }) ∧
    (10000 ≤ low 40 → set (.pqwin p) (fun x => { x with pqwin := v.setWidth 40, window := s.cyc.toNat / low 40 })) ∧
    (low 40 < 10000 → keep (.pqwin p)) ∧
    set (.age p) (fun x => { x with age := v.setWidth 40 }) ∧ set (.migt p) (fun x => { x with migt := v.setWidth 40 }) ∧
    set (.colt p) (fun x => { x with colt := v.setWidth 40 }) ∧ set (.anqt p) (fun x => { x with anqt := v.setWidth 8 }) ∧
    (1000 ≤ low 32 → low 32 ≤ 2 ^ 31 → set (.ydl p) (fun x => { x with ydl := v.setWidth 32 })) ∧
    (low 32 < 1000 ∨ 2 ^ 31 < low 32 → keep (.ydl p)) ∧
    (256 ≤ low 32 → low 32 ≤ 2 ^ 31 → set (.lbud p) (fun x => { x with lbud := v.setWidth 32 })) ∧
    (low 32 < 256 ∨ 2 ^ 31 < low 32 → keep (.lbud p)) ∧
    (85 ≤ v.toNat → v.toNat ≤ 105 →
      Runs (.parameterRegisterWrite .tripTemp v) s { s with device := { s.device with trip := v.toNat } }) ∧
    (v.toNat < 85 ∨ 105 < v.toNat → keep .tripTemp) ∧
    (v.toNat ≤ 64 → Runs (.parameterRegisterWrite .nstr v) s (s.setNstr v.toNat)) ∧ (64 < v.toNat → keep .nstr) ∧
    -- the counter of each check point of the package, and of no other
    (∀ x i, pointHere x = true → i = checkIndex x →
      Runs (.parameterRegisterWrite (.counter i) v) s (s.setCounter i { s.counter i with cor := v.setWidth 32 })) ∧
    (∀ i, (∀ x, pointHere x = true → i ≠ checkIndex x) → keep (.counter i)) ∧
    -- a wake register is bound to a graph of the partition that owns it
    let mine (r : Nat) : Prop := ∃ g, NMap.get s.graphs v.toNat = some g ∧ r ∈ (s.partOf g.part).own.wakeRegs
    (∀ r, v ≠ 0#64 → ¬mine r → keep (.wakeBind r)) ∧
    (∀ r, r ≤ 8191 → v ≠ 0#64 → mine r → Runs (.parameterRegisterWrite (.wakeBind r) v) s { s with wakeRegs := NMap.set s.wakeRegs r v.toNat }) ∧
    (∀ r, r ≤ 8191 → v = 0#64 → Runs (.parameterRegisterWrite (.wakeBind r) v) s { s with wakeRegs := NMap.del s.wakeRegs r }) ∧
    (∀ r, 8191 < r → keep (.wakeBind r)))


/-! The device. -/

/-- R324, R325, R331, R332: bring-up from a module reset to FULL: what VERIFY, RECOVERY and training lead to; COMMIT; a signed report.
Memory after a module reset: log 49; digests and signatures: log 14; the clock: log 68; a trip before REDUCED: log 77; the layout of a
report: log 86. -/
def Obligations.BringUpAndTrust : Prop :=
  (∀ s : State, ∃ t, Runs .moduleReset s t ∧ t.device.stage = .verify ∧ t.device.fuses = s.device.fuses ∧
    t.device.keyDigest = s.device.keyDigest ∧ t.device.failedStacks = [] ∧ t.device.image = s.device.image ∧ t.cores = State.reset.cores ∧ t.kernels = [] ∧ t.contexts = [] ∧ t.partitions = [] ∧ t.records = []) ∧
  -- the image held is accepted by the key's digest in fuses, its signature, and a version not below the fused counter
  (∀ s : State,
    let f := s.device.image
    let good := Config.shake256 f.key = s.device.keyDigest ∧ Config.falconVerifies f.key (Config.shake256 f.image) f.signature = true ∧
      s.device.fuses ≤ f.version.toNat
    (s.device.stage = .verify → good → Runs .verifyComplete s { s with device := { s.device with stage := .reduced, clock := 700 } }) ∧
    (s.device.stage = .verify → ¬good → Runs .verifyComplete s { s with device := { s.device with stage := .recovery } }) ∧
    (s.device.stage ≠ .verify → Runs .verifyComplete s s)) ∧
  (∀ (s : State) (f : ImageFile),
    (s.device.stage = .recovery → Runs (.recoveryImage f) s { s with device := { s.device with stage := .verify, image := f } }) ∧
    (s.device.stage ≠ .recovery → Runs (.recoveryImage f) s s)) ∧
  -- FULL once no stack of the sixteen has failed since the reset; a failed stack is reported and REDUCED stays
  (∀ (s : State) (l : List Nat), s.device.stage = .reduced → s.device.failedStacks = [] → (∀ x ∈ l, 16 ≤ x) →
    Runs (.trainingComplete l) s
      ({ s with device := { s.device with stage := .full, clock := s.device.commanded, reachedFull := true } } : State).moveStaged.completeStaged) ∧
  (∀ (s : State) (l : List Nat), s.device.stage = .reduced → (∃ x ∈ l, x < 16) ∨ s.device.failedStacks ≠ [] →
    let f := l.filter (fun x => decide (x < 16))
    Runs (.trainingComplete l) s (f.foldl (fun s x => s.notify (.stackFailed x))
      { s with device := { s.device with failedStacks := s.device.failedStacks ++ f } })) ∧
  (∀ (s : State) (l : List Nat), s.device.stage ≠ .reduced → Runs (.trainingComplete l) s s) ∧
  -- at FULL a staged text and constant extent stand in the near tier, and the faults that only REDUCED made complete
  (∀ (s : State) (i : Nat) (k : Kernel) (text : List Word32) (cs : List Byte), s.kernels = [(i, k)] → k.staged = some (text, cs) →
    s.moveStaged = { (s.writeRun k.textAt (bytesOfWords text)).writeRun k.constAt cs with kernels := [(i, { k with staged := none })] }) ∧
  (∀ (s : State) (r : RingRec) (va : BitVec 64) (uid : Nat), r ∈ s.records →
    (r.place = .fault va uid true → ∃ x ∈ s.completeStaged.records, x.id = r.id ∧ x.place = .ring ∧ x.stamp = s.cyc.setWidth 40) ∧
    (r.place = .fault va uid false → r ∈ s.completeStaged.records)) ∧
  (∀ s : State,
    let v := s.device.image.version.toNat
    (s.device.reachedFull = true → v ≤ 64 → Runs .commit s { s with device := { s.device with fuses := max s.device.fuses v } }) ∧
    (s.device.reachedFull = false ∨ 64 < v → Runs .commit s (s.reject "COMMIT"))) ∧
  (∀ (s : State) (n : BitVec 256), Runs (.attestationReport n) s
    (s.notify (.report (s.report n ++ Config.identitySignature (s.report n))))) ∧
  (∀ (s : State) (n : BitVec 256), (s.report n).take 32 = bytesOf 32 n.toNat ∧
    ((s.report n).drop 32).take 32 = bytesOf 32 (Config.shake256 s.device.image.image).toNat ∧
    (s.report n).drop 64 = bytesOf 4 s.device.image.version.toNat ++ bytesOf 8 s.device.fuses ++ bytesOf 1 s.device.stage.code ++
      bytesOf 1 (if s.device.locked then 1 else 0) ++ bytesOf 32 (Config.shake256 s.tableBytes).toNat)

/-- R4, R326 to R329: power states, the commanded clock, locked-clock mode and thermal trips. Memory of a die that was OFF: log 49. The
model's choices (log 77): a trip before FULL sets 600 MHz, which the entry to REDUCED raises, and the frequency commanded before a trip or locked-clock mode is forgotten. -/
def Obligations.PowerAndClock : Prop :=
  (∀ (s : State) (die : Nat) (st : PowerState),
    let d := s.die die
    let down (p : PowerState) := p = .parked ∨ p = .off
    let busy := ∃ x ∈ s.cores, x.1 / 64 = die ∧ (x.2.mode ≠ .idle ∨ x.2.shadow ≠ none)
    (s.serves = false ∨ (down st ∧ busy) ∨ (st = .off ∧ s.framesMeet (Place.ofDie die) = true) →
      Runs (.powerStateChange die st) s (s.reject "POWER_STATE_CHANGE")) ∧
    (s.serves = true → ¬down st → Runs (.powerStateChange die st) s (s.setDie die { d with
      power := st, entering := d.entering || PowerState.down d.power })) ∧
    (s.serves = true → st = .parked → ¬busy → Runs (.powerStateChange die st) s (s.setDie die { d with power := st, entering := false })) ∧
    (s.serves = true → st = .off → ¬busy → s.framesMeet (Place.ofDie die) = false →
      let u := s.setDie die { d with power := st, entering := false }
      let kept (a : Nat) : Bool := match place s.nstr a with
        | some p => !Place.lostWith die p
        | none => true
      Runs (.powerStateChange die st) s { u with
        mem := s.mem.filter (fun c => kept c.1), scrubbed := s.scrubbed.filter (fun g => kept (64 * g.1)) })) ∧
  (∀ (s : State) (die : Nat), Runs (.entryToActive die) s (s.setDie die { s.die die with entering := false })) ∧
  (∀ (s : State) (f : Nat),
    let ok := s.serves = true ∧ f % 25 = 0 ∧ 600 ≤ f ∧ f ≤ 1200 ∧ s.device.locked = false
    (ok → Runs (.clockCommand f) s { s with device := { s.device with commanded := f } }) ∧
    (¬ok → Runs (.clockCommand f) s (s.reject "CLOCK_COMMAND"))) ∧
  (∀ s : State,
    (s.device.stage = .full → s.device.locked = false → Runs .clockChange s { s with device := { s.device with clock := s.device.commanded } }) ∧
    (s.device.stage ≠ .full ∨ s.device.locked = true → Runs .clockChange s s)) ∧
  -- a sensor's reading, of a core die or of the hub die, the ninth: below the trip temperature nothing happens
  (∀ (s : State) (die temp : Nat),
    let u := if die = 8 then { s with device := { s.device with hubTemp := temp } } else s.setDie die { s.die die with temp := temp }
    (9 ≤ die → Runs (.thermalTrip die temp) s s) ∧
    (die < 9 → temp < s.device.trip → Runs (.thermalTrip die temp) s u) ∧
    (die < 9 → s.device.trip ≤ temp → s.device.locked = false → Runs (.thermalTrip die temp) s
      (({ u with device := { u.device with clock := 600, commanded := 600 } } : State).notify (.thermal die))) ∧
    (die < 9 → s.device.trip ≤ temp → s.device.locked = true →
      let v := u.withdrawAll.killRunning
      Runs (.thermalTrip die temp) s { v with device := { v.device with dispatchStopped := true } })) ∧
  (∀ (s : State) (c : Nat), (s.withdrawAll.core c).shadow = none) ∧
  -- dispatch goes on once every sensor of the nine dies reads 5 degrees below the trip
  (∀ (s : State) (l : List Nat), l.length = 9 →
    ((∀ x ∈ l, x + 5 ≤ s.device.trip) → ∃ t, Runs (.thermalRecovery l) s t ∧
      t.device = { s.device with hubTemp := l[8]?.getD 0, dispatchStopped := false } ∧ (∀ d, d < 8 → (t.die d).temp = l[d]?.getD 0)) ∧
    ((∃ x ∈ l, s.device.trip < x + 5) → ∃ t, Runs (.thermalRecovery l) s t ∧ t.device = { s.device with hubTemp := l[8]?.getD 0 } ∧
      (∀ d, d < 8 → (t.die d).temp = l[d]?.getD 0))) ∧
  (∀ s : State,
    (s.device.stage ≠ .full → Runs .lockedClockEnter s (s.reject "LOCKED_CLOCK_ENTER") ∧
      Runs .lockedClockLeave s (s.reject "LOCKED_CLOCK_LEAVE")) ∧
    (s.device.stage = .full → s.taskRuns = true → Runs .lockedClockEnter s s ∧ Runs .lockedClockLeave s s) ∧
    (s.device.stage = .full → s.taskRuns = false →
      Runs .lockedClockEnter s { s with device := { s.device with locked := true, clock := 1000, commanded := 1000 } } ∧
      Runs .lockedClockLeave s { s with device := { s.device with locked := false } }))

/-- R297 to R299, R330: an uncorrectable error stops every kernel; heartbeats and their loss; checkpoints, and recovery from the last. When
a checkpoint is taken, and what a recovery makes of records that move: log 60; which check points exist and what they count: log 61; the
message of a package's failure: log 47. -/
def Obligations.IntegrityAndRecovery : Prop :=
  -- what a check point finds: corrected errors and retries are counted, an uncorrectable error stops every kernel
  (∀ (s : State) (p : CheckPoint),
    let i := checkIndex p
    let x := s.counter i
    let u := (NMap.keys s.contexts).foldl (fun s c => s.sweepContext c)
      (s.setCounter i { x with unc := if x.unc = BitVec.allOnes 16 then x.unc else x.unc + 1#16 })
    let own := u.ownNumbers.filter (fun p => !u.device.failed.contains p)
    let v := ({ u with device := { u.device with halted := true, failed := u.device.failed ++ own.eraseDups } } : State).notify .uncorrectable
    s.failsAt p = v.peerPackages.foldl (fun s k => { s with outbox := s.outbox ++ [.uncorrectable k] }) v) ∧
  (∀ (s : State) (p : CheckPoint) (n : Nat),
    let i := checkIndex p
    let x := s.counter i
    s.countCorrected p n = s.setCounter i { x with cor := if x.cor.toNat + n < 2 ^ 32 then x.cor + BitVec.ofNat 32 n else BitVec.allOnes 32 }) ∧
  (∀ (s : State) (d : Nat),
    -- a check point that the package has not finds nothing; which there are: PartitionsAndParameters
    (∀ p : CheckPoint, pointHere p = false → Runs (.uncorrectableError (.corrected p)) s s ∧ Runs (.uncorrectableError (.uncorrectable p)) s s) ∧
    (∀ p : CheckPoint, pointHere p = true → p = .pool d ∨ p = .hbm d ∨ p = .ethernet d →
      Runs (.uncorrectableError (.corrected p)) s (s.countCorrected p 1)) ∧
    (∀ p : CheckPoint, p = .mesh d ∨ p = .dieToDie d → Runs (.uncorrectableError (.corrected p)) s s) ∧
    (∀ p : CheckPoint, pointHere p = true → p = .pool d ∨ p = .hbm d ∨ p = .mesh d →
      Runs (.uncorrectableError (.uncorrectable p)) s (s.failsAt p)) ∧
    (∀ p : CheckPoint, p = .dieToDie d ∨ p = .ethernet d → Runs (.uncorrectableError (.uncorrectable p)) s s) ∧
    (∀ n, d < 9 → n ≤ 16 → Runs (.uncorrectableError (.retried d n)) s (s.countCorrected (.dieToDie d) n)) ∧
    -- sixteen retries are made, and counted, before the error stands
    (∀ n, d < 9 → 16 < n → Runs (.uncorrectableError (.retried d n)) s ((s.countCorrected (.dieToDie d) 16).failsAt (.dieToDie d))) ∧
    (∀ n, 9 ≤ d → Runs (.uncorrectableError (.retried d n)) s s) ∧
    (d < 32 → Runs (.uncorrectableError (.otherMode d)) s
      (s.setCounter (64 + d) { s.counter (64 + d) with dropped := (s.counter (64 + d)).dropped + 1 })) ∧
    (32 ≤ d → Runs (.uncorrectableError (.otherMode d)) s s) ∧
    Runs (.uncorrectableError (.peer d)) s (s.packageFails d)) ∧
  -- heartbeats: a peer's begins its count again, this package's own goes to every package that shares a partition with it
  (∀ (s : State) (p : Nat),
    (p ∉ s.ownNumbers → Runs (.heartbeat p) s { s with device := { s.device with missed := NMap.set s.device.missed p 0 } }) ∧
    (p ∈ s.ownNumbers → ∃ t, Runs (.heartbeat p) s t ∧ t.device = s.device ∧ t.outbox = s.outbox ++ s.peerPackages.map (fun k => .heartbeat k))) ∧
  (∀ (s : State) (p : Nat),
    let n := NMap.getD s.device.missed p 0 + 1
    let u : State := { s with device := { s.device with missed := NMap.set s.device.missed p n } }
    (n < 8 → Runs (.heartbeatTimeout p) s u) ∧ (8 ≤ n → Runs (.heartbeatTimeout p) s (u.packageFails p))) ∧
  (∀ (s : State) (p : Nat), s.device.failed.contains p = true → s.packageFails p = s) ∧
  (∀ (s : State) (p : Nat), s.device.failed.contains p = false → p ∈ (s.packageFails p).device.failed) ∧
  -- a failed package's partitions stop here, and the other packages of those partitions hear of it
  (∀ (s : State) (p : Nat), s.device.failed.contains p = false →
    let hit := (NMap.keys (s.partitions.filter (fun x => x.2.packages.contains p))).flatMap s.contextsOf
    let u := hit.foldl (fun s c => s.sweepContext c)
      (({ s with device := { s.device with failed := s.device.failed ++ [p] } } : State).notify (.packageFailed p))
    ∃ l : List Nat, (∀ k, k ∈ l ↔ k ≠ p ∧ ∃ x ∈ s.partitions, p ∈ x.2.packages ∧ k ∈ x.2.peers) ∧ l.Nodup ∧
      s.packageFails p = { u with outbox := u.outbox ++ l.map (fun k => .packageFailed k p) }) ∧
  -- a checkpoint, in the cycle in which a PHASE.X instance completes, with every task still or saved; it holds every task and record
  (∀ (s : State) (p : Nat) (rs : List (Nat × Nat)),
    -- no task is on its way to or from another package
    let crosses : Prop := ∃ r ∈ s.records, r.part = p ∧ ((∃ k, 8 ≤ k ∧ r.place = .moving k true) ∨ ∃ k n, r.place = .awaited k n)
    let due := (s.partOf p).phasedAt = some s.cyc ∧ (∀ c ∈ s.coresOf p, s.still c = true) ∧ ¬crosses
    (∀ l, s.heldRecords p = .ok l → due →
      let k := s.checkpointOf p rs l
      (k.size ≤ 2 ^ 38 → Runs (.checkpoint p rs) s { s with checkpoints := s.checkpoints.filter (fun x => x.part != p) ++ [k] }) ∧
      (2 ^ 38 < k.size → Runs (.checkpoint p rs) s (s.reject "CHECKPOINT"))) ∧
    (¬due → Runs (.checkpoint p rs) s s) ∧ (∀ e, s.heldRecords p = .error e → Runs (.checkpoint p rs) s s)) ∧
  (∀ (s : State) (p : Nat) (rs : List (Nat × Nat)) (l : List RingRec),
    let k := s.checkpointOf p rs l
    k.part = p ∧ k.records = l ∧ (∀ c ∈ s.coresOf p, ∃ x, (c, x) ∈ k.tasks) ∧ k.contexts = s.contexts.filter (fun x => x.2.part == p) ∧
    (∀ r ∈ rs, (r.1, r.2, s.mem.filter (fun c => decide (r.1 ≤ c.1) && decide (c.1 < r.1 + r.2))) ∈ k.ranges) ∧
    (∀ c ∈ s.coresOf p, (poolBase c, poolSize,
      s.mem.filter (fun x => decide (poolBase c ≤ x.1) && decide (x.1 < poolBase c + poolSize))) ∈ k.ranges) ∧
    (∀ i x, (i, x) ∈ s.kernels → s.partOfContext x.ctx = p → (i, x.area) ∈ k.areas ∧ (i, x.hostRing, x.dropped) ∈ k.hostRings) ∧
    k.size = (k.ranges.map (fun r => r.2.1)).sum + (imageSize - poolSize) * k.tasks.length + imageSize * (k.records.map (fun r => r.img.length)).sum) ∧
  -- its records: those that wait, in rings and in shadow slots, with the images that frames hold
  (∀ (s : State) (p : Nat) (l : List RingRec), s.heldRecords p = .ok l →
    let mine := (s.cores.filterMap (fun x => x.2.shadow) ++ s.records).filter (fun r => r.part == p)
    l.length = mine.length ∧ ∀ (i : Nat) (r x : RingRec), mine[i]? = some r → l[i]? = some x → x.id = r.id ∧ x.record = r.record ∧ x.claim = [] ∧
      -- an acceptance is taken back
      (∀ k, r.place = .moving k false → x.place = .offered k) ∧ ((∀ k, r.place ≠ .moving k false) → x.place = r.place) ∧
      ((∃ m, s.sentImages r = .ok m ∧ x.img = m) ∨ ((∃ e, s.sentImages r = .error e) ∧ x.img = r.img))) ∧
  (∀ (s : State) (p c e : Nat) (r : RingRec), r ∈ s.records → r.part = p → s.sentImages r = .error (.held c e) → ∃ y, s.heldRecords p = .error y) ∧
  -- recovery: with a spare in the failed package's place, the checkpoint's records and memory stand again
  (∀ (s : State) (p pkg : Nat) (k : Checkpoint), s.checkpoints.find? (fun x => x.part == p) = some k → s.serves = true → pkg ∈ s.device.failed →
    (∀ x ∈ k.tasks, (s.core x.1).mode = .idle ∨ (s.task x.1).part = p) →
    let u := (s.contextsOf p).foldl (fun s c => s.sweepContext c) s
    let v := (u.recoverMemory k (s.ownNumbers.contains pkg)).recoverTables k pkg
    -- in REDUCED no ring would hold more than 1,024 records
    let room : Prop := s.device.stage = .reduced → ∀ d l, d < 8 → l < 4 → (v.ring p d l).length ≤ 1024
    (room → Runs (.packageRecovery p pkg) s ((k.tasks.foldl (fun s x => (s.withdraw x.1).resumeFrom x.1 x.2) v).offerAgain p)) ∧
    (¬room → Runs (.packageRecovery p pkg) s s)) ∧
  -- its records that are offered to peers are offered anew
  (∀ (s : State) (p : Nat) (r : RingRec), s.records = [r] →
    (∀ k, r.part = p → r.place = .offered k → 8 ≤ k → s.offerAgain p = s.offerTo r k) ∧
    ((∀ k, r.part = p → r.place = .offered k → k < 8) → s.offerAgain p = s)) ∧
  (∀ (s : State) (k : Checkpoint) (pkg : Nat),
    let t := s.recoverTables k pkg
    pkg ∉ t.device.failed ∧ t.device.halted = false ∧ t.records = k.records ++ s.records.filter (fun r => r.part != k.part) ∧
    (NMap.get s.partitions k.part ≠ none → (t.partOf k.part).granules = k.granules) ∧
    -- of its tasks those of the checkpoint are left
    (∀ x ∈ t.members, x.2.part = k.part → x ∈ k.members) ∧ (∀ x ∈ k.timers, x ∈ t.timers) ∧
    (∀ x ∈ k.collectives, x ∈ t.collectives) ∧
    -- a record of the host's event ring stays only where it stood there at the checkpoint
    (∀ i x a h d, NMap.get s.kernels i = some x → NMap.get k.areas i = some a → NMap.get k.hostRings i = some (h, d) →
      ∃ y, NMap.get t.kernels i = some y ∧ y.area = a ∧ y.dying = none ∧ y.deaths = 0 ∧ y.dropped = d ∧
        (h <+: x.hostRing → y.hostRing = h) ∧ (¬h <+: x.hostRing → y.hostRing = []))) ∧
  (∀ (s : State) (p pkg : Nat), s.checkpoints.find? (fun x => x.part == p) = none ∨ pkg ∉ s.device.failed ∨ s.serves = false →
    Runs (.packageRecovery p pkg) s s) ∧
  (∀ (s : State) (p pkg : Nat) (k : Checkpoint), s.checkpoints.find? (fun x => x.part == p) = some k →
    (∃ x ∈ k.tasks, (s.core x.1).mode ≠ .idle ∧ (s.task x.1).part ≠ p) → Runs (.packageRecovery p pkg) s s) ∧
  -- the spare's memory that the checkpoint does not name reads zero; a range that it names holds its bytes
  (∀ (s : State) (k : Checkpoint) (a : Nat), k.ranges = [] → s.ownsAlone k.part (s.partOf k.part).own a = true →
    Memory.read (s.recoverMemory k true).mem a = 0#8) ∧
  (∀ (s : State) (k : Checkpoint) (spare : Bool) (a n : Nat) (l : List Host.Cell), k.ranges = [(a, n, l)] →
    (s.recoverMemory k spare).mem = Memory.writeCells ((if spare = true then (s.clearOwned k.part (s.partOf k.part).own).mem else s.mem).filter
      (fun c => decide (c.1 < a) || decide (a + n ≤ c.1))) l) ∧
  (∀ (s : State) (k : Checkpoint) (spare : Bool) (g v : Nat), NMap.get (s.recoverMemory k spare).scrubbed g = some v →
    ∀ r ∈ k.ranges, 64 * g + 64 ≤ r.1 ∨ r.1 + r.2.1 ≤ 64 * g)

/-! Every step, and reset. -/

/-- The memory keeps its canonical form: addresses strictly rise, and no byte is listed that an unlisted address reads as. It holds in every
state that a step gives, whatever the turn. -/
def Obligations.MemoryFormKept : Prop :=
  ∀ s t : State, Memory.wf s.mem = true → step s = .next t → Memory.wf t.mem = true

/-- R324, R328: the module begins in VERIFY with the trip temperature at 100; memory lists nothing, and its form holds; no core runs. What
unlisted memory reads as, and registers without a reset value, are the model's choice (logs 3 and 5). -/
def Obligations.ResetHolds : Prop :=
  State.reset.device.stage = .verify ∧ State.reset.device.trip = 100 ∧ State.reset.device.locked = false ∧
  State.reset.device.reachedFull = false ∧ State.reset.mem = [] ∧ Memory.wf State.reset.mem = true ∧ State.reset.nstr = 0 ∧
  State.reset.kernels = [] ∧ State.reset.contexts = [] ∧ State.reset.partitions = [] ∧ State.reset.records = [] ∧ State.reset.turns = [] ∧
  (∀ c, (State.reset.core c).mode = .idle) ∧ (∀ c, (State.reset.task c).pb = 0#28) ∧
  (∀ c n, n < 8 → ((State.reset.task c).zpwOf n) = 0x077#9)


/-! Two rules of single words. -/

/-- R73: NOP and NOP.X are the words 0x0000_0000 and 0x4000_0000, ADD of registers 0; each completes, which takes its sequencer's cycle, and
changes nothing of the whole state but that sequencer: no mark, no return entry, no branch outcome. -/
def Obligations.NopChangesNothing : Prop :=
  decode 0x00000000#32 = .ok (.add .a 0#6 0#6 0#6) ∧ decode 0x40000000#32 = .ok (.add .x 0#6 0#6 0#6) ∧
  ∀ (s : State) (d : Side),
    let t := s.retire s.cur d
    Runs (.add d 0#6 0#6 0#6) s t ∧ t = s.setSeq s.cur d (t.seq s.cur d) ∧ (t.seq s.cur d).issued = true ∧
    (t.seq s.cur d).marks = (s.seq s.cur d).marks ∧ (t.seq s.cur d).ret = (s.seq s.cur d).ret ∧
    (t.seq s.cur d).spilled = (s.seq s.cur d).spilled ∧ (t.seq s.cur d).bq = (s.seq s.cur d).bq ∧
    (t.seq s.cur d).bqFresh = (s.seq s.cur d).bqFresh ∧ (t.seq s.cur d).wrs = (s.seq s.cur d).wrs

/-- R76: B sets the program counter of the sequencer that executes it to PC + SignExt(off24, 24); the other sequencer's stays. -/
def Obligations.BranchBSetsTheCounter : Prop :=
  (∀ (s : State) (off : BitVec 24), ∃ t, Runs (.b off) s t ∧
    (t.seq s.cur s.side).pc = (s.seq s.cur s.side).pc + off.signExtend 32 ∧
    t.seq s.cur s.side.other = s.seq s.cur s.side.other) ∧
  (∀ off : BitVec 24, decode (0x80000000#32 ||| off.setWidth 32) = .ok (.b off))
end

