-- ==== Sys2Proof/Laws/Decode.lean ====
section
/-! SUPPORT. Fields of concatenated words: what the round trip of decoder and encoder needs (R36, R37). -/
namespace Sys2Proof

@[simp] theorem fld_all {n : Nat} (w : BitVec n) : fld w 0 n = w := by simp [fld]

@[simp] theorem fld_cat_low {m n : Nat} (a : BitVec m) (b : BitVec n) (lo len : Nat) (h : lo + len ≤ n) :
    fld (cat a b) lo len = fld b lo len := by
  simp [fld, cat, BitVec.extractLsb'_append_eq_of_add_le h]

@[simp] theorem fld_cat_high {m n : Nat} (a : BitVec m) (b : BitVec n) (lo len : Nat) (h : n ≤ lo) :
    fld (cat a b) lo len = fld a (lo - n) len := by
  simp [fld, cat, BitVec.extractLsb'_append_eq_of_le h]

@[simp] theorem side_ofBit_bit (s : Side) : Side.ofBit s.bit = s := by cases s <;> rfl

end Sys2Proof
end

