-- ==== Sys2Proof/Laws/Map.lean ====
section
/-! SUPPORT. Finite maps: reading after setting and removing, and that the keys stay rising. -/
namespace Sys2Proof.NMap

variable {α β : Type}

/-- Keys strictly rising, as a proposition on pairs. -/
theorem sorted_iff (m : NMap α) : sorted m = true ↔ m.Pairwise (fun p q => p.1 < q.1) := by
  induction m with
  | nil => simp [sorted]
  | cons p m ih =>
    cases m with
    | nil => simp [sorted]
    | cons q m =>
      simp only [sorted, Bool.and_eq_true, decide_eq_true_eq, ih, List.pairwise_cons]
      refine ⟨fun ⟨h, hq, hm⟩ => ⟨?_, hq, hm⟩, fun ⟨h, hq, hm⟩ => ⟨h q (by simp), hq, hm⟩⟩
      intro r hr
      rcases List.mem_cons.mp hr with rfl | hr
      · exact h
      · exact Nat.lt_trans h (hq r hr)

/-- Every pair after setting is the new one or an old one. -/
theorem mem_set {m : NMap α} {n : Nat} {x : α} {p : Nat × α} (h : p ∈ set m n x) : p = (n, x) ∨ p ∈ m := by
  induction m with
  | nil => simpa [set] using h
  | cons q m ih =>
    obtain ⟨k, v⟩ := q
    simp only [set] at h
    split at h
    · simpa using h
    · split at h
      · rcases List.mem_cons.mp h with h | h
        · exact .inl h
        · exact .inr (List.mem_cons_of_mem _ h)
      · rcases List.mem_cons.mp h with h | h
        · exact .inr (by simp [h])
        · exact (ih h).imp_right (List.mem_cons_of_mem _)

/-- Setting keeps the keys rising. -/
theorem set_sorted (m : NMap α) (n : Nat) (x : α) (h : sorted m = true) : sorted (set m n x) = true := by
  rw [sorted_iff] at h ⊢
  induction m with
  | nil => simp [set]
  | cons q m ih =>
    obtain ⟨k, v⟩ := q
    have hq := List.pairwise_cons.mp h
    simp only [set]
    split
    · rename_i hlt
      refine List.pairwise_cons.mpr ⟨fun r hr => ?_, h⟩
      rcases List.mem_cons.mp hr with rfl | hr
      · exact hlt
      · exact Nat.lt_trans hlt (hq.1 r hr)
    · split
      · rename_i heq
        exact List.pairwise_cons.mpr ⟨fun r hr => heq ▸ hq.1 r hr, hq.2⟩
      · rename_i h1 h2
        refine List.pairwise_cons.mpr ⟨fun r hr => ?_, ih hq.2⟩
        rcases mem_set hr with rfl | hr
        · show k < n; omega
        · exact hq.1 r hr

/-- Filtering keeps the keys rising. -/
theorem filter_sorted (m : NMap α) (p : Nat × α → Bool) (h : sorted m = true) : sorted (m.filter p) = true := by
  rw [sorted_iff] at h ⊢
  exact h.filter p

/-- Removing keeps the keys rising. -/
theorem del_sorted (m : NMap α) (n : Nat) (h : sorted m = true) : sorted (del m n) = true :=
  filter_sorted m _ h

/-- The key that was set reads the value set. -/
@[simp] theorem get_set_self (m : NMap α) (n : Nat) (x : α) : get (set m n x) n = some x := by
  induction m with
  | nil => simp [set, get]
  | cons q m ih =>
    obtain ⟨k, v⟩ := q
    simp only [set]
    split
    · simp [get]
    · split
      · simp [get]
      · rename_i h1 h2
        simp [get, h2, ih]

/-- Every other key reads what it read. -/
theorem get_set_ne (m : NMap α) {n j : Nat} (x : α) (h : j ≠ n) : get (set m n x) j = get m j := by
  induction m with
  | nil => simp [set, get, h]
  | cons q m ih =>
    obtain ⟨k, v⟩ := q
    simp only [set]
    split
    · simp [get, h]
    · split
      · rename_i h1 h2
        subst h2
        simp [get, h]
      · simp only [get, ih]

/-- What a key reads after setting. -/
theorem get_set (m : NMap α) (n j : Nat) (x : α) : get (set m n x) j = if j = n then some x else get m j := by
  by_cases h : j = n
  · simp [h]
  · simp [h, get_set_ne m x h]

/-- The later of two settings of a key stands. -/
theorem set_set (m : NMap α) (n : Nat) (x y : α) : set (set m n x) n y = set m n y := by
  induction m with
  | nil => simp [set]
  | cons q m ih =>
    obtain ⟨k, v⟩ := q
    by_cases h1 : n < k
    · simp [set, h1]
    · by_cases h2 : n = k
      · subst h2; simp [set]
      · simp [set, h1, h2, ih]

@[simp] theorem getD_set_self (m : NMap α) (n : Nat) (x d : α) : getD (set m n x) n d = x := by simp [getD]

theorem getD_set_ne (m : NMap α) {n j : Nat} (x d : α) (h : j ≠ n) : getD (set m n x) j d = getD m j d := by
  simp [getD, get_set_ne m x h]

/-- A removed key reads nothing. -/
@[simp] theorem get_del_self (m : NMap α) (n : Nat) : get (del m n) n = none := by
  induction m with
  | nil => rfl
  | cons q m ih =>
    obtain ⟨k, v⟩ := q
    by_cases h : k = n
    · simpa [del, List.filter, h] using ih
    · have : get (del ((k, v) :: m) n) n = get ((k, v) :: del m n) n := by simp [del, List.filter, h]
      rw [this]
      simp [get, Ne.symm h, ih]

/-- Removing a key leaves what every other key reads. -/
theorem get_del_ne (m : NMap α) {n j : Nat} (h : j ≠ n) : get (del m n) j = get m j := by
  induction m with
  | nil => rfl
  | cons q m ih =>
    obtain ⟨k, v⟩ := q
    by_cases hk : k = n
    · subst hk
      have : get (del ((k, v) :: m) k) j = get (del m k) j := by simp [del, List.filter]
      rw [this, ih]; simp [get, h]
    · have : get (del ((k, v) :: m) n) j = get ((k, v) :: del m n) j := by simp [del, List.filter, hk]
      rw [this]; simp [get, ih]

/-- A key that reads something is listed. -/
theorem mem_of_get {m : NMap α} {n : Nat} {x : α} (h : get m n = some x) : (n, x) ∈ m := by
  induction m with
  | nil => simp [get] at h
  | cons q m ih =>
    obtain ⟨k, v⟩ := q
    simp only [get] at h
    split at h
    · rename_i hk
      simp_all
    · exact List.mem_cons_of_mem _ (ih h)

end Sys2Proof.NMap
end

