-- ==== Sys2Proof/Laws/Memory.lean ====
section
/-! SUPPORT. Memory: what a byte reads as after each operation, and that every operation keeps the canonical form. -/
namespace Sys2Proof.Machine.Memory

/-- The canonical form, as propositions. -/
theorem wf_iff (m : Memory) : wf m = true ↔ m.Pairwise (fun p q => p.1 < q.1) ∧ ∀ c ∈ m, c.2 ≠ unlisted := by
  simp only [wf, Bool.and_eq_true, NMap.sorted_iff, List.all_eq_true, decide_eq_true_eq]

/-- Empty memory has the form. -/
@[simp] theorem wf_nil : wf [] = true := rfl

/-- Dropping bytes keeps the form. -/
theorem wf_filter {m : Memory} (p : Host.Cell → Bool) (h : wf m = true) : wf (m.filter p) = true := by
  rw [wf_iff] at h ⊢
  exact ⟨h.1.filter p, fun c hc => h.2 c (List.mem_filter.mp hc).1⟩

/-- Writing a byte keeps the form. -/
theorem wf_write {m : Memory} (a : Nat) (b : Byte) (h : wf m = true) : wf (m.write a b) = true := by
  unfold write
  split
  · exact wf_filter _ h
  · rename_i hb
    have hs := NMap.set_sorted m a b ((NMap.sorted_iff m).mpr ((wf_iff m).mp h).1)
    rw [wf_iff]
    refine ⟨(NMap.sorted_iff _).mp hs, fun c hc => ?_⟩
    rcases NMap.mem_set hc with rfl | hc
    · exact hb
    · exact ((wf_iff m).mp h).2 c hc

/-- Writing bytes one after another keeps the form. -/
theorem wf_writeCells {m : Memory} (cs : List Host.Cell) (h : wf m = true) : wf (m.writeCells cs) = true := by
  unfold writeCells
  induction cs generalizing m with
  | nil => exact h
  | cons c cs ih => exact ih (wf_write _ _ h)

/-- The cells of a run lie in it. -/
theorem cellsOf_range {a : Nat} {bs : List Byte} {c : Host.Cell} (h : c ∈ cellsOf a bs) :
    a ≤ c.1 ∧ c.1 < a + bs.length ∧ c.2 ≠ unlisted := by
  induction bs generalizing a with
  | nil => simp [cellsOf] at h
  | cons b bs ih =>
    simp only [cellsOf] at h
    split at h
    · obtain ⟨h1, h2, h3⟩ := ih h
      exact ⟨by omega, by simp only [List.length_cons]; omega, h3⟩
    · rename_i hb
      rcases List.mem_cons.mp h with rfl | h
      · simp [hb]
      · obtain ⟨h1, h2, h3⟩ := ih h
        exact ⟨by omega, by simp only [List.length_cons]; omega, h3⟩

/-- The cells of a run rise. -/
theorem cellsOf_pairwise (a : Nat) (bs : List Byte) : (cellsOf a bs).Pairwise (fun p q => p.1 < q.1) := by
  induction bs generalizing a with
  | nil => simp [cellsOf]
  | cons b bs ih =>
    simp only [cellsOf]
    split
    · exact ih _
    · exact List.pairwise_cons.mpr ⟨fun c hc => (cellsOf_range hc).1, ih _⟩

/-- Writing a run keeps the form. -/
theorem wf_writeRun {m : Memory} (a : Nat) (bs : List Byte) (h : wf m = true) : wf (m.writeRun a bs) = true := by
  rw [wf_iff] at h ⊢
  unfold writeRun
  refine ⟨?_, fun c hc => ?_⟩
  · rw [List.pairwise_append, List.pairwise_append]
    refine ⟨⟨h.1.filter _, cellsOf_pairwise a bs, fun p hp q hq => ?_⟩, h.1.filter _, fun p hp q hq => ?_⟩
    · have h1 := (List.mem_filter.mp hp).2
      have h2 := cellsOf_range hq
      simp only [decide_eq_true_eq] at h1
      omega
    · have h2 := (List.mem_filter.mp hq).2
      simp only [decide_eq_true_eq] at h2
      rcases List.mem_append.mp hp with hp | hp
      · have h1 := (List.mem_filter.mp hp).2
        simp only [decide_eq_true_eq] at h1
        omega
      · have h1 := cellsOf_range hp
        omega
  · rcases List.mem_append.mp hc with hc | hc
    · rcases List.mem_append.mp hc with hc | hc
      · exact h.2 c (List.mem_filter.mp hc).1
      · exact (cellsOf_range hc).2.2
    · exact h.2 c (List.mem_filter.mp hc).1

/-- Clearing keeps the form. -/
theorem wf_clear {m : Memory} (a n : Nat) (h : wf m = true) : wf (clear m a n) = true := wf_filter _ h

/-- What a byte reads as after a write. -/
theorem read_write (m : Memory) (a j : Nat) (b : Byte) : (m.write a b).read j = if j = a then b else m.read j := by
  unfold write read
  split
  · rename_i hb
    by_cases h : j = a
    · simp [h, NMap.getD, hb]
    · simp [h, NMap.getD, NMap.get_del_ne m h]
  · by_cases h : j = a
    · simp [h]
    · simp [h, NMap.getD_set_ne m b unlisted h]

@[simp] theorem read_write_self (m : Memory) (a : Nat) (b : Byte) : (m.write a b).read a = b := by simp [read_write]

theorem read_write_ne (m : Memory) {a j : Nat} (b : Byte) (h : j ≠ a) : (m.write a b).read j = m.read j := by
  simp [read_write, h]

/-- A byte that none of the cells names reads as before. -/
theorem read_writeCells_ne (m : Memory) (cs : List Host.Cell) (j : Nat) (h : ∀ c ∈ cs, c.1 ≠ j) :
    (m.writeCells cs).read j = m.read j := by
  unfold writeCells
  induction cs generalizing m with
  | nil => rfl
  | cons c cs ih =>
    simp only [List.foldl_cons]
    rw [ih _ (fun d hd => h d (List.mem_cons_of_mem _ hd)), read_write_ne _ _ (Ne.symm (h c (by simp)))]

theorem get_append (m n : Memory) (j : Nat) : NMap.get (m ++ n) j = (NMap.get m j).or (NMap.get n j) := by
  induction m with
  | nil => simp [NMap.get]
  | cons c m ih =>
    obtain ⟨k, v⟩ := c
    simp only [List.cons_append, NMap.get, ih]
    split <;> simp

theorem get_filter_keep (m : Memory) (p : Nat → Bool) (j : Nat) (h : p j = true) :
    NMap.get (m.filter (fun c => p c.1)) j = NMap.get m j := by
  induction m with
  | nil => rfl
  | cons c m ih =>
    obtain ⟨k, v⟩ := c
    by_cases hk : p k
    · simp [List.filter, hk, NMap.get, ih]
    · have hjk : j ≠ k := fun e => hk (e ▸ h)
      simp [List.filter, hk, NMap.get, ih, hjk]

theorem get_filter_drop (m : Memory) (p : Nat → Bool) (j : Nat) (h : p j = false) :
    NMap.get (m.filter (fun c => p c.1)) j = none := by
  induction m with
  | nil => rfl
  | cons c m ih =>
    obtain ⟨k, v⟩ := c
    by_cases hk : p k
    · have hjk : j ≠ k := fun e => by rw [e] at h; simp [h] at hk
      simp [List.filter, hk, NMap.get, ih, hjk]
    · simp [List.filter, hk, ih]

/-- The value a run gives a byte. -/
theorem get_cellsOf (a : Nat) (bs : List Byte) (j : Nat) :
    NMap.get (cellsOf a bs) j =
      if a ≤ j ∧ j < a + bs.length ∧ bs[j - a]?.getD unlisted ≠ unlisted then some (bs[j - a]?.getD unlisted) else none := by
  induction bs generalizing a with
  | nil => simp [cellsOf, NMap.get]
  | cons b bs ih =>
    have key : NMap.get (cellsOf (a + 1) bs) j = if a + 1 ≤ j ∧ j < a + 1 + bs.length ∧ (b :: bs)[j - a]?.getD unlisted ≠ unlisted
        then some ((b :: bs)[j - a]?.getD unlisted) else none := by
      rw [ih]
      by_cases h : a + 1 ≤ j
      · have : j - a = (j - (a + 1)) + 1 := by omega
        simp [this]
      · simp [h]
    have ha : a = j → (b :: bs)[j - a]?.getD unlisted = b := fun e => by simp [e]
    simp only [cellsOf, List.length_cons]
    split
    · rename_i hb
      rw [key]
      by_cases h : a = j
      · rw [ha h]; simp [h, hb]
      · congr 1
        exact propext ⟨fun ⟨p, q, r⟩ => ⟨by omega, by omega, r⟩, fun ⟨p, q, r⟩ => ⟨by omega, by omega, r⟩⟩
    · rename_i hb
      simp only [NMap.get, key]
      by_cases h : a = j
      · rw [ha h]; simp [h, hb]
      · have hj : j ≠ a := Ne.symm h
        simp only [hj, if_false]
        congr 1
        exact propext ⟨fun ⟨p, q, r⟩ => ⟨by omega, by omega, r⟩, fun ⟨p, q, r⟩ => ⟨by omega, by omega, r⟩⟩

/-- What a byte reads as after a run is written. -/
theorem read_writeRun (m : Memory) (a : Nat) (bs : List Byte) (j : Nat) :
    (m.writeRun a bs).read j = if a ≤ j ∧ j < a + bs.length then bs[j - a]?.getD unlisted else m.read j := by
  unfold writeRun read NMap.getD
  rw [get_append, get_append, get_cellsOf]
  by_cases h1 : j < a
  · rw [get_filter_keep m (fun k => decide (k < a)) j (by simpa using h1),
      get_filter_drop m (fun k => decide (a + bs.length ≤ k)) j (by simp; omega)]
    have : ¬ a ≤ j := by omega
    simp [this]
  · rw [get_filter_drop m (fun k => decide (k < a)) j (by simpa using h1)]
    by_cases h2 : j < a + bs.length
    · rw [get_filter_drop m (fun k => decide (a + bs.length ≤ k)) j (by simp; omega)]
      have : a ≤ j := by omega
      by_cases h3 : bs[j - a]?.getD unlisted = unlisted
      · simp [this, h2, h3]
      · simp [this, h2, h3]
    · rw [get_filter_keep m (fun k => decide (a + bs.length ≤ k)) j (by simp; omega)]
      simp [h2]

/-- A byte outside a run reads as before. -/
theorem read_writeRun_ne (m : Memory) (a : Nat) (bs : List Byte) (j : Nat) (h : j < a ∨ a + bs.length ≤ j) :
    (m.writeRun a bs).read j = m.read j := by
  rw [read_writeRun, if_neg (by omega)]

/-- A byte in a run reads the run's byte. -/
theorem read_writeRun_mem (m : Memory) (a : Nat) (bs : List Byte) (i : Nat) (h : i < bs.length) :
    (m.writeRun a bs).read (a + i) = bs[i] := by
  rw [read_writeRun, if_pos (by omega)]
  simp [h]

end Sys2Proof.Machine.Memory

namespace Sys2Proof.Machine

/-- Memory has its canonical form right after reset. -/
theorem reset_mem_wf : Memory.wf State.reset.mem = true := rfl

end Sys2Proof.Machine
end

