-- ==== Sys2Proof/Laws/State.lean ====
section
/-! SUPPORT. What each update of State and of Task leaves as it was, field by field, and what the parts read as after an update. -/
namespace Sys2Proof.Machine

/-! Fields of State. -/

@[simp] theorem State.setCore_turns (s : State) (c : Nat) (x : Core) : (s.setCore c x).turns = s.turns := rfl
@[simp] theorem State.setCore_cur (s : State) (c : Nat) (x : Core) : (s.setCore c x).cur = s.cur := rfl
@[simp] theorem State.setCore_side (s : State) (c : Nat) (x : Core) : (s.setCore c x).side = s.side := rfl
@[simp] theorem State.setCore_free (s : State) (c : Nat) (x : Core) : (s.setCore c x).free = s.free := rfl
@[simp] theorem State.setCore_fresh (s : State) (c : Nat) (x : Core) : (s.setCore c x).fresh = s.fresh := rfl
@[simp] theorem State.setCore_cyc (s : State) (c : Nat) (x : Core) : (s.setCore c x).cyc = s.cyc := rfl
@[simp] theorem State.setCore_mem (s : State) (c : Nat) (x : Core) : (s.setCore c x).mem = s.mem := rfl
@[simp] theorem State.setCore_scrubbed (s : State) (c : Nat) (x : Core) : (s.setCore c x).scrubbed = s.scrubbed := rfl
@[simp] theorem State.setCore_quads (s : State) (c : Nat) (x : Core) : (s.setCore c x).quads = s.quads := rfl
@[simp] theorem State.setCore_dies (s : State) (c : Nat) (x : Core) : (s.setCore c x).dies = s.dies := rfl
@[simp] theorem State.setCore_hmask (s : State) (c : Nat) (x : Core) : (s.setCore c x).hmask = s.hmask := rfl
@[simp] theorem State.setCore_nstr (s : State) (c : Nat) (x : Core) : (s.setCore c x).nstr = s.nstr := rfl
@[simp] theorem State.setCore_contexts (s : State) (c : Nat) (x : Core) : (s.setCore c x).contexts = s.contexts := rfl
@[simp] theorem State.setCore_kernels (s : State) (c : Nat) (x : Core) : (s.setCore c x).kernels = s.kernels := rfl
@[simp] theorem State.setCore_partitions (s : State) (c : Nat) (x : Core) : (s.setCore c x).partitions = s.partitions := rfl
@[simp] theorem State.setCore_records (s : State) (c : Nat) (x : Core) : (s.setCore c x).records = s.records := rfl
@[simp] theorem State.setCore_members (s : State) (c : Nat) (x : Core) : (s.setCore c x).members = s.members := rfl
@[simp] theorem State.setCore_groups (s : State) (c : Nat) (x : Core) : (s.setCore c x).groups = s.groups := rfl
@[simp] theorem State.setCore_timers (s : State) (c : Nat) (x : Core) : (s.setCore c x).timers = s.timers := rfl
@[simp] theorem State.setCore_collectives (s : State) (c : Nat) (x : Core) : (s.setCore c x).collectives = s.collectives := rfl
@[simp] theorem State.setCore_shares (s : State) (c : Nat) (x : Core) : (s.setCore c x).shares = s.shares := rfl
@[simp] theorem State.setCore_queues (s : State) (c : Nat) (x : Core) : (s.setCore c x).queues = s.queues := rfl
@[simp] theorem State.setCore_graphs (s : State) (c : Nat) (x : Core) : (s.setCore c x).graphs = s.graphs := rfl
@[simp] theorem State.setCore_wakeRegs (s : State) (c : Nat) (x : Core) : (s.setCore c x).wakeRegs = s.wakeRegs := rfl
@[simp] theorem State.setCore_outbox (s : State) (c : Nat) (x : Core) : (s.setCore c x).outbox = s.outbox := rfl
@[simp] theorem State.setCore_notices (s : State) (c : Nat) (x : Core) : (s.setCore c x).notices = s.notices := rfl
@[simp] theorem State.setCore_checkpoints (s : State) (c : Nat) (x : Core) : (s.setCore c x).checkpoints = s.checkpoints := rfl
@[simp] theorem State.setCore_images (s : State) (c : Nat) (x : Core) : (s.setCore c x).images = s.images := rfl
@[simp] theorem State.setCore_device (s : State) (c : Nat) (x : Core) : (s.setCore c x).device = s.device := rfl

@[simp] theorem State.setTask_turns (s : State) (c : Nat) (t : Task) : (s.setTask c t).turns = s.turns := rfl
@[simp] theorem State.setTask_cur (s : State) (c : Nat) (t : Task) : (s.setTask c t).cur = s.cur := rfl
@[simp] theorem State.setTask_side (s : State) (c : Nat) (t : Task) : (s.setTask c t).side = s.side := rfl
@[simp] theorem State.setTask_free (s : State) (c : Nat) (t : Task) : (s.setTask c t).free = s.free := rfl
@[simp] theorem State.setTask_fresh (s : State) (c : Nat) (t : Task) : (s.setTask c t).fresh = s.fresh := rfl
@[simp] theorem State.setTask_cyc (s : State) (c : Nat) (t : Task) : (s.setTask c t).cyc = s.cyc := rfl
@[simp] theorem State.setTask_mem (s : State) (c : Nat) (t : Task) : (s.setTask c t).mem = s.mem := rfl
@[simp] theorem State.setTask_scrubbed (s : State) (c : Nat) (t : Task) : (s.setTask c t).scrubbed = s.scrubbed := rfl
@[simp] theorem State.setTask_quads (s : State) (c : Nat) (t : Task) : (s.setTask c t).quads = s.quads := rfl
@[simp] theorem State.setTask_dies (s : State) (c : Nat) (t : Task) : (s.setTask c t).dies = s.dies := rfl
@[simp] theorem State.setTask_hmask (s : State) (c : Nat) (t : Task) : (s.setTask c t).hmask = s.hmask := rfl
@[simp] theorem State.setTask_nstr (s : State) (c : Nat) (t : Task) : (s.setTask c t).nstr = s.nstr := rfl
@[simp] theorem State.setTask_contexts (s : State) (c : Nat) (t : Task) : (s.setTask c t).contexts = s.contexts := rfl
@[simp] theorem State.setTask_kernels (s : State) (c : Nat) (t : Task) : (s.setTask c t).kernels = s.kernels := rfl
@[simp] theorem State.setTask_partitions (s : State) (c : Nat) (t : Task) : (s.setTask c t).partitions = s.partitions := rfl
@[simp] theorem State.setTask_records (s : State) (c : Nat) (t : Task) : (s.setTask c t).records = s.records := rfl
@[simp] theorem State.setTask_members (s : State) (c : Nat) (t : Task) : (s.setTask c t).members = s.members := rfl
@[simp] theorem State.setTask_groups (s : State) (c : Nat) (t : Task) : (s.setTask c t).groups = s.groups := rfl
@[simp] theorem State.setTask_timers (s : State) (c : Nat) (t : Task) : (s.setTask c t).timers = s.timers := rfl
@[simp] theorem State.setTask_collectives (s : State) (c : Nat) (t : Task) : (s.setTask c t).collectives = s.collectives := rfl
@[simp] theorem State.setTask_shares (s : State) (c : Nat) (t : Task) : (s.setTask c t).shares = s.shares := rfl
@[simp] theorem State.setTask_queues (s : State) (c : Nat) (t : Task) : (s.setTask c t).queues = s.queues := rfl
@[simp] theorem State.setTask_graphs (s : State) (c : Nat) (t : Task) : (s.setTask c t).graphs = s.graphs := rfl
@[simp] theorem State.setTask_wakeRegs (s : State) (c : Nat) (t : Task) : (s.setTask c t).wakeRegs = s.wakeRegs := rfl
@[simp] theorem State.setTask_outbox (s : State) (c : Nat) (t : Task) : (s.setTask c t).outbox = s.outbox := rfl
@[simp] theorem State.setTask_notices (s : State) (c : Nat) (t : Task) : (s.setTask c t).notices = s.notices := rfl
@[simp] theorem State.setTask_checkpoints (s : State) (c : Nat) (t : Task) : (s.setTask c t).checkpoints = s.checkpoints := rfl
@[simp] theorem State.setTask_images (s : State) (c : Nat) (t : Task) : (s.setTask c t).images = s.images := rfl
@[simp] theorem State.setTask_device (s : State) (c : Nat) (t : Task) : (s.setTask c t).device = s.device := rfl

@[simp] theorem State.modTask_turns (s : State) (c : Nat) (f : Task → Task) : (s.modTask c f).turns = s.turns := rfl
@[simp] theorem State.modTask_cur (s : State) (c : Nat) (f : Task → Task) : (s.modTask c f).cur = s.cur := rfl
@[simp] theorem State.modTask_side (s : State) (c : Nat) (f : Task → Task) : (s.modTask c f).side = s.side := rfl
@[simp] theorem State.modTask_free (s : State) (c : Nat) (f : Task → Task) : (s.modTask c f).free = s.free := rfl
@[simp] theorem State.modTask_fresh (s : State) (c : Nat) (f : Task → Task) : (s.modTask c f).fresh = s.fresh := rfl
@[simp] theorem State.modTask_cyc (s : State) (c : Nat) (f : Task → Task) : (s.modTask c f).cyc = s.cyc := rfl
@[simp] theorem State.modTask_mem (s : State) (c : Nat) (f : Task → Task) : (s.modTask c f).mem = s.mem := rfl
@[simp] theorem State.modTask_scrubbed (s : State) (c : Nat) (f : Task → Task) : (s.modTask c f).scrubbed = s.scrubbed := rfl
@[simp] theorem State.modTask_quads (s : State) (c : Nat) (f : Task → Task) : (s.modTask c f).quads = s.quads := rfl
@[simp] theorem State.modTask_dies (s : State) (c : Nat) (f : Task → Task) : (s.modTask c f).dies = s.dies := rfl
@[simp] theorem State.modTask_hmask (s : State) (c : Nat) (f : Task → Task) : (s.modTask c f).hmask = s.hmask := rfl
@[simp] theorem State.modTask_nstr (s : State) (c : Nat) (f : Task → Task) : (s.modTask c f).nstr = s.nstr := rfl
@[simp] theorem State.modTask_contexts (s : State) (c : Nat) (f : Task → Task) : (s.modTask c f).contexts = s.contexts := rfl
@[simp] theorem State.modTask_kernels (s : State) (c : Nat) (f : Task → Task) : (s.modTask c f).kernels = s.kernels := rfl
@[simp] theorem State.modTask_partitions (s : State) (c : Nat) (f : Task → Task) : (s.modTask c f).partitions = s.partitions := rfl
@[simp] theorem State.modTask_records (s : State) (c : Nat) (f : Task → Task) : (s.modTask c f).records = s.records := rfl
@[simp] theorem State.modTask_members (s : State) (c : Nat) (f : Task → Task) : (s.modTask c f).members = s.members := rfl
@[simp] theorem State.modTask_groups (s : State) (c : Nat) (f : Task → Task) : (s.modTask c f).groups = s.groups := rfl
@[simp] theorem State.modTask_timers (s : State) (c : Nat) (f : Task → Task) : (s.modTask c f).timers = s.timers := rfl
@[simp] theorem State.modTask_collectives (s : State) (c : Nat) (f : Task → Task) : (s.modTask c f).collectives = s.collectives := rfl
@[simp] theorem State.modTask_shares (s : State) (c : Nat) (f : Task → Task) : (s.modTask c f).shares = s.shares := rfl
@[simp] theorem State.modTask_queues (s : State) (c : Nat) (f : Task → Task) : (s.modTask c f).queues = s.queues := rfl
@[simp] theorem State.modTask_graphs (s : State) (c : Nat) (f : Task → Task) : (s.modTask c f).graphs = s.graphs := rfl
@[simp] theorem State.modTask_wakeRegs (s : State) (c : Nat) (f : Task → Task) : (s.modTask c f).wakeRegs = s.wakeRegs := rfl
@[simp] theorem State.modTask_outbox (s : State) (c : Nat) (f : Task → Task) : (s.modTask c f).outbox = s.outbox := rfl
@[simp] theorem State.modTask_notices (s : State) (c : Nat) (f : Task → Task) : (s.modTask c f).notices = s.notices := rfl
@[simp] theorem State.modTask_checkpoints (s : State) (c : Nat) (f : Task → Task) : (s.modTask c f).checkpoints = s.checkpoints := rfl
@[simp] theorem State.modTask_images (s : State) (c : Nat) (f : Task → Task) : (s.modTask c f).images = s.images := rfl
@[simp] theorem State.modTask_device (s : State) (c : Nat) (f : Task → Task) : (s.modTask c f).device = s.device := rfl

@[simp] theorem State.setSeq_turns (s : State) (c : Nat) (d : Side) (q : Seq) : (s.setSeq c d q).turns = s.turns := rfl
@[simp] theorem State.setSeq_cur (s : State) (c : Nat) (d : Side) (q : Seq) : (s.setSeq c d q).cur = s.cur := rfl
@[simp] theorem State.setSeq_side (s : State) (c : Nat) (d : Side) (q : Seq) : (s.setSeq c d q).side = s.side := rfl
@[simp] theorem State.setSeq_free (s : State) (c : Nat) (d : Side) (q : Seq) : (s.setSeq c d q).free = s.free := rfl
@[simp] theorem State.setSeq_fresh (s : State) (c : Nat) (d : Side) (q : Seq) : (s.setSeq c d q).fresh = s.fresh := rfl
@[simp] theorem State.setSeq_cyc (s : State) (c : Nat) (d : Side) (q : Seq) : (s.setSeq c d q).cyc = s.cyc := rfl
@[simp] theorem State.setSeq_mem (s : State) (c : Nat) (d : Side) (q : Seq) : (s.setSeq c d q).mem = s.mem := rfl
@[simp] theorem State.setSeq_scrubbed (s : State) (c : Nat) (d : Side) (q : Seq) : (s.setSeq c d q).scrubbed = s.scrubbed := rfl
@[simp] theorem State.setSeq_quads (s : State) (c : Nat) (d : Side) (q : Seq) : (s.setSeq c d q).quads = s.quads := rfl
@[simp] theorem State.setSeq_dies (s : State) (c : Nat) (d : Side) (q : Seq) : (s.setSeq c d q).dies = s.dies := rfl
@[simp] theorem State.setSeq_hmask (s : State) (c : Nat) (d : Side) (q : Seq) : (s.setSeq c d q).hmask = s.hmask := rfl
@[simp] theorem State.setSeq_nstr (s : State) (c : Nat) (d : Side) (q : Seq) : (s.setSeq c d q).nstr = s.nstr := rfl
@[simp] theorem State.setSeq_contexts (s : State) (c : Nat) (d : Side) (q : Seq) : (s.setSeq c d q).contexts = s.contexts := rfl
@[simp] theorem State.setSeq_kernels (s : State) (c : Nat) (d : Side) (q : Seq) : (s.setSeq c d q).kernels = s.kernels := rfl
@[simp] theorem State.setSeq_partitions (s : State) (c : Nat) (d : Side) (q : Seq) : (s.setSeq c d q).partitions = s.partitions := rfl
@[simp] theorem State.setSeq_records (s : State) (c : Nat) (d : Side) (q : Seq) : (s.setSeq c d q).records = s.records := rfl
@[simp] theorem State.setSeq_members (s : State) (c : Nat) (d : Side) (q : Seq) : (s.setSeq c d q).members = s.members := rfl
@[simp] theorem State.setSeq_groups (s : State) (c : Nat) (d : Side) (q : Seq) : (s.setSeq c d q).groups = s.groups := rfl
@[simp] theorem State.setSeq_timers (s : State) (c : Nat) (d : Side) (q : Seq) : (s.setSeq c d q).timers = s.timers := rfl
@[simp] theorem State.setSeq_collectives (s : State) (c : Nat) (d : Side) (q : Seq) : (s.setSeq c d q).collectives = s.collectives := rfl
@[simp] theorem State.setSeq_shares (s : State) (c : Nat) (d : Side) (q : Seq) : (s.setSeq c d q).shares = s.shares := rfl
@[simp] theorem State.setSeq_queues (s : State) (c : Nat) (d : Side) (q : Seq) : (s.setSeq c d q).queues = s.queues := rfl
@[simp] theorem State.setSeq_graphs (s : State) (c : Nat) (d : Side) (q : Seq) : (s.setSeq c d q).graphs = s.graphs := rfl
@[simp] theorem State.setSeq_wakeRegs (s : State) (c : Nat) (d : Side) (q : Seq) : (s.setSeq c d q).wakeRegs = s.wakeRegs := rfl
@[simp] theorem State.setSeq_outbox (s : State) (c : Nat) (d : Side) (q : Seq) : (s.setSeq c d q).outbox = s.outbox := rfl
@[simp] theorem State.setSeq_notices (s : State) (c : Nat) (d : Side) (q : Seq) : (s.setSeq c d q).notices = s.notices := rfl
@[simp] theorem State.setSeq_checkpoints (s : State) (c : Nat) (d : Side) (q : Seq) : (s.setSeq c d q).checkpoints = s.checkpoints := rfl
@[simp] theorem State.setSeq_images (s : State) (c : Nat) (d : Side) (q : Seq) : (s.setSeq c d q).images = s.images := rfl
@[simp] theorem State.setSeq_device (s : State) (c : Nat) (d : Side) (q : Seq) : (s.setSeq c d q).device = s.device := rfl

@[simp] theorem State.noteMiss_turns (s : State) (c : Nat) : (s.noteMiss c).turns = s.turns := rfl
@[simp] theorem State.noteMiss_cur (s : State) (c : Nat) : (s.noteMiss c).cur = s.cur := rfl
@[simp] theorem State.noteMiss_side (s : State) (c : Nat) : (s.noteMiss c).side = s.side := rfl
@[simp] theorem State.noteMiss_free (s : State) (c : Nat) : (s.noteMiss c).free = s.free := rfl
@[simp] theorem State.noteMiss_fresh (s : State) (c : Nat) : (s.noteMiss c).fresh = s.fresh := rfl
@[simp] theorem State.noteMiss_cyc (s : State) (c : Nat) : (s.noteMiss c).cyc = s.cyc := rfl
@[simp] theorem State.noteMiss_mem (s : State) (c : Nat) : (s.noteMiss c).mem = s.mem := rfl
@[simp] theorem State.noteMiss_scrubbed (s : State) (c : Nat) : (s.noteMiss c).scrubbed = s.scrubbed := rfl
@[simp] theorem State.noteMiss_quads (s : State) (c : Nat) : (s.noteMiss c).quads = s.quads := rfl
@[simp] theorem State.noteMiss_dies (s : State) (c : Nat) : (s.noteMiss c).dies = s.dies := rfl
@[simp] theorem State.noteMiss_hmask (s : State) (c : Nat) : (s.noteMiss c).hmask = s.hmask := rfl
@[simp] theorem State.noteMiss_nstr (s : State) (c : Nat) : (s.noteMiss c).nstr = s.nstr := rfl
@[simp] theorem State.noteMiss_contexts (s : State) (c : Nat) : (s.noteMiss c).contexts = s.contexts := rfl
@[simp] theorem State.noteMiss_kernels (s : State) (c : Nat) : (s.noteMiss c).kernels = s.kernels := rfl
@[simp] theorem State.noteMiss_partitions (s : State) (c : Nat) : (s.noteMiss c).partitions = s.partitions := rfl
@[simp] theorem State.noteMiss_records (s : State) (c : Nat) : (s.noteMiss c).records = s.records := rfl
@[simp] theorem State.noteMiss_members (s : State) (c : Nat) : (s.noteMiss c).members = s.members := rfl
@[simp] theorem State.noteMiss_groups (s : State) (c : Nat) : (s.noteMiss c).groups = s.groups := rfl
@[simp] theorem State.noteMiss_timers (s : State) (c : Nat) : (s.noteMiss c).timers = s.timers := rfl
@[simp] theorem State.noteMiss_collectives (s : State) (c : Nat) : (s.noteMiss c).collectives = s.collectives := rfl
@[simp] theorem State.noteMiss_shares (s : State) (c : Nat) : (s.noteMiss c).shares = s.shares := rfl
@[simp] theorem State.noteMiss_queues (s : State) (c : Nat) : (s.noteMiss c).queues = s.queues := rfl
@[simp] theorem State.noteMiss_graphs (s : State) (c : Nat) : (s.noteMiss c).graphs = s.graphs := rfl
@[simp] theorem State.noteMiss_wakeRegs (s : State) (c : Nat) : (s.noteMiss c).wakeRegs = s.wakeRegs := rfl
@[simp] theorem State.noteMiss_outbox (s : State) (c : Nat) : (s.noteMiss c).outbox = s.outbox := rfl
@[simp] theorem State.noteMiss_notices (s : State) (c : Nat) : (s.noteMiss c).notices = s.notices := rfl
@[simp] theorem State.noteMiss_checkpoints (s : State) (c : Nat) : (s.noteMiss c).checkpoints = s.checkpoints := rfl
@[simp] theorem State.noteMiss_images (s : State) (c : Nat) : (s.noteMiss c).images = s.images := rfl
@[simp] theorem State.noteMiss_device (s : State) (c : Nat) : (s.noteMiss c).device = s.device := rfl

@[simp] theorem State.setMember_turns (s : State) (n : Nat) (m : Member) : (s.setMember n m).turns = s.turns := rfl
@[simp] theorem State.setMember_cur (s : State) (n : Nat) (m : Member) : (s.setMember n m).cur = s.cur := rfl
@[simp] theorem State.setMember_side (s : State) (n : Nat) (m : Member) : (s.setMember n m).side = s.side := rfl
@[simp] theorem State.setMember_free (s : State) (n : Nat) (m : Member) : (s.setMember n m).free = s.free := rfl
@[simp] theorem State.setMember_fresh (s : State) (n : Nat) (m : Member) : (s.setMember n m).fresh = s.fresh := rfl
@[simp] theorem State.setMember_cyc (s : State) (n : Nat) (m : Member) : (s.setMember n m).cyc = s.cyc := rfl
@[simp] theorem State.setMember_mem (s : State) (n : Nat) (m : Member) : (s.setMember n m).mem = s.mem := rfl
@[simp] theorem State.setMember_scrubbed (s : State) (n : Nat) (m : Member) : (s.setMember n m).scrubbed = s.scrubbed := rfl
@[simp] theorem State.setMember_cores (s : State) (n : Nat) (m : Member) : (s.setMember n m).cores = s.cores := rfl
@[simp] theorem State.setMember_quads (s : State) (n : Nat) (m : Member) : (s.setMember n m).quads = s.quads := rfl
@[simp] theorem State.setMember_dies (s : State) (n : Nat) (m : Member) : (s.setMember n m).dies = s.dies := rfl
@[simp] theorem State.setMember_hmask (s : State) (n : Nat) (m : Member) : (s.setMember n m).hmask = s.hmask := rfl
@[simp] theorem State.setMember_nstr (s : State) (n : Nat) (m : Member) : (s.setMember n m).nstr = s.nstr := rfl
@[simp] theorem State.setMember_contexts (s : State) (n : Nat) (m : Member) : (s.setMember n m).contexts = s.contexts := rfl
@[simp] theorem State.setMember_kernels (s : State) (n : Nat) (m : Member) : (s.setMember n m).kernels = s.kernels := rfl
@[simp] theorem State.setMember_partitions (s : State) (n : Nat) (m : Member) : (s.setMember n m).partitions = s.partitions := rfl
@[simp] theorem State.setMember_records (s : State) (n : Nat) (m : Member) : (s.setMember n m).records = s.records := rfl
@[simp] theorem State.setMember_groups (s : State) (n : Nat) (m : Member) : (s.setMember n m).groups = s.groups := rfl
@[simp] theorem State.setMember_timers (s : State) (n : Nat) (m : Member) : (s.setMember n m).timers = s.timers := rfl
@[simp] theorem State.setMember_collectives (s : State) (n : Nat) (m : Member) : (s.setMember n m).collectives = s.collectives := rfl
@[simp] theorem State.setMember_shares (s : State) (n : Nat) (m : Member) : (s.setMember n m).shares = s.shares := rfl
@[simp] theorem State.setMember_queues (s : State) (n : Nat) (m : Member) : (s.setMember n m).queues = s.queues := rfl
@[simp] theorem State.setMember_graphs (s : State) (n : Nat) (m : Member) : (s.setMember n m).graphs = s.graphs := rfl
@[simp] theorem State.setMember_wakeRegs (s : State) (n : Nat) (m : Member) : (s.setMember n m).wakeRegs = s.wakeRegs := rfl
@[simp] theorem State.setMember_outbox (s : State) (n : Nat) (m : Member) : (s.setMember n m).outbox = s.outbox := rfl
@[simp] theorem State.setMember_notices (s : State) (n : Nat) (m : Member) : (s.setMember n m).notices = s.notices := rfl
@[simp] theorem State.setMember_checkpoints (s : State) (n : Nat) (m : Member) : (s.setMember n m).checkpoints = s.checkpoints := rfl
@[simp] theorem State.setMember_images (s : State) (n : Nat) (m : Member) : (s.setMember n m).images = s.images := rfl
@[simp] theorem State.setMember_device (s : State) (n : Nat) (m : Member) : (s.setMember n m).device = s.device := rfl

@[simp] theorem State.send_turns (s : State) (m : Msg) : (s.send m).turns = s.turns := rfl
@[simp] theorem State.send_cur (s : State) (m : Msg) : (s.send m).cur = s.cur := rfl
@[simp] theorem State.send_side (s : State) (m : Msg) : (s.send m).side = s.side := rfl
@[simp] theorem State.send_free (s : State) (m : Msg) : (s.send m).free = s.free := rfl
@[simp] theorem State.send_fresh (s : State) (m : Msg) : (s.send m).fresh = s.fresh := rfl
@[simp] theorem State.send_cyc (s : State) (m : Msg) : (s.send m).cyc = s.cyc := rfl
@[simp] theorem State.send_mem (s : State) (m : Msg) : (s.send m).mem = s.mem := rfl
@[simp] theorem State.send_scrubbed (s : State) (m : Msg) : (s.send m).scrubbed = s.scrubbed := rfl
@[simp] theorem State.send_cores (s : State) (m : Msg) : (s.send m).cores = s.cores := rfl
@[simp] theorem State.send_quads (s : State) (m : Msg) : (s.send m).quads = s.quads := rfl
@[simp] theorem State.send_dies (s : State) (m : Msg) : (s.send m).dies = s.dies := rfl
@[simp] theorem State.send_hmask (s : State) (m : Msg) : (s.send m).hmask = s.hmask := rfl
@[simp] theorem State.send_nstr (s : State) (m : Msg) : (s.send m).nstr = s.nstr := rfl
@[simp] theorem State.send_contexts (s : State) (m : Msg) : (s.send m).contexts = s.contexts := rfl
@[simp] theorem State.send_kernels (s : State) (m : Msg) : (s.send m).kernels = s.kernels := rfl
@[simp] theorem State.send_partitions (s : State) (m : Msg) : (s.send m).partitions = s.partitions := rfl
@[simp] theorem State.send_records (s : State) (m : Msg) : (s.send m).records = s.records := rfl
@[simp] theorem State.send_members (s : State) (m : Msg) : (s.send m).members = s.members := rfl
@[simp] theorem State.send_groups (s : State) (m : Msg) : (s.send m).groups = s.groups := rfl
@[simp] theorem State.send_timers (s : State) (m : Msg) : (s.send m).timers = s.timers := rfl
@[simp] theorem State.send_collectives (s : State) (m : Msg) : (s.send m).collectives = s.collectives := rfl
@[simp] theorem State.send_shares (s : State) (m : Msg) : (s.send m).shares = s.shares := rfl
@[simp] theorem State.send_queues (s : State) (m : Msg) : (s.send m).queues = s.queues := rfl
@[simp] theorem State.send_graphs (s : State) (m : Msg) : (s.send m).graphs = s.graphs := rfl
@[simp] theorem State.send_wakeRegs (s : State) (m : Msg) : (s.send m).wakeRegs = s.wakeRegs := rfl
@[simp] theorem State.send_notices (s : State) (m : Msg) : (s.send m).notices = s.notices := rfl
@[simp] theorem State.send_checkpoints (s : State) (m : Msg) : (s.send m).checkpoints = s.checkpoints := rfl
@[simp] theorem State.send_images (s : State) (m : Msg) : (s.send m).images = s.images := rfl
@[simp] theorem State.send_device (s : State) (m : Msg) : (s.send m).device = s.device := rfl

@[simp] theorem State.notify_turns (s : State) (n : Notice) : (s.notify n).turns = s.turns := rfl
@[simp] theorem State.notify_cur (s : State) (n : Notice) : (s.notify n).cur = s.cur := rfl
@[simp] theorem State.notify_side (s : State) (n : Notice) : (s.notify n).side = s.side := rfl
@[simp] theorem State.notify_free (s : State) (n : Notice) : (s.notify n).free = s.free := rfl
@[simp] theorem State.notify_fresh (s : State) (n : Notice) : (s.notify n).fresh = s.fresh := rfl
@[simp] theorem State.notify_cyc (s : State) (n : Notice) : (s.notify n).cyc = s.cyc := rfl
@[simp] theorem State.notify_mem (s : State) (n : Notice) : (s.notify n).mem = s.mem := rfl
@[simp] theorem State.notify_scrubbed (s : State) (n : Notice) : (s.notify n).scrubbed = s.scrubbed := rfl
@[simp] theorem State.notify_cores (s : State) (n : Notice) : (s.notify n).cores = s.cores := rfl
@[simp] theorem State.notify_quads (s : State) (n : Notice) : (s.notify n).quads = s.quads := rfl
@[simp] theorem State.notify_dies (s : State) (n : Notice) : (s.notify n).dies = s.dies := rfl
@[simp] theorem State.notify_hmask (s : State) (n : Notice) : (s.notify n).hmask = s.hmask := rfl
@[simp] theorem State.notify_nstr (s : State) (n : Notice) : (s.notify n).nstr = s.nstr := rfl
@[simp] theorem State.notify_contexts (s : State) (n : Notice) : (s.notify n).contexts = s.contexts := rfl
@[simp] theorem State.notify_kernels (s : State) (n : Notice) : (s.notify n).kernels = s.kernels := rfl
@[simp] theorem State.notify_partitions (s : State) (n : Notice) : (s.notify n).partitions = s.partitions := rfl
@[simp] theorem State.notify_records (s : State) (n : Notice) : (s.notify n).records = s.records := rfl
@[simp] theorem State.notify_members (s : State) (n : Notice) : (s.notify n).members = s.members := rfl
@[simp] theorem State.notify_groups (s : State) (n : Notice) : (s.notify n).groups = s.groups := rfl
@[simp] theorem State.notify_timers (s : State) (n : Notice) : (s.notify n).timers = s.timers := rfl
@[simp] theorem State.notify_collectives (s : State) (n : Notice) : (s.notify n).collectives = s.collectives := rfl
@[simp] theorem State.notify_shares (s : State) (n : Notice) : (s.notify n).shares = s.shares := rfl
@[simp] theorem State.notify_queues (s : State) (n : Notice) : (s.notify n).queues = s.queues := rfl
@[simp] theorem State.notify_graphs (s : State) (n : Notice) : (s.notify n).graphs = s.graphs := rfl
@[simp] theorem State.notify_wakeRegs (s : State) (n : Notice) : (s.notify n).wakeRegs = s.wakeRegs := rfl
@[simp] theorem State.notify_outbox (s : State) (n : Notice) : (s.notify n).outbox = s.outbox := rfl
@[simp] theorem State.notify_checkpoints (s : State) (n : Notice) : (s.notify n).checkpoints = s.checkpoints := rfl
@[simp] theorem State.notify_images (s : State) (n : Notice) : (s.notify n).images = s.images := rfl
@[simp] theorem State.notify_device (s : State) (n : Notice) : (s.notify n).device = s.device := rfl

@[simp] theorem State.modKernel_turns (s : State) (n : Nat) (f : Kernel → Kernel) : (s.modKernel n f).turns = s.turns := by unfold State.modKernel; split <;> rfl
@[simp] theorem State.modKernel_cur (s : State) (n : Nat) (f : Kernel → Kernel) : (s.modKernel n f).cur = s.cur := by unfold State.modKernel; split <;> rfl
@[simp] theorem State.modKernel_side (s : State) (n : Nat) (f : Kernel → Kernel) : (s.modKernel n f).side = s.side := by unfold State.modKernel; split <;> rfl
@[simp] theorem State.modKernel_free (s : State) (n : Nat) (f : Kernel → Kernel) : (s.modKernel n f).free = s.free := by unfold State.modKernel; split <;> rfl
@[simp] theorem State.modKernel_fresh (s : State) (n : Nat) (f : Kernel → Kernel) : (s.modKernel n f).fresh = s.fresh := by unfold State.modKernel; split <;> rfl
@[simp] theorem State.modKernel_cyc (s : State) (n : Nat) (f : Kernel → Kernel) : (s.modKernel n f).cyc = s.cyc := by unfold State.modKernel; split <;> rfl
@[simp] theorem State.modKernel_mem (s : State) (n : Nat) (f : Kernel → Kernel) : (s.modKernel n f).mem = s.mem := by unfold State.modKernel; split <;> rfl
@[simp] theorem State.modKernel_scrubbed (s : State) (n : Nat) (f : Kernel → Kernel) : (s.modKernel n f).scrubbed = s.scrubbed := by unfold State.modKernel; split <;> rfl
@[simp] theorem State.modKernel_cores (s : State) (n : Nat) (f : Kernel → Kernel) : (s.modKernel n f).cores = s.cores := by unfold State.modKernel; split <;> rfl
@[simp] theorem State.modKernel_quads (s : State) (n : Nat) (f : Kernel → Kernel) : (s.modKernel n f).quads = s.quads := by unfold State.modKernel; split <;> rfl
@[simp] theorem State.modKernel_dies (s : State) (n : Nat) (f : Kernel → Kernel) : (s.modKernel n f).dies = s.dies := by unfold State.modKernel; split <;> rfl
@[simp] theorem State.modKernel_hmask (s : State) (n : Nat) (f : Kernel → Kernel) : (s.modKernel n f).hmask = s.hmask := by unfold State.modKernel; split <;> rfl
@[simp] theorem State.modKernel_nstr (s : State) (n : Nat) (f : Kernel → Kernel) : (s.modKernel n f).nstr = s.nstr := by unfold State.modKernel; split <;> rfl
@[simp] theorem State.modKernel_contexts (s : State) (n : Nat) (f : Kernel → Kernel) : (s.modKernel n f).contexts = s.contexts := by unfold State.modKernel; split <;> rfl
@[simp] theorem State.modKernel_partitions (s : State) (n : Nat) (f : Kernel → Kernel) : (s.modKernel n f).partitions = s.partitions := by unfold State.modKernel; split <;> rfl
@[simp] theorem State.modKernel_records (s : State) (n : Nat) (f : Kernel → Kernel) : (s.modKernel n f).records = s.records := by unfold State.modKernel; split <;> rfl
@[simp] theorem State.modKernel_members (s : State) (n : Nat) (f : Kernel → Kernel) : (s.modKernel n f).members = s.members := by unfold State.modKernel; split <;> rfl
@[simp] theorem State.modKernel_groups (s : State) (n : Nat) (f : Kernel → Kernel) : (s.modKernel n f).groups = s.groups := by unfold State.modKernel; split <;> rfl
@[simp] theorem State.modKernel_timers (s : State) (n : Nat) (f : Kernel → Kernel) : (s.modKernel n f).timers = s.timers := by unfold State.modKernel; split <;> rfl
@[simp] theorem State.modKernel_collectives (s : State) (n : Nat) (f : Kernel → Kernel) : (s.modKernel n f).collectives = s.collectives := by unfold State.modKernel; split <;> rfl
@[simp] theorem State.modKernel_shares (s : State) (n : Nat) (f : Kernel → Kernel) : (s.modKernel n f).shares = s.shares := by unfold State.modKernel; split <;> rfl
@[simp] theorem State.modKernel_queues (s : State) (n : Nat) (f : Kernel → Kernel) : (s.modKernel n f).queues = s.queues := by unfold State.modKernel; split <;> rfl
@[simp] theorem State.modKernel_graphs (s : State) (n : Nat) (f : Kernel → Kernel) : (s.modKernel n f).graphs = s.graphs := by unfold State.modKernel; split <;> rfl
@[simp] theorem State.modKernel_wakeRegs (s : State) (n : Nat) (f : Kernel → Kernel) : (s.modKernel n f).wakeRegs = s.wakeRegs := by unfold State.modKernel; split <;> rfl
@[simp] theorem State.modKernel_outbox (s : State) (n : Nat) (f : Kernel → Kernel) : (s.modKernel n f).outbox = s.outbox := by unfold State.modKernel; split <;> rfl
@[simp] theorem State.modKernel_notices (s : State) (n : Nat) (f : Kernel → Kernel) : (s.modKernel n f).notices = s.notices := by unfold State.modKernel; split <;> rfl
@[simp] theorem State.modKernel_checkpoints (s : State) (n : Nat) (f : Kernel → Kernel) : (s.modKernel n f).checkpoints = s.checkpoints := by unfold State.modKernel; split <;> rfl
@[simp] theorem State.modKernel_images (s : State) (n : Nat) (f : Kernel → Kernel) : (s.modKernel n f).images = s.images := by unfold State.modKernel; split <;> rfl
@[simp] theorem State.modKernel_device (s : State) (n : Nat) (f : Kernel → Kernel) : (s.modKernel n f).device = s.device := by unfold State.modKernel; split <;> rfl

@[simp] theorem State.modContext_turns (s : State) (n : Nat) (f : Context → Context) : (s.modContext n f).turns = s.turns := by unfold State.modContext; split <;> rfl
@[simp] theorem State.modContext_cur (s : State) (n : Nat) (f : Context → Context) : (s.modContext n f).cur = s.cur := by unfold State.modContext; split <;> rfl
@[simp] theorem State.modContext_side (s : State) (n : Nat) (f : Context → Context) : (s.modContext n f).side = s.side := by unfold State.modContext; split <;> rfl
@[simp] theorem State.modContext_free (s : State) (n : Nat) (f : Context → Context) : (s.modContext n f).free = s.free := by unfold State.modContext; split <;> rfl
@[simp] theorem State.modContext_fresh (s : State) (n : Nat) (f : Context → Context) : (s.modContext n f).fresh = s.fresh := by unfold State.modContext; split <;> rfl
@[simp] theorem State.modContext_cyc (s : State) (n : Nat) (f : Context → Context) : (s.modContext n f).cyc = s.cyc := by unfold State.modContext; split <;> rfl
@[simp] theorem State.modContext_mem (s : State) (n : Nat) (f : Context → Context) : (s.modContext n f).mem = s.mem := by unfold State.modContext; split <;> rfl
@[simp] theorem State.modContext_scrubbed (s : State) (n : Nat) (f : Context → Context) : (s.modContext n f).scrubbed = s.scrubbed := by unfold State.modContext; split <;> rfl
@[simp] theorem State.modContext_cores (s : State) (n : Nat) (f : Context → Context) : (s.modContext n f).cores = s.cores := by unfold State.modContext; split <;> rfl
@[simp] theorem State.modContext_quads (s : State) (n : Nat) (f : Context → Context) : (s.modContext n f).quads = s.quads := by unfold State.modContext; split <;> rfl
@[simp] theorem State.modContext_dies (s : State) (n : Nat) (f : Context → Context) : (s.modContext n f).dies = s.dies := by unfold State.modContext; split <;> rfl
@[simp] theorem State.modContext_hmask (s : State) (n : Nat) (f : Context → Context) : (s.modContext n f).hmask = s.hmask := by unfold State.modContext; split <;> rfl
@[simp] theorem State.modContext_nstr (s : State) (n : Nat) (f : Context → Context) : (s.modContext n f).nstr = s.nstr := by unfold State.modContext; split <;> rfl
@[simp] theorem State.modContext_kernels (s : State) (n : Nat) (f : Context → Context) : (s.modContext n f).kernels = s.kernels := by unfold State.modContext; split <;> rfl
@[simp] theorem State.modContext_partitions (s : State) (n : Nat) (f : Context → Context) : (s.modContext n f).partitions = s.partitions := by unfold State.modContext; split <;> rfl
@[simp] theorem State.modContext_records (s : State) (n : Nat) (f : Context → Context) : (s.modContext n f).records = s.records := by unfold State.modContext; split <;> rfl
@[simp] theorem State.modContext_members (s : State) (n : Nat) (f : Context → Context) : (s.modContext n f).members = s.members := by unfold State.modContext; split <;> rfl
@[simp] theorem State.modContext_groups (s : State) (n : Nat) (f : Context → Context) : (s.modContext n f).groups = s.groups := by unfold State.modContext; split <;> rfl
@[simp] theorem State.modContext_timers (s : State) (n : Nat) (f : Context → Context) : (s.modContext n f).timers = s.timers := by unfold State.modContext; split <;> rfl
@[simp] theorem State.modContext_collectives (s : State) (n : Nat) (f : Context → Context) : (s.modContext n f).collectives = s.collectives := by unfold State.modContext; split <;> rfl
@[simp] theorem State.modContext_shares (s : State) (n : Nat) (f : Context → Context) : (s.modContext n f).shares = s.shares := by unfold State.modContext; split <;> rfl
@[simp] theorem State.modContext_queues (s : State) (n : Nat) (f : Context → Context) : (s.modContext n f).queues = s.queues := by unfold State.modContext; split <;> rfl
@[simp] theorem State.modContext_graphs (s : State) (n : Nat) (f : Context → Context) : (s.modContext n f).graphs = s.graphs := by unfold State.modContext; split <;> rfl
@[simp] theorem State.modContext_wakeRegs (s : State) (n : Nat) (f : Context → Context) : (s.modContext n f).wakeRegs = s.wakeRegs := by unfold State.modContext; split <;> rfl
@[simp] theorem State.modContext_outbox (s : State) (n : Nat) (f : Context → Context) : (s.modContext n f).outbox = s.outbox := by unfold State.modContext; split <;> rfl
@[simp] theorem State.modContext_notices (s : State) (n : Nat) (f : Context → Context) : (s.modContext n f).notices = s.notices := by unfold State.modContext; split <;> rfl
@[simp] theorem State.modContext_checkpoints (s : State) (n : Nat) (f : Context → Context) : (s.modContext n f).checkpoints = s.checkpoints := by unfold State.modContext; split <;> rfl
@[simp] theorem State.modContext_images (s : State) (n : Nat) (f : Context → Context) : (s.modContext n f).images = s.images := by unfold State.modContext; split <;> rfl
@[simp] theorem State.modContext_device (s : State) (n : Nat) (f : Context → Context) : (s.modContext n f).device = s.device := by unfold State.modContext; split <;> rfl

@[simp] theorem State.modPartition_turns (s : State) (n : Nat) (f : Partition → Partition) : (s.modPartition n f).turns = s.turns := by unfold State.modPartition; split <;> rfl
@[simp] theorem State.modPartition_cur (s : State) (n : Nat) (f : Partition → Partition) : (s.modPartition n f).cur = s.cur := by unfold State.modPartition; split <;> rfl
@[simp] theorem State.modPartition_side (s : State) (n : Nat) (f : Partition → Partition) : (s.modPartition n f).side = s.side := by unfold State.modPartition; split <;> rfl
@[simp] theorem State.modPartition_free (s : State) (n : Nat) (f : Partition → Partition) : (s.modPartition n f).free = s.free := by unfold State.modPartition; split <;> rfl
@[simp] theorem State.modPartition_fresh (s : State) (n : Nat) (f : Partition → Partition) : (s.modPartition n f).fresh = s.fresh := by unfold State.modPartition; split <;> rfl
@[simp] theorem State.modPartition_cyc (s : State) (n : Nat) (f : Partition → Partition) : (s.modPartition n f).cyc = s.cyc := by unfold State.modPartition; split <;> rfl
@[simp] theorem State.modPartition_mem (s : State) (n : Nat) (f : Partition → Partition) : (s.modPartition n f).mem = s.mem := by unfold State.modPartition; split <;> rfl
@[simp] theorem State.modPartition_scrubbed (s : State) (n : Nat) (f : Partition → Partition) : (s.modPartition n f).scrubbed = s.scrubbed := by unfold State.modPartition; split <;> rfl
@[simp] theorem State.modPartition_cores (s : State) (n : Nat) (f : Partition → Partition) : (s.modPartition n f).cores = s.cores := by unfold State.modPartition; split <;> rfl
@[simp] theorem State.modPartition_quads (s : State) (n : Nat) (f : Partition → Partition) : (s.modPartition n f).quads = s.quads := by unfold State.modPartition; split <;> rfl
@[simp] theorem State.modPartition_dies (s : State) (n : Nat) (f : Partition → Partition) : (s.modPartition n f).dies = s.dies := by unfold State.modPartition; split <;> rfl
@[simp] theorem State.modPartition_hmask (s : State) (n : Nat) (f : Partition → Partition) : (s.modPartition n f).hmask = s.hmask := by unfold State.modPartition; split <;> rfl
@[simp] theorem State.modPartition_nstr (s : State) (n : Nat) (f : Partition → Partition) : (s.modPartition n f).nstr = s.nstr := by unfold State.modPartition; split <;> rfl
@[simp] theorem State.modPartition_contexts (s : State) (n : Nat) (f : Partition → Partition) : (s.modPartition n f).contexts = s.contexts := by unfold State.modPartition; split <;> rfl
@[simp] theorem State.modPartition_kernels (s : State) (n : Nat) (f : Partition → Partition) : (s.modPartition n f).kernels = s.kernels := by unfold State.modPartition; split <;> rfl
@[simp] theorem State.modPartition_records (s : State) (n : Nat) (f : Partition → Partition) : (s.modPartition n f).records = s.records := by unfold State.modPartition; split <;> rfl
@[simp] theorem State.modPartition_members (s : State) (n : Nat) (f : Partition → Partition) : (s.modPartition n f).members = s.members := by unfold State.modPartition; split <;> rfl
@[simp] theorem State.modPartition_groups (s : State) (n : Nat) (f : Partition → Partition) : (s.modPartition n f).groups = s.groups := by unfold State.modPartition; split <;> rfl
@[simp] theorem State.modPartition_timers (s : State) (n : Nat) (f : Partition → Partition) : (s.modPartition n f).timers = s.timers := by unfold State.modPartition; split <;> rfl
@[simp] theorem State.modPartition_collectives (s : State) (n : Nat) (f : Partition → Partition) : (s.modPartition n f).collectives = s.collectives := by unfold State.modPartition; split <;> rfl
@[simp] theorem State.modPartition_shares (s : State) (n : Nat) (f : Partition → Partition) : (s.modPartition n f).shares = s.shares := by unfold State.modPartition; split <;> rfl
@[simp] theorem State.modPartition_queues (s : State) (n : Nat) (f : Partition → Partition) : (s.modPartition n f).queues = s.queues := by unfold State.modPartition; split <;> rfl
@[simp] theorem State.modPartition_graphs (s : State) (n : Nat) (f : Partition → Partition) : (s.modPartition n f).graphs = s.graphs := by unfold State.modPartition; split <;> rfl
@[simp] theorem State.modPartition_wakeRegs (s : State) (n : Nat) (f : Partition → Partition) : (s.modPartition n f).wakeRegs = s.wakeRegs := by unfold State.modPartition; split <;> rfl
@[simp] theorem State.modPartition_outbox (s : State) (n : Nat) (f : Partition → Partition) : (s.modPartition n f).outbox = s.outbox := by unfold State.modPartition; split <;> rfl
@[simp] theorem State.modPartition_notices (s : State) (n : Nat) (f : Partition → Partition) : (s.modPartition n f).notices = s.notices := by unfold State.modPartition; split <;> rfl
@[simp] theorem State.modPartition_checkpoints (s : State) (n : Nat) (f : Partition → Partition) : (s.modPartition n f).checkpoints = s.checkpoints := by unfold State.modPartition; split <;> rfl
@[simp] theorem State.modPartition_images (s : State) (n : Nat) (f : Partition → Partition) : (s.modPartition n f).images = s.images := by unfold State.modPartition; split <;> rfl
@[simp] theorem State.modPartition_device (s : State) (n : Nat) (f : Partition → Partition) : (s.modPartition n f).device = s.device := by unfold State.modPartition; split <;> rfl

@[simp] theorem State.modMember_turns (s : State) (n : Nat) (f : Member → Member) : (s.modMember n f).turns = s.turns := by unfold State.modMember; split <;> rfl
@[simp] theorem State.modMember_cur (s : State) (n : Nat) (f : Member → Member) : (s.modMember n f).cur = s.cur := by unfold State.modMember; split <;> rfl
@[simp] theorem State.modMember_side (s : State) (n : Nat) (f : Member → Member) : (s.modMember n f).side = s.side := by unfold State.modMember; split <;> rfl
@[simp] theorem State.modMember_free (s : State) (n : Nat) (f : Member → Member) : (s.modMember n f).free = s.free := by unfold State.modMember; split <;> rfl
@[simp] theorem State.modMember_fresh (s : State) (n : Nat) (f : Member → Member) : (s.modMember n f).fresh = s.fresh := by unfold State.modMember; split <;> rfl
@[simp] theorem State.modMember_cyc (s : State) (n : Nat) (f : Member → Member) : (s.modMember n f).cyc = s.cyc := by unfold State.modMember; split <;> rfl
@[simp] theorem State.modMember_mem (s : State) (n : Nat) (f : Member → Member) : (s.modMember n f).mem = s.mem := by unfold State.modMember; split <;> rfl
@[simp] theorem State.modMember_scrubbed (s : State) (n : Nat) (f : Member → Member) : (s.modMember n f).scrubbed = s.scrubbed := by unfold State.modMember; split <;> rfl
@[simp] theorem State.modMember_cores (s : State) (n : Nat) (f : Member → Member) : (s.modMember n f).cores = s.cores := by unfold State.modMember; split <;> rfl
@[simp] theorem State.modMember_quads (s : State) (n : Nat) (f : Member → Member) : (s.modMember n f).quads = s.quads := by unfold State.modMember; split <;> rfl
@[simp] theorem State.modMember_dies (s : State) (n : Nat) (f : Member → Member) : (s.modMember n f).dies = s.dies := by unfold State.modMember; split <;> rfl
@[simp] theorem State.modMember_hmask (s : State) (n : Nat) (f : Member → Member) : (s.modMember n f).hmask = s.hmask := by unfold State.modMember; split <;> rfl
@[simp] theorem State.modMember_nstr (s : State) (n : Nat) (f : Member → Member) : (s.modMember n f).nstr = s.nstr := by unfold State.modMember; split <;> rfl
@[simp] theorem State.modMember_contexts (s : State) (n : Nat) (f : Member → Member) : (s.modMember n f).contexts = s.contexts := by unfold State.modMember; split <;> rfl
@[simp] theorem State.modMember_kernels (s : State) (n : Nat) (f : Member → Member) : (s.modMember n f).kernels = s.kernels := by unfold State.modMember; split <;> rfl
@[simp] theorem State.modMember_partitions (s : State) (n : Nat) (f : Member → Member) : (s.modMember n f).partitions = s.partitions := by unfold State.modMember; split <;> rfl
@[simp] theorem State.modMember_records (s : State) (n : Nat) (f : Member → Member) : (s.modMember n f).records = s.records := by unfold State.modMember; split <;> rfl
@[simp] theorem State.modMember_groups (s : State) (n : Nat) (f : Member → Member) : (s.modMember n f).groups = s.groups := by unfold State.modMember; split <;> rfl
@[simp] theorem State.modMember_timers (s : State) (n : Nat) (f : Member → Member) : (s.modMember n f).timers = s.timers := by unfold State.modMember; split <;> rfl
@[simp] theorem State.modMember_collectives (s : State) (n : Nat) (f : Member → Member) : (s.modMember n f).collectives = s.collectives := by unfold State.modMember; split <;> rfl
@[simp] theorem State.modMember_shares (s : State) (n : Nat) (f : Member → Member) : (s.modMember n f).shares = s.shares := by unfold State.modMember; split <;> rfl
@[simp] theorem State.modMember_queues (s : State) (n : Nat) (f : Member → Member) : (s.modMember n f).queues = s.queues := by unfold State.modMember; split <;> rfl
@[simp] theorem State.modMember_graphs (s : State) (n : Nat) (f : Member → Member) : (s.modMember n f).graphs = s.graphs := by unfold State.modMember; split <;> rfl
@[simp] theorem State.modMember_wakeRegs (s : State) (n : Nat) (f : Member → Member) : (s.modMember n f).wakeRegs = s.wakeRegs := by unfold State.modMember; split <;> rfl
@[simp] theorem State.modMember_outbox (s : State) (n : Nat) (f : Member → Member) : (s.modMember n f).outbox = s.outbox := by unfold State.modMember; split <;> rfl
@[simp] theorem State.modMember_notices (s : State) (n : Nat) (f : Member → Member) : (s.modMember n f).notices = s.notices := by unfold State.modMember; split <;> rfl
@[simp] theorem State.modMember_checkpoints (s : State) (n : Nat) (f : Member → Member) : (s.modMember n f).checkpoints = s.checkpoints := by unfold State.modMember; split <;> rfl
@[simp] theorem State.modMember_images (s : State) (n : Nat) (f : Member → Member) : (s.modMember n f).images = s.images := by unfold State.modMember; split <;> rfl
@[simp] theorem State.modMember_device (s : State) (n : Nat) (f : Member → Member) : (s.modMember n f).device = s.device := by unfold State.modMember; split <;> rfl

@[simp] theorem State.setEntry_turns (s : State) (n i : Nat) (e : PetEntry) : (s.setEntry n i e).turns = s.turns := by simp [State.setEntry]
@[simp] theorem State.setEntry_cur (s : State) (n i : Nat) (e : PetEntry) : (s.setEntry n i e).cur = s.cur := by simp [State.setEntry]
@[simp] theorem State.setEntry_side (s : State) (n i : Nat) (e : PetEntry) : (s.setEntry n i e).side = s.side := by simp [State.setEntry]
@[simp] theorem State.setEntry_free (s : State) (n i : Nat) (e : PetEntry) : (s.setEntry n i e).free = s.free := by simp [State.setEntry]
@[simp] theorem State.setEntry_fresh (s : State) (n i : Nat) (e : PetEntry) : (s.setEntry n i e).fresh = s.fresh := by simp [State.setEntry]
@[simp] theorem State.setEntry_cyc (s : State) (n i : Nat) (e : PetEntry) : (s.setEntry n i e).cyc = s.cyc := by simp [State.setEntry]
@[simp] theorem State.setEntry_mem (s : State) (n i : Nat) (e : PetEntry) : (s.setEntry n i e).mem = s.mem := by simp [State.setEntry]
@[simp] theorem State.setEntry_scrubbed (s : State) (n i : Nat) (e : PetEntry) : (s.setEntry n i e).scrubbed = s.scrubbed := by simp [State.setEntry]
@[simp] theorem State.setEntry_cores (s : State) (n i : Nat) (e : PetEntry) : (s.setEntry n i e).cores = s.cores := by simp [State.setEntry]
@[simp] theorem State.setEntry_quads (s : State) (n i : Nat) (e : PetEntry) : (s.setEntry n i e).quads = s.quads := by simp [State.setEntry]
@[simp] theorem State.setEntry_dies (s : State) (n i : Nat) (e : PetEntry) : (s.setEntry n i e).dies = s.dies := by simp [State.setEntry]
@[simp] theorem State.setEntry_hmask (s : State) (n i : Nat) (e : PetEntry) : (s.setEntry n i e).hmask = s.hmask := by simp [State.setEntry]
@[simp] theorem State.setEntry_nstr (s : State) (n i : Nat) (e : PetEntry) : (s.setEntry n i e).nstr = s.nstr := by simp [State.setEntry]
@[simp] theorem State.setEntry_kernels (s : State) (n i : Nat) (e : PetEntry) : (s.setEntry n i e).kernels = s.kernels := by simp [State.setEntry]
@[simp] theorem State.setEntry_partitions (s : State) (n i : Nat) (e : PetEntry) : (s.setEntry n i e).partitions = s.partitions := by simp [State.setEntry]
@[simp] theorem State.setEntry_records (s : State) (n i : Nat) (e : PetEntry) : (s.setEntry n i e).records = s.records := by simp [State.setEntry]
@[simp] theorem State.setEntry_members (s : State) (n i : Nat) (e : PetEntry) : (s.setEntry n i e).members = s.members := by simp [State.setEntry]
@[simp] theorem State.setEntry_groups (s : State) (n i : Nat) (e : PetEntry) : (s.setEntry n i e).groups = s.groups := by simp [State.setEntry]
@[simp] theorem State.setEntry_timers (s : State) (n i : Nat) (e : PetEntry) : (s.setEntry n i e).timers = s.timers := by simp [State.setEntry]
@[simp] theorem State.setEntry_collectives (s : State) (n i : Nat) (e : PetEntry) : (s.setEntry n i e).collectives = s.collectives := by simp [State.setEntry]
@[simp] theorem State.setEntry_shares (s : State) (n i : Nat) (e : PetEntry) : (s.setEntry n i e).shares = s.shares := by simp [State.setEntry]
@[simp] theorem State.setEntry_queues (s : State) (n i : Nat) (e : PetEntry) : (s.setEntry n i e).queues = s.queues := by simp [State.setEntry]
@[simp] theorem State.setEntry_graphs (s : State) (n i : Nat) (e : PetEntry) : (s.setEntry n i e).graphs = s.graphs := by simp [State.setEntry]
@[simp] theorem State.setEntry_wakeRegs (s : State) (n i : Nat) (e : PetEntry) : (s.setEntry n i e).wakeRegs = s.wakeRegs := by simp [State.setEntry]
@[simp] theorem State.setEntry_outbox (s : State) (n i : Nat) (e : PetEntry) : (s.setEntry n i e).outbox = s.outbox := by simp [State.setEntry]
@[simp] theorem State.setEntry_notices (s : State) (n i : Nat) (e : PetEntry) : (s.setEntry n i e).notices = s.notices := by simp [State.setEntry]
@[simp] theorem State.setEntry_checkpoints (s : State) (n i : Nat) (e : PetEntry) : (s.setEntry n i e).checkpoints = s.checkpoints := by simp [State.setEntry]
@[simp] theorem State.setEntry_images (s : State) (n i : Nat) (e : PetEntry) : (s.setEntry n i e).images = s.images := by simp [State.setEntry]
@[simp] theorem State.setEntry_device (s : State) (n i : Nat) (e : PetEntry) : (s.setEntry n i e).device = s.device := by simp [State.setEntry]

/-! Fields of Task. -/

@[simp] theorem Task.setSeq_uid (t : Task) (d : Side) (q : Seq) : (t.setSeq d q).uid = t.uid := by cases d <;> rfl
@[simp] theorem Task.setSeq_kid (t : Task) (d : Side) (q : Seq) : (t.setSeq d q).kid = t.kid := by cases d <;> rfl
@[simp] theorem Task.setSeq_ctx (t : Task) (d : Side) (q : Seq) : (t.setSeq d q).ctx = t.ctx := by cases d <;> rfl
@[simp] theorem Task.setSeq_part (t : Task) (d : Side) (q : Seq) : (t.setSeq d q).part = t.part := by cases d <;> rfl
@[simp] theorem Task.setSeq_record (t : Task) (d : Side) (q : Seq) : (t.setSeq d q).record = t.record := by cases d <;> rfl
@[simp] theorem Task.setSeq_frameOk (t : Task) (d : Side) (q : Seq) : (t.setSeq d q).frameOk = t.frameOk := by cases d <;> rfl
@[simp] theorem Task.setSeq_partw (t : Task) (d : Side) (q : Seq) : (t.setSeq d q).partw = t.partw := by cases d <;> rfl
@[simp] theorem Task.setSeq_doms (t : Task) (d : Side) (q : Seq) : (t.setSeq d q).doms = t.doms := by cases d <;> rfl
@[simp] theorem Task.setSeq_a (t : Task) (d : Side) (q : Seq) : (t.setSeq d q).a = t.a := by cases d <;> rfl
@[simp] theorem Task.setSeq_aAwait (t : Task) (d : Side) (q : Seq) : (t.setSeq d q).aAwait = t.aAwait := by cases d <;> rfl
@[simp] theorem Task.setSeq_k (t : Task) (d : Side) (q : Seq) : (t.setSeq d q).k = t.k := by cases d <;> rfl
@[simp] theorem Task.setSeq_names (t : Task) (d : Side) (q : Seq) : (t.setSeq d q).names = t.names := by cases d <;> rfl
@[simp] theorem Task.setSeq_nstX (t : Task) (d : Side) (q : Seq) : (t.setSeq d q).nstX = t.nstX := by cases d <;> rfl
@[simp] theorem Task.setSeq_sr (t : Task) (d : Side) (q : Seq) : (t.setSeq d q).sr = t.sr := by cases d <;> rfl
@[simp] theorem Task.setSeq_m (t : Task) (d : Side) (q : Seq) : (t.setSeq d q).m = t.m := by cases d <;> rfl
@[simp] theorem Task.setSeq_q (t : Task) (d : Side) (q : Seq) : (t.setSeq d q).q = t.q := by cases d <;> rfl
@[simp] theorem Task.setSeq_qfmt (t : Task) (d : Side) (q : Seq) : (t.setSeq d q).qfmt = t.qfmt := by cases d <;> rfl
@[simp] theorem Task.setSeq_zexp (t : Task) (d : Side) (q : Seq) : (t.setSeq d q).zexp = t.zexp := by cases d <;> rfl
@[simp] theorem Task.setSeq_zpw (t : Task) (d : Side) (q : Seq) : (t.setSeq d q).zpw = t.zpw := by cases d <;> rfl
@[simp] theorem Task.setSeq_slipw (t : Task) (d : Side) (q : Seq) : (t.setSeq d q).slipw = t.slipw := by cases d <;> rfl
@[simp] theorem Task.setSeq_stat (t : Task) (d : Side) (q : Seq) : (t.setSeq d q).stat = t.stat := by cases d <;> rfl
@[simp] theorem Task.setSeq_tks (t : Task) (d : Side) (q : Seq) : (t.setSeq d q).tks = t.tks := by cases d <;> rfl
@[simp] theorem Task.setSeq_vst (t : Task) (d : Side) (q : Seq) : (t.setSeq d q).vst = t.vst := by cases d <;> rfl
@[simp] theorem Task.setSeq_zst (t : Task) (d : Side) (q : Seq) : (t.setSeq d q).zst = t.zst := by cases d <;> rfl
@[simp] theorem Task.setSeq_raised (t : Task) (d : Side) (q : Seq) : (t.setSeq d q).raised = t.raised := by cases d <;> rfl
@[simp] theorem Task.setSeq_spk (t : Task) (d : Side) (q : Seq) : (t.setSeq d q).spk = t.spk := by cases d <;> rfl
@[simp] theorem Task.setSeq_spov (t : Task) (d : Side) (q : Seq) : (t.setSeq d q).spov = t.spov := by cases d <;> rfl
@[simp] theorem Task.setSeq_dqb (t : Task) (d : Side) (q : Seq) : (t.setSeq d q).dqb = t.dqb := by cases d <;> rfl
@[simp] theorem Task.setSeq_dql (t : Task) (d : Side) (q : Seq) : (t.setSeq d q).dql = t.dql := by cases d <;> rfl
@[simp] theorem Task.setSeq_dqHead (t : Task) (d : Side) (q : Seq) : (t.setSeq d q).dqHead = t.dqHead := by cases d <;> rfl
@[simp] theorem Task.setSeq_dqCount (t : Task) (d : Side) (q : Seq) : (t.setSeq d q).dqCount = t.dqCount := by cases d <;> rfl
@[simp] theorem Task.setSeq_mprog (t : Task) (d : Side) (q : Seq) : (t.setSeq d q).mprog = t.mprog := by cases d <;> rfl
@[simp] theorem Task.setSeq_yreq (t : Task) (d : Side) (q : Seq) : (t.setSeq d q).yreq = t.yreq := by cases d <;> rfl
@[simp] theorem Task.setSeq_yseen (t : Task) (d : Side) (q : Seq) : (t.setSeq d q).yseen = t.yseen := by cases d <;> rfl
@[simp] theorem Task.setSeq_ycause (t : Task) (d : Side) (q : Seq) : (t.setSeq d q).ycause = t.ycause := by cases d <;> rfl
@[simp] theorem Task.setSeq_bins (t : Task) (d : Side) (q : Seq) : (t.setSeq d q).bins = t.bins := by cases d <;> rfl
@[simp] theorem Task.setSeq_flags (t : Task) (d : Side) (q : Seq) : (t.setSeq d q).flags = t.flags := by cases d <;> rfl
@[simp] theorem Task.setSeq_setters (t : Task) (d : Side) (q : Seq) : (t.setSeq d q).setters = t.setters := by cases d <;> rfl
@[simp] theorem Task.setSeq_streams (t : Task) (d : Side) (q : Seq) : (t.setSeq d q).streams = t.streams := by cases d <;> rfl
@[simp] theorem Task.setSeq_mq (t : Task) (d : Side) (q : Seq) : (t.setSeq d q).mq = t.mq := by cases d <;> rfl
@[simp] theorem Task.setSeq_mstart (t : Task) (d : Side) (q : Seq) : (t.setSeq d q).mstart = t.mstart := by cases d <;> rfl
@[simp] theorem Task.setSeq_mwork (t : Task) (d : Side) (q : Seq) : (t.setSeq d q).mwork = t.mwork := by cases d <;> rfl
@[simp] theorem Task.setSeq_mheld (t : Task) (d : Side) (q : Seq) : (t.setSeq d q).mheld = t.mheld := by cases d <;> rfl
@[simp] theorem Task.setSeq_lease (t : Task) (d : Side) (q : Seq) : (t.setSeq d q).lease = t.lease := by cases d <;> rfl
@[simp] theorem Task.setSeq_cq (t : Task) (d : Side) (q : Seq) : (t.setSeq d q).cq = t.cq := by cases d <;> rfl
@[simp] theorem Task.setSeq_pb (t : Task) (d : Side) (q : Seq) : (t.setSeq d q).pb = t.pb := by cases d <;> rfl
@[simp] theorem Task.setSeq_stores (t : Task) (d : Side) (q : Seq) : (t.setSeq d q).stores = t.stores := by cases d <;> rfl
@[simp] theorem Task.setSeq_loads (t : Task) (d : Side) (q : Seq) : (t.setSeq d q).loads = t.loads := by cases d <;> rfl
@[simp] theorem Task.setSeq_atomics (t : Task) (d : Side) (q : Seq) : (t.setSeq d q).atomics = t.atomics := by cases d <;> rfl
@[simp] theorem Task.setSeq_vatom (t : Task) (d : Side) (q : Seq) : (t.setSeq d q).vatom = t.vatom := by cases d <;> rfl
@[simp] theorem Task.setSeq_owed (t : Task) (d : Side) (q : Seq) : (t.setSeq d q).owed = t.owed := by cases d <;> rfl
@[simp] theorem Task.setSeq_port (t : Task) (d : Side) (q : Seq) : (t.setSeq d q).port = t.port := by cases d <;> rfl
@[simp] theorem Task.setSeq_push (t : Task) (d : Side) (q : Seq) : (t.setSeq d q).push = t.push := by cases d <;> rfl

@[simp] theorem Task.setAreg_uid (t : Task) (n : Nat) (x : Word64) : (t.setAreg n x).uid = t.uid := by unfold Task.setAreg; split <;> rfl
@[simp] theorem Task.setAreg_kid (t : Task) (n : Nat) (x : Word64) : (t.setAreg n x).kid = t.kid := by unfold Task.setAreg; split <;> rfl
@[simp] theorem Task.setAreg_ctx (t : Task) (n : Nat) (x : Word64) : (t.setAreg n x).ctx = t.ctx := by unfold Task.setAreg; split <;> rfl
@[simp] theorem Task.setAreg_part (t : Task) (n : Nat) (x : Word64) : (t.setAreg n x).part = t.part := by unfold Task.setAreg; split <;> rfl
@[simp] theorem Task.setAreg_record (t : Task) (n : Nat) (x : Word64) : (t.setAreg n x).record = t.record := by unfold Task.setAreg; split <;> rfl
@[simp] theorem Task.setAreg_frameOk (t : Task) (n : Nat) (x : Word64) : (t.setAreg n x).frameOk = t.frameOk := by unfold Task.setAreg; split <;> rfl
@[simp] theorem Task.setAreg_partw (t : Task) (n : Nat) (x : Word64) : (t.setAreg n x).partw = t.partw := by unfold Task.setAreg; split <;> rfl
@[simp] theorem Task.setAreg_doms (t : Task) (n : Nat) (x : Word64) : (t.setAreg n x).doms = t.doms := by unfold Task.setAreg; split <;> rfl
@[simp] theorem Task.setAreg_k (t : Task) (n : Nat) (x : Word64) : (t.setAreg n x).k = t.k := by unfold Task.setAreg; split <;> rfl
@[simp] theorem Task.setAreg_names (t : Task) (n : Nat) (x : Word64) : (t.setAreg n x).names = t.names := by unfold Task.setAreg; split <;> rfl
@[simp] theorem Task.setAreg_nstX (t : Task) (n : Nat) (x : Word64) : (t.setAreg n x).nstX = t.nstX := by unfold Task.setAreg; split <;> rfl
@[simp] theorem Task.setAreg_sr (t : Task) (n : Nat) (x : Word64) : (t.setAreg n x).sr = t.sr := by unfold Task.setAreg; split <;> rfl
@[simp] theorem Task.setAreg_m (t : Task) (n : Nat) (x : Word64) : (t.setAreg n x).m = t.m := by unfold Task.setAreg; split <;> rfl
@[simp] theorem Task.setAreg_q (t : Task) (n : Nat) (x : Word64) : (t.setAreg n x).q = t.q := by unfold Task.setAreg; split <;> rfl
@[simp] theorem Task.setAreg_qfmt (t : Task) (n : Nat) (x : Word64) : (t.setAreg n x).qfmt = t.qfmt := by unfold Task.setAreg; split <;> rfl
@[simp] theorem Task.setAreg_zexp (t : Task) (n : Nat) (x : Word64) : (t.setAreg n x).zexp = t.zexp := by unfold Task.setAreg; split <;> rfl
@[simp] theorem Task.setAreg_zpw (t : Task) (n : Nat) (x : Word64) : (t.setAreg n x).zpw = t.zpw := by unfold Task.setAreg; split <;> rfl
@[simp] theorem Task.setAreg_slipw (t : Task) (n : Nat) (x : Word64) : (t.setAreg n x).slipw = t.slipw := by unfold Task.setAreg; split <;> rfl
@[simp] theorem Task.setAreg_stat (t : Task) (n : Nat) (x : Word64) : (t.setAreg n x).stat = t.stat := by unfold Task.setAreg; split <;> rfl
@[simp] theorem Task.setAreg_tks (t : Task) (n : Nat) (x : Word64) : (t.setAreg n x).tks = t.tks := by unfold Task.setAreg; split <;> rfl
@[simp] theorem Task.setAreg_vst (t : Task) (n : Nat) (x : Word64) : (t.setAreg n x).vst = t.vst := by unfold Task.setAreg; split <;> rfl
@[simp] theorem Task.setAreg_zst (t : Task) (n : Nat) (x : Word64) : (t.setAreg n x).zst = t.zst := by unfold Task.setAreg; split <;> rfl
@[simp] theorem Task.setAreg_raised (t : Task) (n : Nat) (x : Word64) : (t.setAreg n x).raised = t.raised := by unfold Task.setAreg; split <;> rfl
@[simp] theorem Task.setAreg_spk (t : Task) (n : Nat) (x : Word64) : (t.setAreg n x).spk = t.spk := by unfold Task.setAreg; split <;> rfl
@[simp] theorem Task.setAreg_spov (t : Task) (n : Nat) (x : Word64) : (t.setAreg n x).spov = t.spov := by unfold Task.setAreg; split <;> rfl
@[simp] theorem Task.setAreg_dqb (t : Task) (n : Nat) (x : Word64) : (t.setAreg n x).dqb = t.dqb := by unfold Task.setAreg; split <;> rfl
@[simp] theorem Task.setAreg_dql (t : Task) (n : Nat) (x : Word64) : (t.setAreg n x).dql = t.dql := by unfold Task.setAreg; split <;> rfl
@[simp] theorem Task.setAreg_dqHead (t : Task) (n : Nat) (x : Word64) : (t.setAreg n x).dqHead = t.dqHead := by unfold Task.setAreg; split <;> rfl
@[simp] theorem Task.setAreg_dqCount (t : Task) (n : Nat) (x : Word64) : (t.setAreg n x).dqCount = t.dqCount := by unfold Task.setAreg; split <;> rfl
@[simp] theorem Task.setAreg_mprog (t : Task) (n : Nat) (x : Word64) : (t.setAreg n x).mprog = t.mprog := by unfold Task.setAreg; split <;> rfl
@[simp] theorem Task.setAreg_yreq (t : Task) (n : Nat) (x : Word64) : (t.setAreg n x).yreq = t.yreq := by unfold Task.setAreg; split <;> rfl
@[simp] theorem Task.setAreg_yseen (t : Task) (n : Nat) (x : Word64) : (t.setAreg n x).yseen = t.yseen := by unfold Task.setAreg; split <;> rfl
@[simp] theorem Task.setAreg_ycause (t : Task) (n : Nat) (x : Word64) : (t.setAreg n x).ycause = t.ycause := by unfold Task.setAreg; split <;> rfl
@[simp] theorem Task.setAreg_bins (t : Task) (n : Nat) (x : Word64) : (t.setAreg n x).bins = t.bins := by unfold Task.setAreg; split <;> rfl
@[simp] theorem Task.setAreg_flags (t : Task) (n : Nat) (x : Word64) : (t.setAreg n x).flags = t.flags := by unfold Task.setAreg; split <;> rfl
@[simp] theorem Task.setAreg_setters (t : Task) (n : Nat) (x : Word64) : (t.setAreg n x).setters = t.setters := by unfold Task.setAreg; split <;> rfl
@[simp] theorem Task.setAreg_streams (t : Task) (n : Nat) (x : Word64) : (t.setAreg n x).streams = t.streams := by unfold Task.setAreg; split <;> rfl
@[simp] theorem Task.setAreg_mq (t : Task) (n : Nat) (x : Word64) : (t.setAreg n x).mq = t.mq := by unfold Task.setAreg; split <;> rfl
@[simp] theorem Task.setAreg_mstart (t : Task) (n : Nat) (x : Word64) : (t.setAreg n x).mstart = t.mstart := by unfold Task.setAreg; split <;> rfl
@[simp] theorem Task.setAreg_mwork (t : Task) (n : Nat) (x : Word64) : (t.setAreg n x).mwork = t.mwork := by unfold Task.setAreg; split <;> rfl
@[simp] theorem Task.setAreg_mheld (t : Task) (n : Nat) (x : Word64) : (t.setAreg n x).mheld = t.mheld := by unfold Task.setAreg; split <;> rfl
@[simp] theorem Task.setAreg_lease (t : Task) (n : Nat) (x : Word64) : (t.setAreg n x).lease = t.lease := by unfold Task.setAreg; split <;> rfl
@[simp] theorem Task.setAreg_cq (t : Task) (n : Nat) (x : Word64) : (t.setAreg n x).cq = t.cq := by unfold Task.setAreg; split <;> rfl
@[simp] theorem Task.setAreg_pb (t : Task) (n : Nat) (x : Word64) : (t.setAreg n x).pb = t.pb := by unfold Task.setAreg; split <;> rfl
@[simp] theorem Task.setAreg_seqA (t : Task) (n : Nat) (x : Word64) : (t.setAreg n x).seqA = t.seqA := by unfold Task.setAreg; split <;> rfl
@[simp] theorem Task.setAreg_seqX (t : Task) (n : Nat) (x : Word64) : (t.setAreg n x).seqX = t.seqX := by unfold Task.setAreg; split <;> rfl
@[simp] theorem Task.setAreg_stores (t : Task) (n : Nat) (x : Word64) : (t.setAreg n x).stores = t.stores := by unfold Task.setAreg; split <;> rfl
@[simp] theorem Task.setAreg_loads (t : Task) (n : Nat) (x : Word64) : (t.setAreg n x).loads = t.loads := by unfold Task.setAreg; split <;> rfl
@[simp] theorem Task.setAreg_atomics (t : Task) (n : Nat) (x : Word64) : (t.setAreg n x).atomics = t.atomics := by unfold Task.setAreg; split <;> rfl
@[simp] theorem Task.setAreg_vatom (t : Task) (n : Nat) (x : Word64) : (t.setAreg n x).vatom = t.vatom := by unfold Task.setAreg; split <;> rfl
@[simp] theorem Task.setAreg_owed (t : Task) (n : Nat) (x : Word64) : (t.setAreg n x).owed = t.owed := by unfold Task.setAreg; split <;> rfl
@[simp] theorem Task.setAreg_port (t : Task) (n : Nat) (x : Word64) : (t.setAreg n x).port = t.port := by unfold Task.setAreg; split <;> rfl
@[simp] theorem Task.setAreg_push (t : Task) (n : Nat) (x : Word64) : (t.setAreg n x).push = t.push := by unfold Task.setAreg; split <;> rfl

@[simp] theorem Task.setSreg_uid (t : Task) (n : Nat) (x : Word64) : (t.setSreg n x).uid = t.uid := by unfold Task.setSreg; split <;> rfl
@[simp] theorem Task.setSreg_kid (t : Task) (n : Nat) (x : Word64) : (t.setSreg n x).kid = t.kid := by unfold Task.setSreg; split <;> rfl
@[simp] theorem Task.setSreg_ctx (t : Task) (n : Nat) (x : Word64) : (t.setSreg n x).ctx = t.ctx := by unfold Task.setSreg; split <;> rfl
@[simp] theorem Task.setSreg_part (t : Task) (n : Nat) (x : Word64) : (t.setSreg n x).part = t.part := by unfold Task.setSreg; split <;> rfl
@[simp] theorem Task.setSreg_record (t : Task) (n : Nat) (x : Word64) : (t.setSreg n x).record = t.record := by unfold Task.setSreg; split <;> rfl
@[simp] theorem Task.setSreg_frameOk (t : Task) (n : Nat) (x : Word64) : (t.setSreg n x).frameOk = t.frameOk := by unfold Task.setSreg; split <;> rfl
@[simp] theorem Task.setSreg_partw (t : Task) (n : Nat) (x : Word64) : (t.setSreg n x).partw = t.partw := by unfold Task.setSreg; split <;> rfl
@[simp] theorem Task.setSreg_doms (t : Task) (n : Nat) (x : Word64) : (t.setSreg n x).doms = t.doms := by unfold Task.setSreg; split <;> rfl
@[simp] theorem Task.setSreg_a (t : Task) (n : Nat) (x : Word64) : (t.setSreg n x).a = t.a := by unfold Task.setSreg; split <;> rfl
@[simp] theorem Task.setSreg_aAwait (t : Task) (n : Nat) (x : Word64) : (t.setSreg n x).aAwait = t.aAwait := by unfold Task.setSreg; split <;> rfl
@[simp] theorem Task.setSreg_k (t : Task) (n : Nat) (x : Word64) : (t.setSreg n x).k = t.k := by unfold Task.setSreg; split <;> rfl
@[simp] theorem Task.setSreg_names (t : Task) (n : Nat) (x : Word64) : (t.setSreg n x).names = t.names := by unfold Task.setSreg; split <;> rfl
@[simp] theorem Task.setSreg_nstX (t : Task) (n : Nat) (x : Word64) : (t.setSreg n x).nstX = t.nstX := by unfold Task.setSreg; split <;> rfl
@[simp] theorem Task.setSreg_m (t : Task) (n : Nat) (x : Word64) : (t.setSreg n x).m = t.m := by unfold Task.setSreg; split <;> rfl
@[simp] theorem Task.setSreg_q (t : Task) (n : Nat) (x : Word64) : (t.setSreg n x).q = t.q := by unfold Task.setSreg; split <;> rfl
@[simp] theorem Task.setSreg_qfmt (t : Task) (n : Nat) (x : Word64) : (t.setSreg n x).qfmt = t.qfmt := by unfold Task.setSreg; split <;> rfl
@[simp] theorem Task.setSreg_zexp (t : Task) (n : Nat) (x : Word64) : (t.setSreg n x).zexp = t.zexp := by unfold Task.setSreg; split <;> rfl
@[simp] theorem Task.setSreg_zpw (t : Task) (n : Nat) (x : Word64) : (t.setSreg n x).zpw = t.zpw := by unfold Task.setSreg; split <;> rfl
@[simp] theorem Task.setSreg_slipw (t : Task) (n : Nat) (x : Word64) : (t.setSreg n x).slipw = t.slipw := by unfold Task.setSreg; split <;> rfl
@[simp] theorem Task.setSreg_stat (t : Task) (n : Nat) (x : Word64) : (t.setSreg n x).stat = t.stat := by unfold Task.setSreg; split <;> rfl
@[simp] theorem Task.setSreg_tks (t : Task) (n : Nat) (x : Word64) : (t.setSreg n x).tks = t.tks := by unfold Task.setSreg; split <;> rfl
@[simp] theorem Task.setSreg_vst (t : Task) (n : Nat) (x : Word64) : (t.setSreg n x).vst = t.vst := by unfold Task.setSreg; split <;> rfl
@[simp] theorem Task.setSreg_zst (t : Task) (n : Nat) (x : Word64) : (t.setSreg n x).zst = t.zst := by unfold Task.setSreg; split <;> rfl
@[simp] theorem Task.setSreg_raised (t : Task) (n : Nat) (x : Word64) : (t.setSreg n x).raised = t.raised := by unfold Task.setSreg; split <;> rfl
@[simp] theorem Task.setSreg_spk (t : Task) (n : Nat) (x : Word64) : (t.setSreg n x).spk = t.spk := by unfold Task.setSreg; split <;> rfl
@[simp] theorem Task.setSreg_spov (t : Task) (n : Nat) (x : Word64) : (t.setSreg n x).spov = t.spov := by unfold Task.setSreg; split <;> rfl
@[simp] theorem Task.setSreg_dqb (t : Task) (n : Nat) (x : Word64) : (t.setSreg n x).dqb = t.dqb := by unfold Task.setSreg; split <;> rfl
@[simp] theorem Task.setSreg_dql (t : Task) (n : Nat) (x : Word64) : (t.setSreg n x).dql = t.dql := by unfold Task.setSreg; split <;> rfl
@[simp] theorem Task.setSreg_dqHead (t : Task) (n : Nat) (x : Word64) : (t.setSreg n x).dqHead = t.dqHead := by unfold Task.setSreg; split <;> rfl
@[simp] theorem Task.setSreg_dqCount (t : Task) (n : Nat) (x : Word64) : (t.setSreg n x).dqCount = t.dqCount := by unfold Task.setSreg; split <;> rfl
@[simp] theorem Task.setSreg_mprog (t : Task) (n : Nat) (x : Word64) : (t.setSreg n x).mprog = t.mprog := by unfold Task.setSreg; split <;> rfl
@[simp] theorem Task.setSreg_yreq (t : Task) (n : Nat) (x : Word64) : (t.setSreg n x).yreq = t.yreq := by unfold Task.setSreg; split <;> rfl
@[simp] theorem Task.setSreg_yseen (t : Task) (n : Nat) (x : Word64) : (t.setSreg n x).yseen = t.yseen := by unfold Task.setSreg; split <;> rfl
@[simp] theorem Task.setSreg_ycause (t : Task) (n : Nat) (x : Word64) : (t.setSreg n x).ycause = t.ycause := by unfold Task.setSreg; split <;> rfl
@[simp] theorem Task.setSreg_bins (t : Task) (n : Nat) (x : Word64) : (t.setSreg n x).bins = t.bins := by unfold Task.setSreg; split <;> rfl
@[simp] theorem Task.setSreg_flags (t : Task) (n : Nat) (x : Word64) : (t.setSreg n x).flags = t.flags := by unfold Task.setSreg; split <;> rfl
@[simp] theorem Task.setSreg_setters (t : Task) (n : Nat) (x : Word64) : (t.setSreg n x).setters = t.setters := by unfold Task.setSreg; split <;> rfl
@[simp] theorem Task.setSreg_streams (t : Task) (n : Nat) (x : Word64) : (t.setSreg n x).streams = t.streams := by unfold Task.setSreg; split <;> rfl
@[simp] theorem Task.setSreg_mq (t : Task) (n : Nat) (x : Word64) : (t.setSreg n x).mq = t.mq := by unfold Task.setSreg; split <;> rfl
@[simp] theorem Task.setSreg_mstart (t : Task) (n : Nat) (x : Word64) : (t.setSreg n x).mstart = t.mstart := by unfold Task.setSreg; split <;> rfl
@[simp] theorem Task.setSreg_mwork (t : Task) (n : Nat) (x : Word64) : (t.setSreg n x).mwork = t.mwork := by unfold Task.setSreg; split <;> rfl
@[simp] theorem Task.setSreg_mheld (t : Task) (n : Nat) (x : Word64) : (t.setSreg n x).mheld = t.mheld := by unfold Task.setSreg; split <;> rfl
@[simp] theorem Task.setSreg_lease (t : Task) (n : Nat) (x : Word64) : (t.setSreg n x).lease = t.lease := by unfold Task.setSreg; split <;> rfl
@[simp] theorem Task.setSreg_cq (t : Task) (n : Nat) (x : Word64) : (t.setSreg n x).cq = t.cq := by unfold Task.setSreg; split <;> rfl
@[simp] theorem Task.setSreg_pb (t : Task) (n : Nat) (x : Word64) : (t.setSreg n x).pb = t.pb := by unfold Task.setSreg; split <;> rfl
@[simp] theorem Task.setSreg_seqA (t : Task) (n : Nat) (x : Word64) : (t.setSreg n x).seqA = t.seqA := by unfold Task.setSreg; split <;> rfl
@[simp] theorem Task.setSreg_seqX (t : Task) (n : Nat) (x : Word64) : (t.setSreg n x).seqX = t.seqX := by unfold Task.setSreg; split <;> rfl
@[simp] theorem Task.setSreg_stores (t : Task) (n : Nat) (x : Word64) : (t.setSreg n x).stores = t.stores := by unfold Task.setSreg; split <;> rfl
@[simp] theorem Task.setSreg_loads (t : Task) (n : Nat) (x : Word64) : (t.setSreg n x).loads = t.loads := by unfold Task.setSreg; split <;> rfl
@[simp] theorem Task.setSreg_atomics (t : Task) (n : Nat) (x : Word64) : (t.setSreg n x).atomics = t.atomics := by unfold Task.setSreg; split <;> rfl
@[simp] theorem Task.setSreg_vatom (t : Task) (n : Nat) (x : Word64) : (t.setSreg n x).vatom = t.vatom := by unfold Task.setSreg; split <;> rfl
@[simp] theorem Task.setSreg_owed (t : Task) (n : Nat) (x : Word64) : (t.setSreg n x).owed = t.owed := by unfold Task.setSreg; split <;> rfl
@[simp] theorem Task.setSreg_port (t : Task) (n : Nat) (x : Word64) : (t.setSreg n x).port = t.port := by unfold Task.setSreg; split <;> rfl
@[simp] theorem Task.setSreg_push (t : Task) (n : Nat) (x : Word64) : (t.setSreg n x).push = t.push := by unfold Task.setSreg; split <;> rfl

@[simp] theorem Task.setMask_uid (t : Task) (n : Nat) (x : Mask) : (t.setMask n x).uid = t.uid := by unfold Task.setMask; split <;> rfl
@[simp] theorem Task.setMask_kid (t : Task) (n : Nat) (x : Mask) : (t.setMask n x).kid = t.kid := by unfold Task.setMask; split <;> rfl
@[simp] theorem Task.setMask_ctx (t : Task) (n : Nat) (x : Mask) : (t.setMask n x).ctx = t.ctx := by unfold Task.setMask; split <;> rfl
@[simp] theorem Task.setMask_part (t : Task) (n : Nat) (x : Mask) : (t.setMask n x).part = t.part := by unfold Task.setMask; split <;> rfl
@[simp] theorem Task.setMask_record (t : Task) (n : Nat) (x : Mask) : (t.setMask n x).record = t.record := by unfold Task.setMask; split <;> rfl
@[simp] theorem Task.setMask_frameOk (t : Task) (n : Nat) (x : Mask) : (t.setMask n x).frameOk = t.frameOk := by unfold Task.setMask; split <;> rfl
@[simp] theorem Task.setMask_partw (t : Task) (n : Nat) (x : Mask) : (t.setMask n x).partw = t.partw := by unfold Task.setMask; split <;> rfl
@[simp] theorem Task.setMask_doms (t : Task) (n : Nat) (x : Mask) : (t.setMask n x).doms = t.doms := by unfold Task.setMask; split <;> rfl
@[simp] theorem Task.setMask_a (t : Task) (n : Nat) (x : Mask) : (t.setMask n x).a = t.a := by unfold Task.setMask; split <;> rfl
@[simp] theorem Task.setMask_aAwait (t : Task) (n : Nat) (x : Mask) : (t.setMask n x).aAwait = t.aAwait := by unfold Task.setMask; split <;> rfl
@[simp] theorem Task.setMask_k (t : Task) (n : Nat) (x : Mask) : (t.setMask n x).k = t.k := by unfold Task.setMask; split <;> rfl
@[simp] theorem Task.setMask_names (t : Task) (n : Nat) (x : Mask) : (t.setMask n x).names = t.names := by unfold Task.setMask; split <;> rfl
@[simp] theorem Task.setMask_nstX (t : Task) (n : Nat) (x : Mask) : (t.setMask n x).nstX = t.nstX := by unfold Task.setMask; split <;> rfl
@[simp] theorem Task.setMask_sr (t : Task) (n : Nat) (x : Mask) : (t.setMask n x).sr = t.sr := by unfold Task.setMask; split <;> rfl
@[simp] theorem Task.setMask_q (t : Task) (n : Nat) (x : Mask) : (t.setMask n x).q = t.q := by unfold Task.setMask; split <;> rfl
@[simp] theorem Task.setMask_qfmt (t : Task) (n : Nat) (x : Mask) : (t.setMask n x).qfmt = t.qfmt := by unfold Task.setMask; split <;> rfl
@[simp] theorem Task.setMask_zexp (t : Task) (n : Nat) (x : Mask) : (t.setMask n x).zexp = t.zexp := by unfold Task.setMask; split <;> rfl
@[simp] theorem Task.setMask_zpw (t : Task) (n : Nat) (x : Mask) : (t.setMask n x).zpw = t.zpw := by unfold Task.setMask; split <;> rfl
@[simp] theorem Task.setMask_slipw (t : Task) (n : Nat) (x : Mask) : (t.setMask n x).slipw = t.slipw := by unfold Task.setMask; split <;> rfl
@[simp] theorem Task.setMask_stat (t : Task) (n : Nat) (x : Mask) : (t.setMask n x).stat = t.stat := by unfold Task.setMask; split <;> rfl
@[simp] theorem Task.setMask_tks (t : Task) (n : Nat) (x : Mask) : (t.setMask n x).tks = t.tks := by unfold Task.setMask; split <;> rfl
@[simp] theorem Task.setMask_vst (t : Task) (n : Nat) (x : Mask) : (t.setMask n x).vst = t.vst := by unfold Task.setMask; split <;> rfl
@[simp] theorem Task.setMask_zst (t : Task) (n : Nat) (x : Mask) : (t.setMask n x).zst = t.zst := by unfold Task.setMask; split <;> rfl
@[simp] theorem Task.setMask_raised (t : Task) (n : Nat) (x : Mask) : (t.setMask n x).raised = t.raised := by unfold Task.setMask; split <;> rfl
@[simp] theorem Task.setMask_spk (t : Task) (n : Nat) (x : Mask) : (t.setMask n x).spk = t.spk := by unfold Task.setMask; split <;> rfl
@[simp] theorem Task.setMask_spov (t : Task) (n : Nat) (x : Mask) : (t.setMask n x).spov = t.spov := by unfold Task.setMask; split <;> rfl
@[simp] theorem Task.setMask_dqb (t : Task) (n : Nat) (x : Mask) : (t.setMask n x).dqb = t.dqb := by unfold Task.setMask; split <;> rfl
@[simp] theorem Task.setMask_dql (t : Task) (n : Nat) (x : Mask) : (t.setMask n x).dql = t.dql := by unfold Task.setMask; split <;> rfl
@[simp] theorem Task.setMask_dqHead (t : Task) (n : Nat) (x : Mask) : (t.setMask n x).dqHead = t.dqHead := by unfold Task.setMask; split <;> rfl
@[simp] theorem Task.setMask_dqCount (t : Task) (n : Nat) (x : Mask) : (t.setMask n x).dqCount = t.dqCount := by unfold Task.setMask; split <;> rfl
@[simp] theorem Task.setMask_mprog (t : Task) (n : Nat) (x : Mask) : (t.setMask n x).mprog = t.mprog := by unfold Task.setMask; split <;> rfl
@[simp] theorem Task.setMask_yreq (t : Task) (n : Nat) (x : Mask) : (t.setMask n x).yreq = t.yreq := by unfold Task.setMask; split <;> rfl
@[simp] theorem Task.setMask_yseen (t : Task) (n : Nat) (x : Mask) : (t.setMask n x).yseen = t.yseen := by unfold Task.setMask; split <;> rfl
@[simp] theorem Task.setMask_ycause (t : Task) (n : Nat) (x : Mask) : (t.setMask n x).ycause = t.ycause := by unfold Task.setMask; split <;> rfl
@[simp] theorem Task.setMask_bins (t : Task) (n : Nat) (x : Mask) : (t.setMask n x).bins = t.bins := by unfold Task.setMask; split <;> rfl
@[simp] theorem Task.setMask_flags (t : Task) (n : Nat) (x : Mask) : (t.setMask n x).flags = t.flags := by unfold Task.setMask; split <;> rfl
@[simp] theorem Task.setMask_setters (t : Task) (n : Nat) (x : Mask) : (t.setMask n x).setters = t.setters := by unfold Task.setMask; split <;> rfl
@[simp] theorem Task.setMask_streams (t : Task) (n : Nat) (x : Mask) : (t.setMask n x).streams = t.streams := by unfold Task.setMask; split <;> rfl
@[simp] theorem Task.setMask_mq (t : Task) (n : Nat) (x : Mask) : (t.setMask n x).mq = t.mq := by unfold Task.setMask; split <;> rfl
@[simp] theorem Task.setMask_mstart (t : Task) (n : Nat) (x : Mask) : (t.setMask n x).mstart = t.mstart := by unfold Task.setMask; split <;> rfl
@[simp] theorem Task.setMask_mwork (t : Task) (n : Nat) (x : Mask) : (t.setMask n x).mwork = t.mwork := by unfold Task.setMask; split <;> rfl
@[simp] theorem Task.setMask_mheld (t : Task) (n : Nat) (x : Mask) : (t.setMask n x).mheld = t.mheld := by unfold Task.setMask; split <;> rfl
@[simp] theorem Task.setMask_lease (t : Task) (n : Nat) (x : Mask) : (t.setMask n x).lease = t.lease := by unfold Task.setMask; split <;> rfl
@[simp] theorem Task.setMask_cq (t : Task) (n : Nat) (x : Mask) : (t.setMask n x).cq = t.cq := by unfold Task.setMask; split <;> rfl
@[simp] theorem Task.setMask_pb (t : Task) (n : Nat) (x : Mask) : (t.setMask n x).pb = t.pb := by unfold Task.setMask; split <;> rfl
@[simp] theorem Task.setMask_seqA (t : Task) (n : Nat) (x : Mask) : (t.setMask n x).seqA = t.seqA := by unfold Task.setMask; split <;> rfl
@[simp] theorem Task.setMask_seqX (t : Task) (n : Nat) (x : Mask) : (t.setMask n x).seqX = t.seqX := by unfold Task.setMask; split <;> rfl
@[simp] theorem Task.setMask_stores (t : Task) (n : Nat) (x : Mask) : (t.setMask n x).stores = t.stores := by unfold Task.setMask; split <;> rfl
@[simp] theorem Task.setMask_loads (t : Task) (n : Nat) (x : Mask) : (t.setMask n x).loads = t.loads := by unfold Task.setMask; split <;> rfl
@[simp] theorem Task.setMask_atomics (t : Task) (n : Nat) (x : Mask) : (t.setMask n x).atomics = t.atomics := by unfold Task.setMask; split <;> rfl
@[simp] theorem Task.setMask_vatom (t : Task) (n : Nat) (x : Mask) : (t.setMask n x).vatom = t.vatom := by unfold Task.setMask; split <;> rfl
@[simp] theorem Task.setMask_owed (t : Task) (n : Nat) (x : Mask) : (t.setMask n x).owed = t.owed := by unfold Task.setMask; split <;> rfl
@[simp] theorem Task.setMask_port (t : Task) (n : Nat) (x : Mask) : (t.setMask n x).port = t.port := by unfold Task.setMask; split <;> rfl
@[simp] theorem Task.setMask_push (t : Task) (n : Nat) (x : Mask) : (t.setMask n x).push = t.push := by unfold Task.setMask; split <;> rfl

@[simp] theorem Task.setAwait_uid (t : Task) (n : Nat) (x : Await) : (t.setAwait n x).uid = t.uid := by unfold Task.setAwait; split <;> rfl
@[simp] theorem Task.setAwait_kid (t : Task) (n : Nat) (x : Await) : (t.setAwait n x).kid = t.kid := by unfold Task.setAwait; split <;> rfl
@[simp] theorem Task.setAwait_ctx (t : Task) (n : Nat) (x : Await) : (t.setAwait n x).ctx = t.ctx := by unfold Task.setAwait; split <;> rfl
@[simp] theorem Task.setAwait_part (t : Task) (n : Nat) (x : Await) : (t.setAwait n x).part = t.part := by unfold Task.setAwait; split <;> rfl
@[simp] theorem Task.setAwait_record (t : Task) (n : Nat) (x : Await) : (t.setAwait n x).record = t.record := by unfold Task.setAwait; split <;> rfl
@[simp] theorem Task.setAwait_frameOk (t : Task) (n : Nat) (x : Await) : (t.setAwait n x).frameOk = t.frameOk := by unfold Task.setAwait; split <;> rfl
@[simp] theorem Task.setAwait_partw (t : Task) (n : Nat) (x : Await) : (t.setAwait n x).partw = t.partw := by unfold Task.setAwait; split <;> rfl
@[simp] theorem Task.setAwait_doms (t : Task) (n : Nat) (x : Await) : (t.setAwait n x).doms = t.doms := by unfold Task.setAwait; split <;> rfl
@[simp] theorem Task.setAwait_a (t : Task) (n : Nat) (x : Await) : (t.setAwait n x).a = t.a := by unfold Task.setAwait; split <;> rfl
@[simp] theorem Task.setAwait_k (t : Task) (n : Nat) (x : Await) : (t.setAwait n x).k = t.k := by unfold Task.setAwait; split <;> rfl
@[simp] theorem Task.setAwait_names (t : Task) (n : Nat) (x : Await) : (t.setAwait n x).names = t.names := by unfold Task.setAwait; split <;> rfl
@[simp] theorem Task.setAwait_nstX (t : Task) (n : Nat) (x : Await) : (t.setAwait n x).nstX = t.nstX := by unfold Task.setAwait; split <;> rfl
@[simp] theorem Task.setAwait_sr (t : Task) (n : Nat) (x : Await) : (t.setAwait n x).sr = t.sr := by unfold Task.setAwait; split <;> rfl
@[simp] theorem Task.setAwait_m (t : Task) (n : Nat) (x : Await) : (t.setAwait n x).m = t.m := by unfold Task.setAwait; split <;> rfl
@[simp] theorem Task.setAwait_q (t : Task) (n : Nat) (x : Await) : (t.setAwait n x).q = t.q := by unfold Task.setAwait; split <;> rfl
@[simp] theorem Task.setAwait_qfmt (t : Task) (n : Nat) (x : Await) : (t.setAwait n x).qfmt = t.qfmt := by unfold Task.setAwait; split <;> rfl
@[simp] theorem Task.setAwait_zexp (t : Task) (n : Nat) (x : Await) : (t.setAwait n x).zexp = t.zexp := by unfold Task.setAwait; split <;> rfl
@[simp] theorem Task.setAwait_zpw (t : Task) (n : Nat) (x : Await) : (t.setAwait n x).zpw = t.zpw := by unfold Task.setAwait; split <;> rfl
@[simp] theorem Task.setAwait_slipw (t : Task) (n : Nat) (x : Await) : (t.setAwait n x).slipw = t.slipw := by unfold Task.setAwait; split <;> rfl
@[simp] theorem Task.setAwait_stat (t : Task) (n : Nat) (x : Await) : (t.setAwait n x).stat = t.stat := by unfold Task.setAwait; split <;> rfl
@[simp] theorem Task.setAwait_tks (t : Task) (n : Nat) (x : Await) : (t.setAwait n x).tks = t.tks := by unfold Task.setAwait; split <;> rfl
@[simp] theorem Task.setAwait_vst (t : Task) (n : Nat) (x : Await) : (t.setAwait n x).vst = t.vst := by unfold Task.setAwait; split <;> rfl
@[simp] theorem Task.setAwait_zst (t : Task) (n : Nat) (x : Await) : (t.setAwait n x).zst = t.zst := by unfold Task.setAwait; split <;> rfl
@[simp] theorem Task.setAwait_raised (t : Task) (n : Nat) (x : Await) : (t.setAwait n x).raised = t.raised := by unfold Task.setAwait; split <;> rfl
@[simp] theorem Task.setAwait_spk (t : Task) (n : Nat) (x : Await) : (t.setAwait n x).spk = t.spk := by unfold Task.setAwait; split <;> rfl
@[simp] theorem Task.setAwait_spov (t : Task) (n : Nat) (x : Await) : (t.setAwait n x).spov = t.spov := by unfold Task.setAwait; split <;> rfl
@[simp] theorem Task.setAwait_dqb (t : Task) (n : Nat) (x : Await) : (t.setAwait n x).dqb = t.dqb := by unfold Task.setAwait; split <;> rfl
@[simp] theorem Task.setAwait_dql (t : Task) (n : Nat) (x : Await) : (t.setAwait n x).dql = t.dql := by unfold Task.setAwait; split <;> rfl
@[simp] theorem Task.setAwait_dqHead (t : Task) (n : Nat) (x : Await) : (t.setAwait n x).dqHead = t.dqHead := by unfold Task.setAwait; split <;> rfl
@[simp] theorem Task.setAwait_dqCount (t : Task) (n : Nat) (x : Await) : (t.setAwait n x).dqCount = t.dqCount := by unfold Task.setAwait; split <;> rfl
@[simp] theorem Task.setAwait_mprog (t : Task) (n : Nat) (x : Await) : (t.setAwait n x).mprog = t.mprog := by unfold Task.setAwait; split <;> rfl
@[simp] theorem Task.setAwait_yreq (t : Task) (n : Nat) (x : Await) : (t.setAwait n x).yreq = t.yreq := by unfold Task.setAwait; split <;> rfl
@[simp] theorem Task.setAwait_yseen (t : Task) (n : Nat) (x : Await) : (t.setAwait n x).yseen = t.yseen := by unfold Task.setAwait; split <;> rfl
@[simp] theorem Task.setAwait_ycause (t : Task) (n : Nat) (x : Await) : (t.setAwait n x).ycause = t.ycause := by unfold Task.setAwait; split <;> rfl
@[simp] theorem Task.setAwait_bins (t : Task) (n : Nat) (x : Await) : (t.setAwait n x).bins = t.bins := by unfold Task.setAwait; split <;> rfl
@[simp] theorem Task.setAwait_flags (t : Task) (n : Nat) (x : Await) : (t.setAwait n x).flags = t.flags := by unfold Task.setAwait; split <;> rfl
@[simp] theorem Task.setAwait_setters (t : Task) (n : Nat) (x : Await) : (t.setAwait n x).setters = t.setters := by unfold Task.setAwait; split <;> rfl
@[simp] theorem Task.setAwait_streams (t : Task) (n : Nat) (x : Await) : (t.setAwait n x).streams = t.streams := by unfold Task.setAwait; split <;> rfl
@[simp] theorem Task.setAwait_mq (t : Task) (n : Nat) (x : Await) : (t.setAwait n x).mq = t.mq := by unfold Task.setAwait; split <;> rfl
@[simp] theorem Task.setAwait_mstart (t : Task) (n : Nat) (x : Await) : (t.setAwait n x).mstart = t.mstart := by unfold Task.setAwait; split <;> rfl
@[simp] theorem Task.setAwait_mwork (t : Task) (n : Nat) (x : Await) : (t.setAwait n x).mwork = t.mwork := by unfold Task.setAwait; split <;> rfl
@[simp] theorem Task.setAwait_mheld (t : Task) (n : Nat) (x : Await) : (t.setAwait n x).mheld = t.mheld := by unfold Task.setAwait; split <;> rfl
@[simp] theorem Task.setAwait_lease (t : Task) (n : Nat) (x : Await) : (t.setAwait n x).lease = t.lease := by unfold Task.setAwait; split <;> rfl
@[simp] theorem Task.setAwait_cq (t : Task) (n : Nat) (x : Await) : (t.setAwait n x).cq = t.cq := by unfold Task.setAwait; split <;> rfl
@[simp] theorem Task.setAwait_pb (t : Task) (n : Nat) (x : Await) : (t.setAwait n x).pb = t.pb := by unfold Task.setAwait; split <;> rfl
@[simp] theorem Task.setAwait_seqA (t : Task) (n : Nat) (x : Await) : (t.setAwait n x).seqA = t.seqA := by unfold Task.setAwait; split <;> rfl
@[simp] theorem Task.setAwait_seqX (t : Task) (n : Nat) (x : Await) : (t.setAwait n x).seqX = t.seqX := by unfold Task.setAwait; split <;> rfl
@[simp] theorem Task.setAwait_stores (t : Task) (n : Nat) (x : Await) : (t.setAwait n x).stores = t.stores := by unfold Task.setAwait; split <;> rfl
@[simp] theorem Task.setAwait_loads (t : Task) (n : Nat) (x : Await) : (t.setAwait n x).loads = t.loads := by unfold Task.setAwait; split <;> rfl
@[simp] theorem Task.setAwait_atomics (t : Task) (n : Nat) (x : Await) : (t.setAwait n x).atomics = t.atomics := by unfold Task.setAwait; split <;> rfl
@[simp] theorem Task.setAwait_vatom (t : Task) (n : Nat) (x : Await) : (t.setAwait n x).vatom = t.vatom := by unfold Task.setAwait; split <;> rfl
@[simp] theorem Task.setAwait_owed (t : Task) (n : Nat) (x : Await) : (t.setAwait n x).owed = t.owed := by unfold Task.setAwait; split <;> rfl
@[simp] theorem Task.setAwait_port (t : Task) (n : Nat) (x : Await) : (t.setAwait n x).port = t.port := by unfold Task.setAwait; split <;> rfl
@[simp] theorem Task.setAwait_push (t : Task) (n : Nat) (x : Await) : (t.setAwait n x).push = t.push := by unfold Task.setAwait; split <;> rfl

@[simp] theorem Task.setQueue_uid (t : Task) (n : Nat) (x : QState) : (t.setQueue n x).uid = t.uid := rfl
@[simp] theorem Task.setQueue_kid (t : Task) (n : Nat) (x : QState) : (t.setQueue n x).kid = t.kid := rfl
@[simp] theorem Task.setQueue_ctx (t : Task) (n : Nat) (x : QState) : (t.setQueue n x).ctx = t.ctx := rfl
@[simp] theorem Task.setQueue_part (t : Task) (n : Nat) (x : QState) : (t.setQueue n x).part = t.part := rfl
@[simp] theorem Task.setQueue_record (t : Task) (n : Nat) (x : QState) : (t.setQueue n x).record = t.record := rfl
@[simp] theorem Task.setQueue_frameOk (t : Task) (n : Nat) (x : QState) : (t.setQueue n x).frameOk = t.frameOk := rfl
@[simp] theorem Task.setQueue_partw (t : Task) (n : Nat) (x : QState) : (t.setQueue n x).partw = t.partw := rfl
@[simp] theorem Task.setQueue_doms (t : Task) (n : Nat) (x : QState) : (t.setQueue n x).doms = t.doms := rfl
@[simp] theorem Task.setQueue_a (t : Task) (n : Nat) (x : QState) : (t.setQueue n x).a = t.a := rfl
@[simp] theorem Task.setQueue_aAwait (t : Task) (n : Nat) (x : QState) : (t.setQueue n x).aAwait = t.aAwait := rfl
@[simp] theorem Task.setQueue_k (t : Task) (n : Nat) (x : QState) : (t.setQueue n x).k = t.k := rfl
@[simp] theorem Task.setQueue_names (t : Task) (n : Nat) (x : QState) : (t.setQueue n x).names = t.names := rfl
@[simp] theorem Task.setQueue_nstX (t : Task) (n : Nat) (x : QState) : (t.setQueue n x).nstX = t.nstX := rfl
@[simp] theorem Task.setQueue_sr (t : Task) (n : Nat) (x : QState) : (t.setQueue n x).sr = t.sr := rfl
@[simp] theorem Task.setQueue_m (t : Task) (n : Nat) (x : QState) : (t.setQueue n x).m = t.m := rfl
@[simp] theorem Task.setQueue_qfmt (t : Task) (n : Nat) (x : QState) : (t.setQueue n x).qfmt = t.qfmt := rfl
@[simp] theorem Task.setQueue_zexp (t : Task) (n : Nat) (x : QState) : (t.setQueue n x).zexp = t.zexp := rfl
@[simp] theorem Task.setQueue_zpw (t : Task) (n : Nat) (x : QState) : (t.setQueue n x).zpw = t.zpw := rfl
@[simp] theorem Task.setQueue_slipw (t : Task) (n : Nat) (x : QState) : (t.setQueue n x).slipw = t.slipw := rfl
@[simp] theorem Task.setQueue_stat (t : Task) (n : Nat) (x : QState) : (t.setQueue n x).stat = t.stat := rfl
@[simp] theorem Task.setQueue_tks (t : Task) (n : Nat) (x : QState) : (t.setQueue n x).tks = t.tks := rfl
@[simp] theorem Task.setQueue_vst (t : Task) (n : Nat) (x : QState) : (t.setQueue n x).vst = t.vst := rfl
@[simp] theorem Task.setQueue_zst (t : Task) (n : Nat) (x : QState) : (t.setQueue n x).zst = t.zst := rfl
@[simp] theorem Task.setQueue_raised (t : Task) (n : Nat) (x : QState) : (t.setQueue n x).raised = t.raised := rfl
@[simp] theorem Task.setQueue_spk (t : Task) (n : Nat) (x : QState) : (t.setQueue n x).spk = t.spk := rfl
@[simp] theorem Task.setQueue_spov (t : Task) (n : Nat) (x : QState) : (t.setQueue n x).spov = t.spov := rfl
@[simp] theorem Task.setQueue_dqb (t : Task) (n : Nat) (x : QState) : (t.setQueue n x).dqb = t.dqb := rfl
@[simp] theorem Task.setQueue_dql (t : Task) (n : Nat) (x : QState) : (t.setQueue n x).dql = t.dql := rfl
@[simp] theorem Task.setQueue_dqHead (t : Task) (n : Nat) (x : QState) : (t.setQueue n x).dqHead = t.dqHead := rfl
@[simp] theorem Task.setQueue_dqCount (t : Task) (n : Nat) (x : QState) : (t.setQueue n x).dqCount = t.dqCount := rfl
@[simp] theorem Task.setQueue_mprog (t : Task) (n : Nat) (x : QState) : (t.setQueue n x).mprog = t.mprog := rfl
@[simp] theorem Task.setQueue_yreq (t : Task) (n : Nat) (x : QState) : (t.setQueue n x).yreq = t.yreq := rfl
@[simp] theorem Task.setQueue_yseen (t : Task) (n : Nat) (x : QState) : (t.setQueue n x).yseen = t.yseen := rfl
@[simp] theorem Task.setQueue_ycause (t : Task) (n : Nat) (x : QState) : (t.setQueue n x).ycause = t.ycause := rfl
@[simp] theorem Task.setQueue_bins (t : Task) (n : Nat) (x : QState) : (t.setQueue n x).bins = t.bins := rfl
@[simp] theorem Task.setQueue_flags (t : Task) (n : Nat) (x : QState) : (t.setQueue n x).flags = t.flags := rfl
@[simp] theorem Task.setQueue_setters (t : Task) (n : Nat) (x : QState) : (t.setQueue n x).setters = t.setters := rfl
@[simp] theorem Task.setQueue_streams (t : Task) (n : Nat) (x : QState) : (t.setQueue n x).streams = t.streams := rfl
@[simp] theorem Task.setQueue_mq (t : Task) (n : Nat) (x : QState) : (t.setQueue n x).mq = t.mq := rfl
@[simp] theorem Task.setQueue_mstart (t : Task) (n : Nat) (x : QState) : (t.setQueue n x).mstart = t.mstart := rfl
@[simp] theorem Task.setQueue_mwork (t : Task) (n : Nat) (x : QState) : (t.setQueue n x).mwork = t.mwork := rfl
@[simp] theorem Task.setQueue_mheld (t : Task) (n : Nat) (x : QState) : (t.setQueue n x).mheld = t.mheld := rfl
@[simp] theorem Task.setQueue_lease (t : Task) (n : Nat) (x : QState) : (t.setQueue n x).lease = t.lease := rfl
@[simp] theorem Task.setQueue_cq (t : Task) (n : Nat) (x : QState) : (t.setQueue n x).cq = t.cq := rfl
@[simp] theorem Task.setQueue_pb (t : Task) (n : Nat) (x : QState) : (t.setQueue n x).pb = t.pb := rfl
@[simp] theorem Task.setQueue_seqA (t : Task) (n : Nat) (x : QState) : (t.setQueue n x).seqA = t.seqA := rfl
@[simp] theorem Task.setQueue_seqX (t : Task) (n : Nat) (x : QState) : (t.setQueue n x).seqX = t.seqX := rfl
@[simp] theorem Task.setQueue_stores (t : Task) (n : Nat) (x : QState) : (t.setQueue n x).stores = t.stores := rfl
@[simp] theorem Task.setQueue_loads (t : Task) (n : Nat) (x : QState) : (t.setQueue n x).loads = t.loads := rfl
@[simp] theorem Task.setQueue_atomics (t : Task) (n : Nat) (x : QState) : (t.setQueue n x).atomics = t.atomics := rfl
@[simp] theorem Task.setQueue_vatom (t : Task) (n : Nat) (x : QState) : (t.setQueue n x).vatom = t.vatom := rfl
@[simp] theorem Task.setQueue_owed (t : Task) (n : Nat) (x : QState) : (t.setQueue n x).owed = t.owed := rfl
@[simp] theorem Task.setQueue_port (t : Task) (n : Nat) (x : QState) : (t.setQueue n x).port = t.port := rfl
@[simp] theorem Task.setQueue_push (t : Task) (n : Nat) (x : QState) : (t.setQueue n x).push = t.push := rfl

@[simp] theorem Task.setFlag_uid (t : Task) (f : BitVec 8) (x : Flag) : (t.setFlag f x).uid = t.uid := rfl
@[simp] theorem Task.setFlag_kid (t : Task) (f : BitVec 8) (x : Flag) : (t.setFlag f x).kid = t.kid := rfl
@[simp] theorem Task.setFlag_ctx (t : Task) (f : BitVec 8) (x : Flag) : (t.setFlag f x).ctx = t.ctx := rfl
@[simp] theorem Task.setFlag_part (t : Task) (f : BitVec 8) (x : Flag) : (t.setFlag f x).part = t.part := rfl
@[simp] theorem Task.setFlag_record (t : Task) (f : BitVec 8) (x : Flag) : (t.setFlag f x).record = t.record := rfl
@[simp] theorem Task.setFlag_frameOk (t : Task) (f : BitVec 8) (x : Flag) : (t.setFlag f x).frameOk = t.frameOk := rfl
@[simp] theorem Task.setFlag_partw (t : Task) (f : BitVec 8) (x : Flag) : (t.setFlag f x).partw = t.partw := rfl
@[simp] theorem Task.setFlag_doms (t : Task) (f : BitVec 8) (x : Flag) : (t.setFlag f x).doms = t.doms := rfl
@[simp] theorem Task.setFlag_a (t : Task) (f : BitVec 8) (x : Flag) : (t.setFlag f x).a = t.a := rfl
@[simp] theorem Task.setFlag_aAwait (t : Task) (f : BitVec 8) (x : Flag) : (t.setFlag f x).aAwait = t.aAwait := rfl
@[simp] theorem Task.setFlag_k (t : Task) (f : BitVec 8) (x : Flag) : (t.setFlag f x).k = t.k := rfl
@[simp] theorem Task.setFlag_names (t : Task) (f : BitVec 8) (x : Flag) : (t.setFlag f x).names = t.names := rfl
@[simp] theorem Task.setFlag_nstX (t : Task) (f : BitVec 8) (x : Flag) : (t.setFlag f x).nstX = t.nstX := rfl
@[simp] theorem Task.setFlag_sr (t : Task) (f : BitVec 8) (x : Flag) : (t.setFlag f x).sr = t.sr := rfl
@[simp] theorem Task.setFlag_m (t : Task) (f : BitVec 8) (x : Flag) : (t.setFlag f x).m = t.m := rfl
@[simp] theorem Task.setFlag_q (t : Task) (f : BitVec 8) (x : Flag) : (t.setFlag f x).q = t.q := rfl
@[simp] theorem Task.setFlag_qfmt (t : Task) (f : BitVec 8) (x : Flag) : (t.setFlag f x).qfmt = t.qfmt := rfl
@[simp] theorem Task.setFlag_zexp (t : Task) (f : BitVec 8) (x : Flag) : (t.setFlag f x).zexp = t.zexp := rfl
@[simp] theorem Task.setFlag_zpw (t : Task) (f : BitVec 8) (x : Flag) : (t.setFlag f x).zpw = t.zpw := rfl
@[simp] theorem Task.setFlag_slipw (t : Task) (f : BitVec 8) (x : Flag) : (t.setFlag f x).slipw = t.slipw := rfl
@[simp] theorem Task.setFlag_stat (t : Task) (f : BitVec 8) (x : Flag) : (t.setFlag f x).stat = t.stat := rfl
@[simp] theorem Task.setFlag_tks (t : Task) (f : BitVec 8) (x : Flag) : (t.setFlag f x).tks = t.tks := rfl
@[simp] theorem Task.setFlag_vst (t : Task) (f : BitVec 8) (x : Flag) : (t.setFlag f x).vst = t.vst := rfl
@[simp] theorem Task.setFlag_zst (t : Task) (f : BitVec 8) (x : Flag) : (t.setFlag f x).zst = t.zst := rfl
@[simp] theorem Task.setFlag_raised (t : Task) (f : BitVec 8) (x : Flag) : (t.setFlag f x).raised = t.raised := rfl
@[simp] theorem Task.setFlag_spk (t : Task) (f : BitVec 8) (x : Flag) : (t.setFlag f x).spk = t.spk := rfl
@[simp] theorem Task.setFlag_spov (t : Task) (f : BitVec 8) (x : Flag) : (t.setFlag f x).spov = t.spov := rfl
@[simp] theorem Task.setFlag_dqb (t : Task) (f : BitVec 8) (x : Flag) : (t.setFlag f x).dqb = t.dqb := rfl
@[simp] theorem Task.setFlag_dql (t : Task) (f : BitVec 8) (x : Flag) : (t.setFlag f x).dql = t.dql := rfl
@[simp] theorem Task.setFlag_dqHead (t : Task) (f : BitVec 8) (x : Flag) : (t.setFlag f x).dqHead = t.dqHead := rfl
@[simp] theorem Task.setFlag_dqCount (t : Task) (f : BitVec 8) (x : Flag) : (t.setFlag f x).dqCount = t.dqCount := rfl
@[simp] theorem Task.setFlag_mprog (t : Task) (f : BitVec 8) (x : Flag) : (t.setFlag f x).mprog = t.mprog := rfl
@[simp] theorem Task.setFlag_yreq (t : Task) (f : BitVec 8) (x : Flag) : (t.setFlag f x).yreq = t.yreq := rfl
@[simp] theorem Task.setFlag_yseen (t : Task) (f : BitVec 8) (x : Flag) : (t.setFlag f x).yseen = t.yseen := rfl
@[simp] theorem Task.setFlag_ycause (t : Task) (f : BitVec 8) (x : Flag) : (t.setFlag f x).ycause = t.ycause := rfl
@[simp] theorem Task.setFlag_bins (t : Task) (f : BitVec 8) (x : Flag) : (t.setFlag f x).bins = t.bins := rfl
@[simp] theorem Task.setFlag_setters (t : Task) (f : BitVec 8) (x : Flag) : (t.setFlag f x).setters = t.setters := rfl
@[simp] theorem Task.setFlag_streams (t : Task) (f : BitVec 8) (x : Flag) : (t.setFlag f x).streams = t.streams := rfl
@[simp] theorem Task.setFlag_mq (t : Task) (f : BitVec 8) (x : Flag) : (t.setFlag f x).mq = t.mq := rfl
@[simp] theorem Task.setFlag_mstart (t : Task) (f : BitVec 8) (x : Flag) : (t.setFlag f x).mstart = t.mstart := rfl
@[simp] theorem Task.setFlag_mwork (t : Task) (f : BitVec 8) (x : Flag) : (t.setFlag f x).mwork = t.mwork := rfl
@[simp] theorem Task.setFlag_mheld (t : Task) (f : BitVec 8) (x : Flag) : (t.setFlag f x).mheld = t.mheld := rfl
@[simp] theorem Task.setFlag_lease (t : Task) (f : BitVec 8) (x : Flag) : (t.setFlag f x).lease = t.lease := rfl
@[simp] theorem Task.setFlag_cq (t : Task) (f : BitVec 8) (x : Flag) : (t.setFlag f x).cq = t.cq := rfl
@[simp] theorem Task.setFlag_pb (t : Task) (f : BitVec 8) (x : Flag) : (t.setFlag f x).pb = t.pb := rfl
@[simp] theorem Task.setFlag_seqA (t : Task) (f : BitVec 8) (x : Flag) : (t.setFlag f x).seqA = t.seqA := rfl
@[simp] theorem Task.setFlag_seqX (t : Task) (f : BitVec 8) (x : Flag) : (t.setFlag f x).seqX = t.seqX := rfl
@[simp] theorem Task.setFlag_stores (t : Task) (f : BitVec 8) (x : Flag) : (t.setFlag f x).stores = t.stores := rfl
@[simp] theorem Task.setFlag_loads (t : Task) (f : BitVec 8) (x : Flag) : (t.setFlag f x).loads = t.loads := rfl
@[simp] theorem Task.setFlag_atomics (t : Task) (f : BitVec 8) (x : Flag) : (t.setFlag f x).atomics = t.atomics := rfl
@[simp] theorem Task.setFlag_vatom (t : Task) (f : BitVec 8) (x : Flag) : (t.setFlag f x).vatom = t.vatom := rfl
@[simp] theorem Task.setFlag_owed (t : Task) (f : BitVec 8) (x : Flag) : (t.setFlag f x).owed = t.owed := rfl
@[simp] theorem Task.setFlag_port (t : Task) (f : BitVec 8) (x : Flag) : (t.setFlag f x).port = t.port := rfl
@[simp] theorem Task.setFlag_push (t : Task) (f : BitVec 8) (x : Flag) : (t.setFlag f x).push = t.push := rfl

@[simp] theorem Task.raiseStat_uid (t : Task) (b : BitVec 7) : (t.raiseStat b).uid = t.uid := rfl
@[simp] theorem Task.raiseStat_kid (t : Task) (b : BitVec 7) : (t.raiseStat b).kid = t.kid := rfl
@[simp] theorem Task.raiseStat_ctx (t : Task) (b : BitVec 7) : (t.raiseStat b).ctx = t.ctx := rfl
@[simp] theorem Task.raiseStat_part (t : Task) (b : BitVec 7) : (t.raiseStat b).part = t.part := rfl
@[simp] theorem Task.raiseStat_record (t : Task) (b : BitVec 7) : (t.raiseStat b).record = t.record := rfl
@[simp] theorem Task.raiseStat_frameOk (t : Task) (b : BitVec 7) : (t.raiseStat b).frameOk = t.frameOk := rfl
@[simp] theorem Task.raiseStat_partw (t : Task) (b : BitVec 7) : (t.raiseStat b).partw = t.partw := rfl
@[simp] theorem Task.raiseStat_doms (t : Task) (b : BitVec 7) : (t.raiseStat b).doms = t.doms := rfl
@[simp] theorem Task.raiseStat_a (t : Task) (b : BitVec 7) : (t.raiseStat b).a = t.a := rfl
@[simp] theorem Task.raiseStat_aAwait (t : Task) (b : BitVec 7) : (t.raiseStat b).aAwait = t.aAwait := rfl
@[simp] theorem Task.raiseStat_k (t : Task) (b : BitVec 7) : (t.raiseStat b).k = t.k := rfl
@[simp] theorem Task.raiseStat_names (t : Task) (b : BitVec 7) : (t.raiseStat b).names = t.names := rfl
@[simp] theorem Task.raiseStat_nstX (t : Task) (b : BitVec 7) : (t.raiseStat b).nstX = t.nstX := rfl
@[simp] theorem Task.raiseStat_sr (t : Task) (b : BitVec 7) : (t.raiseStat b).sr = t.sr := rfl
@[simp] theorem Task.raiseStat_m (t : Task) (b : BitVec 7) : (t.raiseStat b).m = t.m := rfl
@[simp] theorem Task.raiseStat_q (t : Task) (b : BitVec 7) : (t.raiseStat b).q = t.q := rfl
@[simp] theorem Task.raiseStat_qfmt (t : Task) (b : BitVec 7) : (t.raiseStat b).qfmt = t.qfmt := rfl
@[simp] theorem Task.raiseStat_zexp (t : Task) (b : BitVec 7) : (t.raiseStat b).zexp = t.zexp := rfl
@[simp] theorem Task.raiseStat_zpw (t : Task) (b : BitVec 7) : (t.raiseStat b).zpw = t.zpw := rfl
@[simp] theorem Task.raiseStat_slipw (t : Task) (b : BitVec 7) : (t.raiseStat b).slipw = t.slipw := rfl
@[simp] theorem Task.raiseStat_tks (t : Task) (b : BitVec 7) : (t.raiseStat b).tks = t.tks := rfl
@[simp] theorem Task.raiseStat_vst (t : Task) (b : BitVec 7) : (t.raiseStat b).vst = t.vst := rfl
@[simp] theorem Task.raiseStat_zst (t : Task) (b : BitVec 7) : (t.raiseStat b).zst = t.zst := rfl
@[simp] theorem Task.raiseStat_spk (t : Task) (b : BitVec 7) : (t.raiseStat b).spk = t.spk := rfl
@[simp] theorem Task.raiseStat_spov (t : Task) (b : BitVec 7) : (t.raiseStat b).spov = t.spov := rfl
@[simp] theorem Task.raiseStat_dqb (t : Task) (b : BitVec 7) : (t.raiseStat b).dqb = t.dqb := rfl
@[simp] theorem Task.raiseStat_dql (t : Task) (b : BitVec 7) : (t.raiseStat b).dql = t.dql := rfl
@[simp] theorem Task.raiseStat_dqHead (t : Task) (b : BitVec 7) : (t.raiseStat b).dqHead = t.dqHead := rfl
@[simp] theorem Task.raiseStat_dqCount (t : Task) (b : BitVec 7) : (t.raiseStat b).dqCount = t.dqCount := rfl
@[simp] theorem Task.raiseStat_mprog (t : Task) (b : BitVec 7) : (t.raiseStat b).mprog = t.mprog := rfl
@[simp] theorem Task.raiseStat_yreq (t : Task) (b : BitVec 7) : (t.raiseStat b).yreq = t.yreq := rfl
@[simp] theorem Task.raiseStat_yseen (t : Task) (b : BitVec 7) : (t.raiseStat b).yseen = t.yseen := rfl
@[simp] theorem Task.raiseStat_ycause (t : Task) (b : BitVec 7) : (t.raiseStat b).ycause = t.ycause := rfl
@[simp] theorem Task.raiseStat_bins (t : Task) (b : BitVec 7) : (t.raiseStat b).bins = t.bins := rfl
@[simp] theorem Task.raiseStat_flags (t : Task) (b : BitVec 7) : (t.raiseStat b).flags = t.flags := rfl
@[simp] theorem Task.raiseStat_setters (t : Task) (b : BitVec 7) : (t.raiseStat b).setters = t.setters := rfl
@[simp] theorem Task.raiseStat_streams (t : Task) (b : BitVec 7) : (t.raiseStat b).streams = t.streams := rfl
@[simp] theorem Task.raiseStat_mq (t : Task) (b : BitVec 7) : (t.raiseStat b).mq = t.mq := rfl
@[simp] theorem Task.raiseStat_mstart (t : Task) (b : BitVec 7) : (t.raiseStat b).mstart = t.mstart := rfl
@[simp] theorem Task.raiseStat_mwork (t : Task) (b : BitVec 7) : (t.raiseStat b).mwork = t.mwork := rfl
@[simp] theorem Task.raiseStat_mheld (t : Task) (b : BitVec 7) : (t.raiseStat b).mheld = t.mheld := rfl
@[simp] theorem Task.raiseStat_lease (t : Task) (b : BitVec 7) : (t.raiseStat b).lease = t.lease := rfl
@[simp] theorem Task.raiseStat_cq (t : Task) (b : BitVec 7) : (t.raiseStat b).cq = t.cq := rfl
@[simp] theorem Task.raiseStat_pb (t : Task) (b : BitVec 7) : (t.raiseStat b).pb = t.pb := rfl
@[simp] theorem Task.raiseStat_seqA (t : Task) (b : BitVec 7) : (t.raiseStat b).seqA = t.seqA := rfl
@[simp] theorem Task.raiseStat_seqX (t : Task) (b : BitVec 7) : (t.raiseStat b).seqX = t.seqX := rfl
@[simp] theorem Task.raiseStat_stores (t : Task) (b : BitVec 7) : (t.raiseStat b).stores = t.stores := rfl
@[simp] theorem Task.raiseStat_loads (t : Task) (b : BitVec 7) : (t.raiseStat b).loads = t.loads := rfl
@[simp] theorem Task.raiseStat_atomics (t : Task) (b : BitVec 7) : (t.raiseStat b).atomics = t.atomics := rfl
@[simp] theorem Task.raiseStat_vatom (t : Task) (b : BitVec 7) : (t.raiseStat b).vatom = t.vatom := rfl
@[simp] theorem Task.raiseStat_owed (t : Task) (b : BitVec 7) : (t.raiseStat b).owed = t.owed := rfl
@[simp] theorem Task.raiseStat_port (t : Task) (b : BitVec 7) : (t.raiseStat b).port = t.port := rfl
@[simp] theorem Task.raiseStat_push (t : Task) (b : BitVec 7) : (t.raiseStat b).push = t.push := rfl

@[simp] theorem Task.raiseTks_uid (t : Task) (b : BitVec 6) : (t.raiseTks b).uid = t.uid := rfl
@[simp] theorem Task.raiseTks_kid (t : Task) (b : BitVec 6) : (t.raiseTks b).kid = t.kid := rfl
@[simp] theorem Task.raiseTks_ctx (t : Task) (b : BitVec 6) : (t.raiseTks b).ctx = t.ctx := rfl
@[simp] theorem Task.raiseTks_part (t : Task) (b : BitVec 6) : (t.raiseTks b).part = t.part := rfl
@[simp] theorem Task.raiseTks_record (t : Task) (b : BitVec 6) : (t.raiseTks b).record = t.record := rfl
@[simp] theorem Task.raiseTks_frameOk (t : Task) (b : BitVec 6) : (t.raiseTks b).frameOk = t.frameOk := rfl
@[simp] theorem Task.raiseTks_partw (t : Task) (b : BitVec 6) : (t.raiseTks b).partw = t.partw := rfl
@[simp] theorem Task.raiseTks_doms (t : Task) (b : BitVec 6) : (t.raiseTks b).doms = t.doms := rfl
@[simp] theorem Task.raiseTks_a (t : Task) (b : BitVec 6) : (t.raiseTks b).a = t.a := rfl
@[simp] theorem Task.raiseTks_aAwait (t : Task) (b : BitVec 6) : (t.raiseTks b).aAwait = t.aAwait := rfl
@[simp] theorem Task.raiseTks_k (t : Task) (b : BitVec 6) : (t.raiseTks b).k = t.k := rfl
@[simp] theorem Task.raiseTks_names (t : Task) (b : BitVec 6) : (t.raiseTks b).names = t.names := rfl
@[simp] theorem Task.raiseTks_nstX (t : Task) (b : BitVec 6) : (t.raiseTks b).nstX = t.nstX := rfl
@[simp] theorem Task.raiseTks_sr (t : Task) (b : BitVec 6) : (t.raiseTks b).sr = t.sr := rfl
@[simp] theorem Task.raiseTks_m (t : Task) (b : BitVec 6) : (t.raiseTks b).m = t.m := rfl
@[simp] theorem Task.raiseTks_q (t : Task) (b : BitVec 6) : (t.raiseTks b).q = t.q := rfl
@[simp] theorem Task.raiseTks_qfmt (t : Task) (b : BitVec 6) : (t.raiseTks b).qfmt = t.qfmt := rfl
@[simp] theorem Task.raiseTks_zexp (t : Task) (b : BitVec 6) : (t.raiseTks b).zexp = t.zexp := rfl
@[simp] theorem Task.raiseTks_zpw (t : Task) (b : BitVec 6) : (t.raiseTks b).zpw = t.zpw := rfl
@[simp] theorem Task.raiseTks_slipw (t : Task) (b : BitVec 6) : (t.raiseTks b).slipw = t.slipw := rfl
@[simp] theorem Task.raiseTks_stat (t : Task) (b : BitVec 6) : (t.raiseTks b).stat = t.stat := rfl
@[simp] theorem Task.raiseTks_vst (t : Task) (b : BitVec 6) : (t.raiseTks b).vst = t.vst := rfl
@[simp] theorem Task.raiseTks_zst (t : Task) (b : BitVec 6) : (t.raiseTks b).zst = t.zst := rfl
@[simp] theorem Task.raiseTks_spk (t : Task) (b : BitVec 6) : (t.raiseTks b).spk = t.spk := rfl
@[simp] theorem Task.raiseTks_spov (t : Task) (b : BitVec 6) : (t.raiseTks b).spov = t.spov := rfl
@[simp] theorem Task.raiseTks_dqb (t : Task) (b : BitVec 6) : (t.raiseTks b).dqb = t.dqb := rfl
@[simp] theorem Task.raiseTks_dql (t : Task) (b : BitVec 6) : (t.raiseTks b).dql = t.dql := rfl
@[simp] theorem Task.raiseTks_dqHead (t : Task) (b : BitVec 6) : (t.raiseTks b).dqHead = t.dqHead := rfl
@[simp] theorem Task.raiseTks_dqCount (t : Task) (b : BitVec 6) : (t.raiseTks b).dqCount = t.dqCount := rfl
@[simp] theorem Task.raiseTks_mprog (t : Task) (b : BitVec 6) : (t.raiseTks b).mprog = t.mprog := rfl
@[simp] theorem Task.raiseTks_yreq (t : Task) (b : BitVec 6) : (t.raiseTks b).yreq = t.yreq := rfl
@[simp] theorem Task.raiseTks_yseen (t : Task) (b : BitVec 6) : (t.raiseTks b).yseen = t.yseen := rfl
@[simp] theorem Task.raiseTks_ycause (t : Task) (b : BitVec 6) : (t.raiseTks b).ycause = t.ycause := rfl
@[simp] theorem Task.raiseTks_bins (t : Task) (b : BitVec 6) : (t.raiseTks b).bins = t.bins := rfl
@[simp] theorem Task.raiseTks_flags (t : Task) (b : BitVec 6) : (t.raiseTks b).flags = t.flags := rfl
@[simp] theorem Task.raiseTks_setters (t : Task) (b : BitVec 6) : (t.raiseTks b).setters = t.setters := rfl
@[simp] theorem Task.raiseTks_streams (t : Task) (b : BitVec 6) : (t.raiseTks b).streams = t.streams := rfl
@[simp] theorem Task.raiseTks_mq (t : Task) (b : BitVec 6) : (t.raiseTks b).mq = t.mq := rfl
@[simp] theorem Task.raiseTks_mstart (t : Task) (b : BitVec 6) : (t.raiseTks b).mstart = t.mstart := rfl
@[simp] theorem Task.raiseTks_mwork (t : Task) (b : BitVec 6) : (t.raiseTks b).mwork = t.mwork := rfl
@[simp] theorem Task.raiseTks_mheld (t : Task) (b : BitVec 6) : (t.raiseTks b).mheld = t.mheld := rfl
@[simp] theorem Task.raiseTks_lease (t : Task) (b : BitVec 6) : (t.raiseTks b).lease = t.lease := rfl
@[simp] theorem Task.raiseTks_cq (t : Task) (b : BitVec 6) : (t.raiseTks b).cq = t.cq := rfl
@[simp] theorem Task.raiseTks_pb (t : Task) (b : BitVec 6) : (t.raiseTks b).pb = t.pb := rfl
@[simp] theorem Task.raiseTks_seqA (t : Task) (b : BitVec 6) : (t.raiseTks b).seqA = t.seqA := rfl
@[simp] theorem Task.raiseTks_seqX (t : Task) (b : BitVec 6) : (t.raiseTks b).seqX = t.seqX := rfl
@[simp] theorem Task.raiseTks_stores (t : Task) (b : BitVec 6) : (t.raiseTks b).stores = t.stores := rfl
@[simp] theorem Task.raiseTks_loads (t : Task) (b : BitVec 6) : (t.raiseTks b).loads = t.loads := rfl
@[simp] theorem Task.raiseTks_atomics (t : Task) (b : BitVec 6) : (t.raiseTks b).atomics = t.atomics := rfl
@[simp] theorem Task.raiseTks_vatom (t : Task) (b : BitVec 6) : (t.raiseTks b).vatom = t.vatom := rfl
@[simp] theorem Task.raiseTks_owed (t : Task) (b : BitVec 6) : (t.raiseTks b).owed = t.owed := rfl
@[simp] theorem Task.raiseTks_port (t : Task) (b : BitVec 6) : (t.raiseTks b).port = t.port := rfl
@[simp] theorem Task.raiseTks_push (t : Task) (b : BitVec 6) : (t.raiseTks b).push = t.push := rfl

@[simp] theorem Task.raiseVst_uid (t : Task) (b : BitVec 3) : (t.raiseVst b).uid = t.uid := rfl
@[simp] theorem Task.raiseVst_kid (t : Task) (b : BitVec 3) : (t.raiseVst b).kid = t.kid := rfl
@[simp] theorem Task.raiseVst_ctx (t : Task) (b : BitVec 3) : (t.raiseVst b).ctx = t.ctx := rfl
@[simp] theorem Task.raiseVst_part (t : Task) (b : BitVec 3) : (t.raiseVst b).part = t.part := rfl
@[simp] theorem Task.raiseVst_record (t : Task) (b : BitVec 3) : (t.raiseVst b).record = t.record := rfl
@[simp] theorem Task.raiseVst_frameOk (t : Task) (b : BitVec 3) : (t.raiseVst b).frameOk = t.frameOk := rfl
@[simp] theorem Task.raiseVst_partw (t : Task) (b : BitVec 3) : (t.raiseVst b).partw = t.partw := rfl
@[simp] theorem Task.raiseVst_doms (t : Task) (b : BitVec 3) : (t.raiseVst b).doms = t.doms := rfl
@[simp] theorem Task.raiseVst_a (t : Task) (b : BitVec 3) : (t.raiseVst b).a = t.a := rfl
@[simp] theorem Task.raiseVst_aAwait (t : Task) (b : BitVec 3) : (t.raiseVst b).aAwait = t.aAwait := rfl
@[simp] theorem Task.raiseVst_k (t : Task) (b : BitVec 3) : (t.raiseVst b).k = t.k := rfl
@[simp] theorem Task.raiseVst_names (t : Task) (b : BitVec 3) : (t.raiseVst b).names = t.names := rfl
@[simp] theorem Task.raiseVst_nstX (t : Task) (b : BitVec 3) : (t.raiseVst b).nstX = t.nstX := rfl
@[simp] theorem Task.raiseVst_sr (t : Task) (b : BitVec 3) : (t.raiseVst b).sr = t.sr := rfl
@[simp] theorem Task.raiseVst_m (t : Task) (b : BitVec 3) : (t.raiseVst b).m = t.m := rfl
@[simp] theorem Task.raiseVst_q (t : Task) (b : BitVec 3) : (t.raiseVst b).q = t.q := rfl
@[simp] theorem Task.raiseVst_qfmt (t : Task) (b : BitVec 3) : (t.raiseVst b).qfmt = t.qfmt := rfl
@[simp] theorem Task.raiseVst_zexp (t : Task) (b : BitVec 3) : (t.raiseVst b).zexp = t.zexp := rfl
@[simp] theorem Task.raiseVst_zpw (t : Task) (b : BitVec 3) : (t.raiseVst b).zpw = t.zpw := rfl
@[simp] theorem Task.raiseVst_slipw (t : Task) (b : BitVec 3) : (t.raiseVst b).slipw = t.slipw := rfl
@[simp] theorem Task.raiseVst_stat (t : Task) (b : BitVec 3) : (t.raiseVst b).stat = t.stat := rfl
@[simp] theorem Task.raiseVst_tks (t : Task) (b : BitVec 3) : (t.raiseVst b).tks = t.tks := rfl
@[simp] theorem Task.raiseVst_zst (t : Task) (b : BitVec 3) : (t.raiseVst b).zst = t.zst := rfl
@[simp] theorem Task.raiseVst_spk (t : Task) (b : BitVec 3) : (t.raiseVst b).spk = t.spk := rfl
@[simp] theorem Task.raiseVst_spov (t : Task) (b : BitVec 3) : (t.raiseVst b).spov = t.spov := rfl
@[simp] theorem Task.raiseVst_dqb (t : Task) (b : BitVec 3) : (t.raiseVst b).dqb = t.dqb := rfl
@[simp] theorem Task.raiseVst_dql (t : Task) (b : BitVec 3) : (t.raiseVst b).dql = t.dql := rfl
@[simp] theorem Task.raiseVst_dqHead (t : Task) (b : BitVec 3) : (t.raiseVst b).dqHead = t.dqHead := rfl
@[simp] theorem Task.raiseVst_dqCount (t : Task) (b : BitVec 3) : (t.raiseVst b).dqCount = t.dqCount := rfl
@[simp] theorem Task.raiseVst_mprog (t : Task) (b : BitVec 3) : (t.raiseVst b).mprog = t.mprog := rfl
@[simp] theorem Task.raiseVst_yreq (t : Task) (b : BitVec 3) : (t.raiseVst b).yreq = t.yreq := rfl
@[simp] theorem Task.raiseVst_yseen (t : Task) (b : BitVec 3) : (t.raiseVst b).yseen = t.yseen := rfl
@[simp] theorem Task.raiseVst_ycause (t : Task) (b : BitVec 3) : (t.raiseVst b).ycause = t.ycause := rfl
@[simp] theorem Task.raiseVst_bins (t : Task) (b : BitVec 3) : (t.raiseVst b).bins = t.bins := rfl
@[simp] theorem Task.raiseVst_flags (t : Task) (b : BitVec 3) : (t.raiseVst b).flags = t.flags := rfl
@[simp] theorem Task.raiseVst_setters (t : Task) (b : BitVec 3) : (t.raiseVst b).setters = t.setters := rfl
@[simp] theorem Task.raiseVst_streams (t : Task) (b : BitVec 3) : (t.raiseVst b).streams = t.streams := rfl
@[simp] theorem Task.raiseVst_mq (t : Task) (b : BitVec 3) : (t.raiseVst b).mq = t.mq := rfl
@[simp] theorem Task.raiseVst_mstart (t : Task) (b : BitVec 3) : (t.raiseVst b).mstart = t.mstart := rfl
@[simp] theorem Task.raiseVst_mwork (t : Task) (b : BitVec 3) : (t.raiseVst b).mwork = t.mwork := rfl
@[simp] theorem Task.raiseVst_mheld (t : Task) (b : BitVec 3) : (t.raiseVst b).mheld = t.mheld := rfl
@[simp] theorem Task.raiseVst_lease (t : Task) (b : BitVec 3) : (t.raiseVst b).lease = t.lease := rfl
@[simp] theorem Task.raiseVst_cq (t : Task) (b : BitVec 3) : (t.raiseVst b).cq = t.cq := rfl
@[simp] theorem Task.raiseVst_pb (t : Task) (b : BitVec 3) : (t.raiseVst b).pb = t.pb := rfl
@[simp] theorem Task.raiseVst_seqA (t : Task) (b : BitVec 3) : (t.raiseVst b).seqA = t.seqA := rfl
@[simp] theorem Task.raiseVst_seqX (t : Task) (b : BitVec 3) : (t.raiseVst b).seqX = t.seqX := rfl
@[simp] theorem Task.raiseVst_stores (t : Task) (b : BitVec 3) : (t.raiseVst b).stores = t.stores := rfl
@[simp] theorem Task.raiseVst_loads (t : Task) (b : BitVec 3) : (t.raiseVst b).loads = t.loads := rfl
@[simp] theorem Task.raiseVst_atomics (t : Task) (b : BitVec 3) : (t.raiseVst b).atomics = t.atomics := rfl
@[simp] theorem Task.raiseVst_vatom (t : Task) (b : BitVec 3) : (t.raiseVst b).vatom = t.vatom := rfl
@[simp] theorem Task.raiseVst_owed (t : Task) (b : BitVec 3) : (t.raiseVst b).owed = t.owed := rfl
@[simp] theorem Task.raiseVst_port (t : Task) (b : BitVec 3) : (t.raiseVst b).port = t.port := rfl
@[simp] theorem Task.raiseVst_push (t : Task) (b : BitVec 3) : (t.raiseVst b).push = t.push := rfl

@[simp] theorem Task.raiseZst_uid (t : Task) (b : BitVec 16) : (t.raiseZst b).uid = t.uid := rfl
@[simp] theorem Task.raiseZst_kid (t : Task) (b : BitVec 16) : (t.raiseZst b).kid = t.kid := rfl
@[simp] theorem Task.raiseZst_ctx (t : Task) (b : BitVec 16) : (t.raiseZst b).ctx = t.ctx := rfl
@[simp] theorem Task.raiseZst_part (t : Task) (b : BitVec 16) : (t.raiseZst b).part = t.part := rfl
@[simp] theorem Task.raiseZst_record (t : Task) (b : BitVec 16) : (t.raiseZst b).record = t.record := rfl
@[simp] theorem Task.raiseZst_frameOk (t : Task) (b : BitVec 16) : (t.raiseZst b).frameOk = t.frameOk := rfl
@[simp] theorem Task.raiseZst_partw (t : Task) (b : BitVec 16) : (t.raiseZst b).partw = t.partw := rfl
@[simp] theorem Task.raiseZst_doms (t : Task) (b : BitVec 16) : (t.raiseZst b).doms = t.doms := rfl
@[simp] theorem Task.raiseZst_a (t : Task) (b : BitVec 16) : (t.raiseZst b).a = t.a := rfl
@[simp] theorem Task.raiseZst_aAwait (t : Task) (b : BitVec 16) : (t.raiseZst b).aAwait = t.aAwait := rfl
@[simp] theorem Task.raiseZst_k (t : Task) (b : BitVec 16) : (t.raiseZst b).k = t.k := rfl
@[simp] theorem Task.raiseZst_names (t : Task) (b : BitVec 16) : (t.raiseZst b).names = t.names := rfl
@[simp] theorem Task.raiseZst_nstX (t : Task) (b : BitVec 16) : (t.raiseZst b).nstX = t.nstX := rfl
@[simp] theorem Task.raiseZst_sr (t : Task) (b : BitVec 16) : (t.raiseZst b).sr = t.sr := rfl
@[simp] theorem Task.raiseZst_m (t : Task) (b : BitVec 16) : (t.raiseZst b).m = t.m := rfl
@[simp] theorem Task.raiseZst_q (t : Task) (b : BitVec 16) : (t.raiseZst b).q = t.q := rfl
@[simp] theorem Task.raiseZst_qfmt (t : Task) (b : BitVec 16) : (t.raiseZst b).qfmt = t.qfmt := rfl
@[simp] theorem Task.raiseZst_zexp (t : Task) (b : BitVec 16) : (t.raiseZst b).zexp = t.zexp := rfl
@[simp] theorem Task.raiseZst_zpw (t : Task) (b : BitVec 16) : (t.raiseZst b).zpw = t.zpw := rfl
@[simp] theorem Task.raiseZst_slipw (t : Task) (b : BitVec 16) : (t.raiseZst b).slipw = t.slipw := rfl
@[simp] theorem Task.raiseZst_stat (t : Task) (b : BitVec 16) : (t.raiseZst b).stat = t.stat := rfl
@[simp] theorem Task.raiseZst_tks (t : Task) (b : BitVec 16) : (t.raiseZst b).tks = t.tks := rfl
@[simp] theorem Task.raiseZst_vst (t : Task) (b : BitVec 16) : (t.raiseZst b).vst = t.vst := rfl
@[simp] theorem Task.raiseZst_spk (t : Task) (b : BitVec 16) : (t.raiseZst b).spk = t.spk := rfl
@[simp] theorem Task.raiseZst_spov (t : Task) (b : BitVec 16) : (t.raiseZst b).spov = t.spov := rfl
@[simp] theorem Task.raiseZst_dqb (t : Task) (b : BitVec 16) : (t.raiseZst b).dqb = t.dqb := rfl
@[simp] theorem Task.raiseZst_dql (t : Task) (b : BitVec 16) : (t.raiseZst b).dql = t.dql := rfl
@[simp] theorem Task.raiseZst_dqHead (t : Task) (b : BitVec 16) : (t.raiseZst b).dqHead = t.dqHead := rfl
@[simp] theorem Task.raiseZst_dqCount (t : Task) (b : BitVec 16) : (t.raiseZst b).dqCount = t.dqCount := rfl
@[simp] theorem Task.raiseZst_mprog (t : Task) (b : BitVec 16) : (t.raiseZst b).mprog = t.mprog := rfl
@[simp] theorem Task.raiseZst_yreq (t : Task) (b : BitVec 16) : (t.raiseZst b).yreq = t.yreq := rfl
@[simp] theorem Task.raiseZst_yseen (t : Task) (b : BitVec 16) : (t.raiseZst b).yseen = t.yseen := rfl
@[simp] theorem Task.raiseZst_ycause (t : Task) (b : BitVec 16) : (t.raiseZst b).ycause = t.ycause := rfl
@[simp] theorem Task.raiseZst_bins (t : Task) (b : BitVec 16) : (t.raiseZst b).bins = t.bins := rfl
@[simp] theorem Task.raiseZst_flags (t : Task) (b : BitVec 16) : (t.raiseZst b).flags = t.flags := rfl
@[simp] theorem Task.raiseZst_setters (t : Task) (b : BitVec 16) : (t.raiseZst b).setters = t.setters := rfl
@[simp] theorem Task.raiseZst_streams (t : Task) (b : BitVec 16) : (t.raiseZst b).streams = t.streams := rfl
@[simp] theorem Task.raiseZst_mq (t : Task) (b : BitVec 16) : (t.raiseZst b).mq = t.mq := rfl
@[simp] theorem Task.raiseZst_mstart (t : Task) (b : BitVec 16) : (t.raiseZst b).mstart = t.mstart := rfl
@[simp] theorem Task.raiseZst_mwork (t : Task) (b : BitVec 16) : (t.raiseZst b).mwork = t.mwork := rfl
@[simp] theorem Task.raiseZst_mheld (t : Task) (b : BitVec 16) : (t.raiseZst b).mheld = t.mheld := rfl
@[simp] theorem Task.raiseZst_lease (t : Task) (b : BitVec 16) : (t.raiseZst b).lease = t.lease := rfl
@[simp] theorem Task.raiseZst_cq (t : Task) (b : BitVec 16) : (t.raiseZst b).cq = t.cq := rfl
@[simp] theorem Task.raiseZst_pb (t : Task) (b : BitVec 16) : (t.raiseZst b).pb = t.pb := rfl
@[simp] theorem Task.raiseZst_seqA (t : Task) (b : BitVec 16) : (t.raiseZst b).seqA = t.seqA := rfl
@[simp] theorem Task.raiseZst_seqX (t : Task) (b : BitVec 16) : (t.raiseZst b).seqX = t.seqX := rfl
@[simp] theorem Task.raiseZst_stores (t : Task) (b : BitVec 16) : (t.raiseZst b).stores = t.stores := rfl
@[simp] theorem Task.raiseZst_loads (t : Task) (b : BitVec 16) : (t.raiseZst b).loads = t.loads := rfl
@[simp] theorem Task.raiseZst_atomics (t : Task) (b : BitVec 16) : (t.raiseZst b).atomics = t.atomics := rfl
@[simp] theorem Task.raiseZst_vatom (t : Task) (b : BitVec 16) : (t.raiseZst b).vatom = t.vatom := rfl
@[simp] theorem Task.raiseZst_owed (t : Task) (b : BitVec 16) : (t.raiseZst b).owed = t.owed := rfl
@[simp] theorem Task.raiseZst_port (t : Task) (b : BitVec 16) : (t.raiseZst b).port = t.port := rfl
@[simp] theorem Task.raiseZst_push (t : Task) (b : BitVec 16) : (t.raiseZst b).push = t.push := rfl

/-! Parts read after an update. -/

@[simp] theorem State.core_setCore (s : State) (c : Nat) (x : Core) : (s.setCore c x).core c = x := by
  simp [State.core, State.setCore]

theorem State.core_setCore_ne (s : State) {c c' : Nat} (x : Core) (h : c' ≠ c) : (s.setCore c x).core c' = s.core c' := by
  simp [State.core, State.setCore, NMap.getD_set_ne s.cores x _ h]

@[simp] theorem State.task_setTask (s : State) (c : Nat) (t : Task) : (s.setTask c t).task c = t := by
  simp [State.task, State.setTask]

theorem State.task_setTask_ne (s : State) {c c' : Nat} (t : Task) (h : c' ≠ c) : (s.setTask c t).task c' = s.task c' := by
  simp [State.task, State.setTask, State.core_setCore_ne _ _ h]

theorem State.core_setTask_ne (s : State) {c c' : Nat} (t : Task) (h : c' ≠ c) : (s.setTask c t).core c' = s.core c' := by
  simp [State.setTask, State.core_setCore_ne _ _ h]

@[simp] theorem State.core_setTask (s : State) (c : Nat) (t : Task) :
    (s.setTask c t).core c = { s.core c with task := t } := by
  simp [State.setTask]

@[simp] theorem State.task_modTask (s : State) (c : Nat) (f : Task → Task) : (s.modTask c f).task c = f (s.task c) := by
  simp [State.modTask]

theorem State.core_modTask_ne (s : State) {c c' : Nat} (f : Task → Task) (h : c' ≠ c) :
    (s.modTask c f).core c' = s.core c' := by
  simp [State.modTask, State.core_setTask_ne _ _ h]

@[simp] theorem Task.seq_setSeq (t : Task) (d : Side) (q : Seq) : (t.setSeq d q).seq d = q := by cases d <;> rfl

@[simp] theorem Task.seq_setSeq_other (t : Task) (q : Seq) : (t.setSeq .a q).seq .x = t.seq .x := rfl

@[simp] theorem Task.seq_setSeq_other' (t : Task) (q : Seq) : (t.setSeq .x q).seq .a = t.seq .a := rfl

@[simp] theorem State.seq_setSeq (s : State) (c : Nat) (d : Side) (q : Seq) : (s.setSeq c d q).seq c d = q := by
  simp [State.seq, State.setSeq]

@[simp] theorem State.task_setSeq (s : State) (c : Nat) (d : Side) (q : Seq) :
    (s.setSeq c d q).task c = (s.task c).setSeq d q := by
  simp [State.setSeq]

theorem State.core_setSeq_ne (s : State) {c c' : Nat} (d : Side) (q : Seq) (h : c' ≠ c) :
    (s.setSeq c d q).core c' = s.core c' := by
  simp [State.setSeq, State.core_setTask_ne _ _ h]

@[simp] theorem State.kernel_setSeq (s : State) (c : Nat) (d : Side) (q : Seq) (k : Nat) :
    (s.setSeq c d q).kernel k = s.kernel k := rfl

@[simp] theorem State.kernel_modTask (s : State) (c : Nat) (f : Task → Task) (k : Nat) :
    (s.modTask c f).kernel k = s.kernel k := rfl

@[simp] theorem State.task_noteMiss (s : State) (c c' : Nat) : (s.noteMiss c).task c' = s.task c' := by
  by_cases h : c' = c
  · subst h; simp [State.task, State.noteMiss]
  · simp [State.task, State.noteMiss, State.core_setCore_ne _ _ h]

@[simp] theorem State.core_setMember (s : State) (n : Nat) (m : Member) (c : Nat) : (s.setMember n m).core c = s.core c := rfl

@[simp] theorem State.core_send (s : State) (m : Msg) (c : Nat) : (s.send m).core c = s.core c := rfl

end Sys2Proof.Machine
end

