-- ==== Sys2Proof/Laws/Ops.lean ====
section
/-! SUPPORT. What the shared operations can do, each once: which parts of the state they leave, and what they come to. -/
namespace Sys2Proof.Machine

/-! How a stop settles. -/

@[simp] theorem settle_ok (c : Nat) (d : Side) (s t : State) : settle c d s (.ok t) = .next t := rfl
@[simp] theorem settle_pure (c : Nat) (d : Side) (s t : State) : settle c d s (pure t) = .next t := rfl
@[simp] theorem settle_stall (c : Nat) (d : Side) (s : State) (b : Bool) :
    settle c d s (.error (.stall b)) = .next (s.setSeq c d { s.seq c d with blocked := b }) := rfl
@[simp] theorem settle_hold (c : Nat) (d : Side) (s : State) (p w : Nat) :
    settle c d s (.error (.hold p w)) = .next ((s.holdWriter p w).setSeq c d { s.seq c d with blocked := false }) := rfl
@[simp] theorem settle_held (c : Nat) (d : Side) (s : State) (ctx ent : Nat) :
    settle c d s (.error (.held ctx ent)) = .next (s.setSeq c d { s.seq c d with blocked := false, held := some (ctx, ent) }) := rfl
@[simp] theorem settle_trap (c : Nat) (d : Side) (s : State) (x : BitVec 8) (u : Option State) :
    settle c d s (.error (.trap x u)) = .next ((u.getD s).takeTrap c d x) := rfl
@[simp] theorem settle_fault (c : Nat) (d : Side) (s : State) (f : Fault) : settle c d s (.error (.fault f)) = .fault f := rfl

/-- A computation that goes on has succeeded in its first part. -/
theorem bind_ok {α β : Type} {x : Except Stop α} {f : α → Except Stop β} {b : β} (h : (x >>= f) = .ok b) :
    ∃ a, x = .ok a ∧ f a = .ok b := by
  cases x with
  | error e => simp [bind, Except.bind] at h
  | ok a => exact ⟨a, rfl, h⟩

@[simp] theorem ok_bind {α β : Type} (a : α) (f : α → Except Stop β) : ((Except.ok a : Except Stop α) >>= f) = f a := rfl
@[simp] theorem error_bind {α β : Type} (e : Stop) (f : α → Except Stop β) : ((Except.error e : Except Stop α) >>= f) = .error e := rfl

theorem waitFor_true {p : Bool} (h : p = true) : waitFor p = .ok () := by simp [waitFor, h]
theorem waitFor_false {p : Bool} (h : p = false) : waitFor p = .error (.stall false) := by simp [waitFor, h]
theorem waitBlocked_true {p : Bool} (h : p = true) : waitBlocked p = .ok () := by simp [waitBlocked, h]
theorem waitBlocked_false {p : Bool} (h : p = false) : waitBlocked p = .error (.stall true) := by simp [waitBlocked, h]
theorem require_true {p : Bool} {x : BitVec 8} (h : p = true) : require p x = .ok () := by simp [require, h]
theorem require_false {p : Bool} {x : BitVec 8} (h : p = false) : require p x = .error (.trap x none) := by simp [require, h]
theorem legal_ok {i : Instr} (h : wellFormed i = true) : legal i = .ok () := by simp [legal, require, h]
theorem legal_bad {i : Instr} (h : wellFormed i = false) : legal i = .error (.trap 0x01#8 none) := by simp [legal, require, h]

/-! Overwriting. -/

theorem State.setCore_setCore (s : State) (c : Nat) (x y : Core) : (s.setCore c x).setCore c y = s.setCore c y := by
  simp [State.setCore, NMap.set_set]

theorem Task.setSeq_setSeq (t : Task) (d : Side) (p q : Seq) : (t.setSeq d p).setSeq d q = t.setSeq d q := by cases d <;> rfl

theorem State.setTask_setTask (s : State) (c : Nat) (t u : Task) : (s.setTask c t).setTask c u = s.setTask c u := by
  simp [State.setTask, State.setCore_setCore]

theorem State.setSeq_setSeq (s : State) (c : Nat) (d : Side) (p q : Seq) : (s.setSeq c d p).setSeq c d q = s.setSeq c d q := by
  simp [State.setSeq, State.setTask_setTask, Task.setSeq_setSeq]

/-- Completing a word changes its sequencer alone. -/
theorem State.retire_eq (s : State) (c : Nat) (d : Side) (m : Bool) : ∃ q, s.retire c d m = s.setSeq c d q := by
  unfold State.retire State.fallFrom State.completed
  split <;> exact ⟨_, State.setSeq_setSeq ..⟩

theorem State.completed_eq (s : State) (c : Nat) (d : Side) (m : Bool) : ∃ q, s.completed c d m = s.setSeq c d q := ⟨_, rfl⟩
theorem State.progress_eq (s : State) (c : Nat) (d : Side) (n : Nat) : ∃ q, s.progress c d n = s.setSeq c d q := ⟨_, rfl⟩
theorem State.retireTo_eq (s : State) (c : Nat) (d : Side) (n : Nat) (m : Bool) : ∃ q, s.retireTo c d n m = s.setSeq c d q :=
  ⟨_, State.setSeq_setSeq ..⟩

/-! Writes home. -/

/-- A line's mark touches one core. -/
theorem State.markLine_same (s : State) (a : Nat) {α : Type} (g : State → α) (h : ∀ (s : State) (c : Nat) (x : Core), g (s.setCore c x) = g s) :
    g (s.markLine a) = g s := by
  unfold State.markLine
  split
  · split
    · exact h s _ _
    · rfl
  · rfl

@[simp] theorem State.markLine_turns (s : State) (a : Nat) : (s.markLine a).turns = s.turns := State.markLine_same s a (·.turns) (fun _ _ _ => rfl)
@[simp] theorem State.markLine_cur (s : State) (a : Nat) : (s.markLine a).cur = s.cur := State.markLine_same s a (·.cur) (fun _ _ _ => rfl)
@[simp] theorem State.markLine_side (s : State) (a : Nat) : (s.markLine a).side = s.side := State.markLine_same s a (·.side) (fun _ _ _ => rfl)
@[simp] theorem State.markLine_free (s : State) (a : Nat) : (s.markLine a).free = s.free := State.markLine_same s a (·.free) (fun _ _ _ => rfl)
@[simp] theorem State.markLine_fresh (s : State) (a : Nat) : (s.markLine a).fresh = s.fresh := State.markLine_same s a (·.fresh) (fun _ _ _ => rfl)
@[simp] theorem State.markLine_cyc (s : State) (a : Nat) : (s.markLine a).cyc = s.cyc := State.markLine_same s a (·.cyc) (fun _ _ _ => rfl)
@[simp] theorem State.markLine_mem (s : State) (a : Nat) : (s.markLine a).mem = s.mem := State.markLine_same s a (·.mem) (fun _ _ _ => rfl)
@[simp] theorem State.markLine_scrubbed (s : State) (a : Nat) : (s.markLine a).scrubbed = s.scrubbed := State.markLine_same s a (·.scrubbed) (fun _ _ _ => rfl)
@[simp] theorem State.markLine_quads (s : State) (a : Nat) : (s.markLine a).quads = s.quads := State.markLine_same s a (·.quads) (fun _ _ _ => rfl)
@[simp] theorem State.markLine_dies (s : State) (a : Nat) : (s.markLine a).dies = s.dies := State.markLine_same s a (·.dies) (fun _ _ _ => rfl)
@[simp] theorem State.markLine_hmask (s : State) (a : Nat) : (s.markLine a).hmask = s.hmask := State.markLine_same s a (·.hmask) (fun _ _ _ => rfl)
@[simp] theorem State.markLine_nstr (s : State) (a : Nat) : (s.markLine a).nstr = s.nstr := State.markLine_same s a (·.nstr) (fun _ _ _ => rfl)
@[simp] theorem State.markLine_contexts (s : State) (a : Nat) : (s.markLine a).contexts = s.contexts := State.markLine_same s a (·.contexts) (fun _ _ _ => rfl)
@[simp] theorem State.markLine_kernels (s : State) (a : Nat) : (s.markLine a).kernels = s.kernels := State.markLine_same s a (·.kernels) (fun _ _ _ => rfl)
@[simp] theorem State.markLine_partitions (s : State) (a : Nat) : (s.markLine a).partitions = s.partitions := State.markLine_same s a (·.partitions) (fun _ _ _ => rfl)
@[simp] theorem State.markLine_records (s : State) (a : Nat) : (s.markLine a).records = s.records := State.markLine_same s a (·.records) (fun _ _ _ => rfl)
@[simp] theorem State.markLine_members (s : State) (a : Nat) : (s.markLine a).members = s.members := State.markLine_same s a (·.members) (fun _ _ _ => rfl)
@[simp] theorem State.markLine_groups (s : State) (a : Nat) : (s.markLine a).groups = s.groups := State.markLine_same s a (·.groups) (fun _ _ _ => rfl)
@[simp] theorem State.markLine_timers (s : State) (a : Nat) : (s.markLine a).timers = s.timers := State.markLine_same s a (·.timers) (fun _ _ _ => rfl)
@[simp] theorem State.markLine_collectives (s : State) (a : Nat) : (s.markLine a).collectives = s.collectives := State.markLine_same s a (·.collectives) (fun _ _ _ => rfl)
@[simp] theorem State.markLine_shares (s : State) (a : Nat) : (s.markLine a).shares = s.shares := State.markLine_same s a (·.shares) (fun _ _ _ => rfl)
@[simp] theorem State.markLine_queues (s : State) (a : Nat) : (s.markLine a).queues = s.queues := State.markLine_same s a (·.queues) (fun _ _ _ => rfl)
@[simp] theorem State.markLine_graphs (s : State) (a : Nat) : (s.markLine a).graphs = s.graphs := State.markLine_same s a (·.graphs) (fun _ _ _ => rfl)
@[simp] theorem State.markLine_wakeRegs (s : State) (a : Nat) : (s.markLine a).wakeRegs = s.wakeRegs := State.markLine_same s a (·.wakeRegs) (fun _ _ _ => rfl)
@[simp] theorem State.markLine_outbox (s : State) (a : Nat) : (s.markLine a).outbox = s.outbox := State.markLine_same s a (·.outbox) (fun _ _ _ => rfl)
@[simp] theorem State.markLine_notices (s : State) (a : Nat) : (s.markLine a).notices = s.notices := State.markLine_same s a (·.notices) (fun _ _ _ => rfl)
@[simp] theorem State.markLine_checkpoints (s : State) (a : Nat) : (s.markLine a).checkpoints = s.checkpoints := State.markLine_same s a (·.checkpoints) (fun _ _ _ => rfl)
@[simp] theorem State.markLine_images (s : State) (a : Nat) : (s.markLine a).images = s.images := State.markLine_same s a (·.images) (fun _ _ _ => rfl)
@[simp] theorem State.markLine_device (s : State) (a : Nat) : (s.markLine a).device = s.device := State.markLine_same s a (·.device) (fun _ _ _ => rfl)

theorem State.foldl_markLine (f : Nat → Nat) (l : List Nat) (s : State) {α : Type} (g : State → α)
    (h : ∀ s a, g (State.markLine s a) = g s) : g (l.foldl (fun s j => s.markLine (f j)) s) = g s := by
  induction l generalizing s with
  | nil => rfl
  | cons x l ih => rw [List.foldl_cons, ih, h]

@[simp] theorem State.markLines_turns (s : State) (a n : Nat) : (s.markLines a n).turns = s.turns := State.foldl_markLine _ _ s (·.turns) (fun s a => State.markLine_turns s a)
@[simp] theorem State.markLines_cur (s : State) (a n : Nat) : (s.markLines a n).cur = s.cur := State.foldl_markLine _ _ s (·.cur) (fun s a => State.markLine_cur s a)
@[simp] theorem State.markLines_side (s : State) (a n : Nat) : (s.markLines a n).side = s.side := State.foldl_markLine _ _ s (·.side) (fun s a => State.markLine_side s a)
@[simp] theorem State.markLines_free (s : State) (a n : Nat) : (s.markLines a n).free = s.free := State.foldl_markLine _ _ s (·.free) (fun s a => State.markLine_free s a)
@[simp] theorem State.markLines_fresh (s : State) (a n : Nat) : (s.markLines a n).fresh = s.fresh := State.foldl_markLine _ _ s (·.fresh) (fun s a => State.markLine_fresh s a)
@[simp] theorem State.markLines_cyc (s : State) (a n : Nat) : (s.markLines a n).cyc = s.cyc := State.foldl_markLine _ _ s (·.cyc) (fun s a => State.markLine_cyc s a)
@[simp] theorem State.markLines_mem (s : State) (a n : Nat) : (s.markLines a n).mem = s.mem := State.foldl_markLine _ _ s (·.mem) (fun s a => State.markLine_mem s a)
@[simp] theorem State.markLines_scrubbed (s : State) (a n : Nat) : (s.markLines a n).scrubbed = s.scrubbed := State.foldl_markLine _ _ s (·.scrubbed) (fun s a => State.markLine_scrubbed s a)
@[simp] theorem State.markLines_quads (s : State) (a n : Nat) : (s.markLines a n).quads = s.quads := State.foldl_markLine _ _ s (·.quads) (fun s a => State.markLine_quads s a)
@[simp] theorem State.markLines_dies (s : State) (a n : Nat) : (s.markLines a n).dies = s.dies := State.foldl_markLine _ _ s (·.dies) (fun s a => State.markLine_dies s a)
@[simp] theorem State.markLines_hmask (s : State) (a n : Nat) : (s.markLines a n).hmask = s.hmask := State.foldl_markLine _ _ s (·.hmask) (fun s a => State.markLine_hmask s a)
@[simp] theorem State.markLines_nstr (s : State) (a n : Nat) : (s.markLines a n).nstr = s.nstr := State.foldl_markLine _ _ s (·.nstr) (fun s a => State.markLine_nstr s a)
@[simp] theorem State.markLines_contexts (s : State) (a n : Nat) : (s.markLines a n).contexts = s.contexts := State.foldl_markLine _ _ s (·.contexts) (fun s a => State.markLine_contexts s a)
@[simp] theorem State.markLines_kernels (s : State) (a n : Nat) : (s.markLines a n).kernels = s.kernels := State.foldl_markLine _ _ s (·.kernels) (fun s a => State.markLine_kernels s a)
@[simp] theorem State.markLines_partitions (s : State) (a n : Nat) : (s.markLines a n).partitions = s.partitions := State.foldl_markLine _ _ s (·.partitions) (fun s a => State.markLine_partitions s a)
@[simp] theorem State.markLines_records (s : State) (a n : Nat) : (s.markLines a n).records = s.records := State.foldl_markLine _ _ s (·.records) (fun s a => State.markLine_records s a)
@[simp] theorem State.markLines_members (s : State) (a n : Nat) : (s.markLines a n).members = s.members := State.foldl_markLine _ _ s (·.members) (fun s a => State.markLine_members s a)
@[simp] theorem State.markLines_groups (s : State) (a n : Nat) : (s.markLines a n).groups = s.groups := State.foldl_markLine _ _ s (·.groups) (fun s a => State.markLine_groups s a)
@[simp] theorem State.markLines_timers (s : State) (a n : Nat) : (s.markLines a n).timers = s.timers := State.foldl_markLine _ _ s (·.timers) (fun s a => State.markLine_timers s a)
@[simp] theorem State.markLines_collectives (s : State) (a n : Nat) : (s.markLines a n).collectives = s.collectives := State.foldl_markLine _ _ s (·.collectives) (fun s a => State.markLine_collectives s a)
@[simp] theorem State.markLines_shares (s : State) (a n : Nat) : (s.markLines a n).shares = s.shares := State.foldl_markLine _ _ s (·.shares) (fun s a => State.markLine_shares s a)
@[simp] theorem State.markLines_queues (s : State) (a n : Nat) : (s.markLines a n).queues = s.queues := State.foldl_markLine _ _ s (·.queues) (fun s a => State.markLine_queues s a)
@[simp] theorem State.markLines_graphs (s : State) (a n : Nat) : (s.markLines a n).graphs = s.graphs := State.foldl_markLine _ _ s (·.graphs) (fun s a => State.markLine_graphs s a)
@[simp] theorem State.markLines_wakeRegs (s : State) (a n : Nat) : (s.markLines a n).wakeRegs = s.wakeRegs := State.foldl_markLine _ _ s (·.wakeRegs) (fun s a => State.markLine_wakeRegs s a)
@[simp] theorem State.markLines_outbox (s : State) (a n : Nat) : (s.markLines a n).outbox = s.outbox := State.foldl_markLine _ _ s (·.outbox) (fun s a => State.markLine_outbox s a)
@[simp] theorem State.markLines_notices (s : State) (a n : Nat) : (s.markLines a n).notices = s.notices := State.foldl_markLine _ _ s (·.notices) (fun s a => State.markLine_notices s a)
@[simp] theorem State.markLines_checkpoints (s : State) (a n : Nat) : (s.markLines a n).checkpoints = s.checkpoints := State.foldl_markLine _ _ s (·.checkpoints) (fun s a => State.markLine_checkpoints s a)
@[simp] theorem State.markLines_images (s : State) (a n : Nat) : (s.markLines a n).images = s.images := State.foldl_markLine _ _ s (·.images) (fun s a => State.markLine_images s a)
@[simp] theorem State.markLines_device (s : State) (a n : Nat) : (s.markLines a n).device = s.device := State.foldl_markLine _ _ s (·.device) (fun s a => State.markLine_device s a)

@[simp] theorem State.markDirtyGranule_turns (s : State) (a n : Nat) : (s.markDirtyGranule a n).turns = s.turns := rfl
@[simp] theorem State.markDirtyGranule_cur (s : State) (a n : Nat) : (s.markDirtyGranule a n).cur = s.cur := rfl
@[simp] theorem State.markDirtyGranule_side (s : State) (a n : Nat) : (s.markDirtyGranule a n).side = s.side := rfl
@[simp] theorem State.markDirtyGranule_free (s : State) (a n : Nat) : (s.markDirtyGranule a n).free = s.free := rfl
@[simp] theorem State.markDirtyGranule_fresh (s : State) (a n : Nat) : (s.markDirtyGranule a n).fresh = s.fresh := rfl
@[simp] theorem State.markDirtyGranule_cyc (s : State) (a n : Nat) : (s.markDirtyGranule a n).cyc = s.cyc := rfl
@[simp] theorem State.markDirtyGranule_mem (s : State) (a n : Nat) : (s.markDirtyGranule a n).mem = s.mem := rfl
@[simp] theorem State.markDirtyGranule_cores (s : State) (a n : Nat) : (s.markDirtyGranule a n).cores = s.cores := rfl
@[simp] theorem State.markDirtyGranule_quads (s : State) (a n : Nat) : (s.markDirtyGranule a n).quads = s.quads := rfl
@[simp] theorem State.markDirtyGranule_dies (s : State) (a n : Nat) : (s.markDirtyGranule a n).dies = s.dies := rfl
@[simp] theorem State.markDirtyGranule_hmask (s : State) (a n : Nat) : (s.markDirtyGranule a n).hmask = s.hmask := rfl
@[simp] theorem State.markDirtyGranule_nstr (s : State) (a n : Nat) : (s.markDirtyGranule a n).nstr = s.nstr := rfl
@[simp] theorem State.markDirtyGranule_contexts (s : State) (a n : Nat) : (s.markDirtyGranule a n).contexts = s.contexts := rfl
@[simp] theorem State.markDirtyGranule_kernels (s : State) (a n : Nat) : (s.markDirtyGranule a n).kernels = s.kernels := rfl
@[simp] theorem State.markDirtyGranule_partitions (s : State) (a n : Nat) : (s.markDirtyGranule a n).partitions = s.partitions := rfl
@[simp] theorem State.markDirtyGranule_records (s : State) (a n : Nat) : (s.markDirtyGranule a n).records = s.records := rfl
@[simp] theorem State.markDirtyGranule_members (s : State) (a n : Nat) : (s.markDirtyGranule a n).members = s.members := rfl
@[simp] theorem State.markDirtyGranule_groups (s : State) (a n : Nat) : (s.markDirtyGranule a n).groups = s.groups := rfl
@[simp] theorem State.markDirtyGranule_timers (s : State) (a n : Nat) : (s.markDirtyGranule a n).timers = s.timers := rfl
@[simp] theorem State.markDirtyGranule_collectives (s : State) (a n : Nat) : (s.markDirtyGranule a n).collectives = s.collectives := rfl
@[simp] theorem State.markDirtyGranule_shares (s : State) (a n : Nat) : (s.markDirtyGranule a n).shares = s.shares := rfl
@[simp] theorem State.markDirtyGranule_queues (s : State) (a n : Nat) : (s.markDirtyGranule a n).queues = s.queues := rfl
@[simp] theorem State.markDirtyGranule_graphs (s : State) (a n : Nat) : (s.markDirtyGranule a n).graphs = s.graphs := rfl
@[simp] theorem State.markDirtyGranule_wakeRegs (s : State) (a n : Nat) : (s.markDirtyGranule a n).wakeRegs = s.wakeRegs := rfl
@[simp] theorem State.markDirtyGranule_outbox (s : State) (a n : Nat) : (s.markDirtyGranule a n).outbox = s.outbox := rfl
@[simp] theorem State.markDirtyGranule_notices (s : State) (a n : Nat) : (s.markDirtyGranule a n).notices = s.notices := rfl
@[simp] theorem State.markDirtyGranule_checkpoints (s : State) (a n : Nat) : (s.markDirtyGranule a n).checkpoints = s.checkpoints := rfl
@[simp] theorem State.markDirtyGranule_images (s : State) (a n : Nat) : (s.markDirtyGranule a n).images = s.images := rfl
@[simp] theorem State.markDirtyGranule_device (s : State) (a n : Nat) : (s.markDirtyGranule a n).device = s.device := rfl

@[simp] theorem State.writeByte_turns (s : State) (a : Nat) (b : Byte) : (s.writeByte a b).turns = s.turns := by simp [State.writeByte]
@[simp] theorem State.writeByte_cur (s : State) (a : Nat) (b : Byte) : (s.writeByte a b).cur = s.cur := by simp [State.writeByte]
@[simp] theorem State.writeByte_side (s : State) (a : Nat) (b : Byte) : (s.writeByte a b).side = s.side := by simp [State.writeByte]
@[simp] theorem State.writeByte_free (s : State) (a : Nat) (b : Byte) : (s.writeByte a b).free = s.free := by simp [State.writeByte]
@[simp] theorem State.writeByte_fresh (s : State) (a : Nat) (b : Byte) : (s.writeByte a b).fresh = s.fresh := by simp [State.writeByte]
@[simp] theorem State.writeByte_cyc (s : State) (a : Nat) (b : Byte) : (s.writeByte a b).cyc = s.cyc := by simp [State.writeByte]
@[simp] theorem State.writeByte_quads (s : State) (a : Nat) (b : Byte) : (s.writeByte a b).quads = s.quads := by simp [State.writeByte]
@[simp] theorem State.writeByte_dies (s : State) (a : Nat) (b : Byte) : (s.writeByte a b).dies = s.dies := by simp [State.writeByte]
@[simp] theorem State.writeByte_hmask (s : State) (a : Nat) (b : Byte) : (s.writeByte a b).hmask = s.hmask := by simp [State.writeByte]
@[simp] theorem State.writeByte_nstr (s : State) (a : Nat) (b : Byte) : (s.writeByte a b).nstr = s.nstr := by simp [State.writeByte]
@[simp] theorem State.writeByte_contexts (s : State) (a : Nat) (b : Byte) : (s.writeByte a b).contexts = s.contexts := by simp [State.writeByte]
@[simp] theorem State.writeByte_kernels (s : State) (a : Nat) (b : Byte) : (s.writeByte a b).kernels = s.kernels := by simp [State.writeByte]
@[simp] theorem State.writeByte_partitions (s : State) (a : Nat) (b : Byte) : (s.writeByte a b).partitions = s.partitions := by simp [State.writeByte]
@[simp] theorem State.writeByte_records (s : State) (a : Nat) (b : Byte) : (s.writeByte a b).records = s.records := by simp [State.writeByte]
@[simp] theorem State.writeByte_members (s : State) (a : Nat) (b : Byte) : (s.writeByte a b).members = s.members := by simp [State.writeByte]
@[simp] theorem State.writeByte_groups (s : State) (a : Nat) (b : Byte) : (s.writeByte a b).groups = s.groups := by simp [State.writeByte]
@[simp] theorem State.writeByte_timers (s : State) (a : Nat) (b : Byte) : (s.writeByte a b).timers = s.timers := by simp [State.writeByte]
@[simp] theorem State.writeByte_collectives (s : State) (a : Nat) (b : Byte) : (s.writeByte a b).collectives = s.collectives := by simp [State.writeByte]
@[simp] theorem State.writeByte_shares (s : State) (a : Nat) (b : Byte) : (s.writeByte a b).shares = s.shares := by simp [State.writeByte]
@[simp] theorem State.writeByte_queues (s : State) (a : Nat) (b : Byte) : (s.writeByte a b).queues = s.queues := by simp [State.writeByte]
@[simp] theorem State.writeByte_graphs (s : State) (a : Nat) (b : Byte) : (s.writeByte a b).graphs = s.graphs := by simp [State.writeByte]
@[simp] theorem State.writeByte_wakeRegs (s : State) (a : Nat) (b : Byte) : (s.writeByte a b).wakeRegs = s.wakeRegs := by simp [State.writeByte]
@[simp] theorem State.writeByte_outbox (s : State) (a : Nat) (b : Byte) : (s.writeByte a b).outbox = s.outbox := by simp [State.writeByte]
@[simp] theorem State.writeByte_notices (s : State) (a : Nat) (b : Byte) : (s.writeByte a b).notices = s.notices := by simp [State.writeByte]
@[simp] theorem State.writeByte_checkpoints (s : State) (a : Nat) (b : Byte) : (s.writeByte a b).checkpoints = s.checkpoints := by simp [State.writeByte]
@[simp] theorem State.writeByte_images (s : State) (a : Nat) (b : Byte) : (s.writeByte a b).images = s.images := by simp [State.writeByte]
@[simp] theorem State.writeByte_device (s : State) (a : Nat) (b : Byte) : (s.writeByte a b).device = s.device := by simp [State.writeByte]

theorem State.foldl_writeByte (l : List Host.Cell) (s : State) {α : Type} (g : State → α)
    (h : ∀ s a b, g (State.writeByte s a b) = g s) : g (s.writeCells l) = g s := by
  unfold State.writeCells
  induction l generalizing s with
  | nil => rfl
  | cons x l ih => rw [List.foldl_cons, ih, h]

@[simp] theorem State.writeCells_turns (s : State) (l : List Host.Cell) : (s.writeCells l).turns = s.turns := State.foldl_writeByte l s (·.turns) (fun s a b => State.writeByte_turns s a b)
@[simp] theorem State.writeCells_cur (s : State) (l : List Host.Cell) : (s.writeCells l).cur = s.cur := State.foldl_writeByte l s (·.cur) (fun s a b => State.writeByte_cur s a b)
@[simp] theorem State.writeCells_side (s : State) (l : List Host.Cell) : (s.writeCells l).side = s.side := State.foldl_writeByte l s (·.side) (fun s a b => State.writeByte_side s a b)
@[simp] theorem State.writeCells_free (s : State) (l : List Host.Cell) : (s.writeCells l).free = s.free := State.foldl_writeByte l s (·.free) (fun s a b => State.writeByte_free s a b)
@[simp] theorem State.writeCells_fresh (s : State) (l : List Host.Cell) : (s.writeCells l).fresh = s.fresh := State.foldl_writeByte l s (·.fresh) (fun s a b => State.writeByte_fresh s a b)
@[simp] theorem State.writeCells_cyc (s : State) (l : List Host.Cell) : (s.writeCells l).cyc = s.cyc := State.foldl_writeByte l s (·.cyc) (fun s a b => State.writeByte_cyc s a b)
@[simp] theorem State.writeCells_quads (s : State) (l : List Host.Cell) : (s.writeCells l).quads = s.quads := State.foldl_writeByte l s (·.quads) (fun s a b => State.writeByte_quads s a b)
@[simp] theorem State.writeCells_dies (s : State) (l : List Host.Cell) : (s.writeCells l).dies = s.dies := State.foldl_writeByte l s (·.dies) (fun s a b => State.writeByte_dies s a b)
@[simp] theorem State.writeCells_hmask (s : State) (l : List Host.Cell) : (s.writeCells l).hmask = s.hmask := State.foldl_writeByte l s (·.hmask) (fun s a b => State.writeByte_hmask s a b)
@[simp] theorem State.writeCells_nstr (s : State) (l : List Host.Cell) : (s.writeCells l).nstr = s.nstr := State.foldl_writeByte l s (·.nstr) (fun s a b => State.writeByte_nstr s a b)
@[simp] theorem State.writeCells_contexts (s : State) (l : List Host.Cell) : (s.writeCells l).contexts = s.contexts := State.foldl_writeByte l s (·.contexts) (fun s a b => State.writeByte_contexts s a b)
@[simp] theorem State.writeCells_kernels (s : State) (l : List Host.Cell) : (s.writeCells l).kernels = s.kernels := State.foldl_writeByte l s (·.kernels) (fun s a b => State.writeByte_kernels s a b)
@[simp] theorem State.writeCells_partitions (s : State) (l : List Host.Cell) : (s.writeCells l).partitions = s.partitions := State.foldl_writeByte l s (·.partitions) (fun s a b => State.writeByte_partitions s a b)
@[simp] theorem State.writeCells_records (s : State) (l : List Host.Cell) : (s.writeCells l).records = s.records := State.foldl_writeByte l s (·.records) (fun s a b => State.writeByte_records s a b)
@[simp] theorem State.writeCells_members (s : State) (l : List Host.Cell) : (s.writeCells l).members = s.members := State.foldl_writeByte l s (·.members) (fun s a b => State.writeByte_members s a b)
@[simp] theorem State.writeCells_groups (s : State) (l : List Host.Cell) : (s.writeCells l).groups = s.groups := State.foldl_writeByte l s (·.groups) (fun s a b => State.writeByte_groups s a b)
@[simp] theorem State.writeCells_timers (s : State) (l : List Host.Cell) : (s.writeCells l).timers = s.timers := State.foldl_writeByte l s (·.timers) (fun s a b => State.writeByte_timers s a b)
@[simp] theorem State.writeCells_collectives (s : State) (l : List Host.Cell) : (s.writeCells l).collectives = s.collectives := State.foldl_writeByte l s (·.collectives) (fun s a b => State.writeByte_collectives s a b)
@[simp] theorem State.writeCells_shares (s : State) (l : List Host.Cell) : (s.writeCells l).shares = s.shares := State.foldl_writeByte l s (·.shares) (fun s a b => State.writeByte_shares s a b)
@[simp] theorem State.writeCells_queues (s : State) (l : List Host.Cell) : (s.writeCells l).queues = s.queues := State.foldl_writeByte l s (·.queues) (fun s a b => State.writeByte_queues s a b)
@[simp] theorem State.writeCells_graphs (s : State) (l : List Host.Cell) : (s.writeCells l).graphs = s.graphs := State.foldl_writeByte l s (·.graphs) (fun s a b => State.writeByte_graphs s a b)
@[simp] theorem State.writeCells_wakeRegs (s : State) (l : List Host.Cell) : (s.writeCells l).wakeRegs = s.wakeRegs := State.foldl_writeByte l s (·.wakeRegs) (fun s a b => State.writeByte_wakeRegs s a b)
@[simp] theorem State.writeCells_outbox (s : State) (l : List Host.Cell) : (s.writeCells l).outbox = s.outbox := State.foldl_writeByte l s (·.outbox) (fun s a b => State.writeByte_outbox s a b)
@[simp] theorem State.writeCells_notices (s : State) (l : List Host.Cell) : (s.writeCells l).notices = s.notices := State.foldl_writeByte l s (·.notices) (fun s a b => State.writeByte_notices s a b)
@[simp] theorem State.writeCells_checkpoints (s : State) (l : List Host.Cell) : (s.writeCells l).checkpoints = s.checkpoints := State.foldl_writeByte l s (·.checkpoints) (fun s a b => State.writeByte_checkpoints s a b)
@[simp] theorem State.writeCells_images (s : State) (l : List Host.Cell) : (s.writeCells l).images = s.images := State.foldl_writeByte l s (·.images) (fun s a b => State.writeByte_images s a b)
@[simp] theorem State.writeCells_device (s : State) (l : List Host.Cell) : (s.writeCells l).device = s.device := State.foldl_writeByte l s (·.device) (fun s a b => State.writeByte_device s a b)

@[simp] theorem State.writeRun_turns (s : State) (a : Nat) (l : List Byte) : (s.writeRun a l).turns = s.turns := by unfold State.writeRun; split <;> simp
@[simp] theorem State.writeRun_cur (s : State) (a : Nat) (l : List Byte) : (s.writeRun a l).cur = s.cur := by unfold State.writeRun; split <;> simp
@[simp] theorem State.writeRun_side (s : State) (a : Nat) (l : List Byte) : (s.writeRun a l).side = s.side := by unfold State.writeRun; split <;> simp
@[simp] theorem State.writeRun_free (s : State) (a : Nat) (l : List Byte) : (s.writeRun a l).free = s.free := by unfold State.writeRun; split <;> simp
@[simp] theorem State.writeRun_fresh (s : State) (a : Nat) (l : List Byte) : (s.writeRun a l).fresh = s.fresh := by unfold State.writeRun; split <;> simp
@[simp] theorem State.writeRun_cyc (s : State) (a : Nat) (l : List Byte) : (s.writeRun a l).cyc = s.cyc := by unfold State.writeRun; split <;> simp
@[simp] theorem State.writeRun_quads (s : State) (a : Nat) (l : List Byte) : (s.writeRun a l).quads = s.quads := by unfold State.writeRun; split <;> simp
@[simp] theorem State.writeRun_dies (s : State) (a : Nat) (l : List Byte) : (s.writeRun a l).dies = s.dies := by unfold State.writeRun; split <;> simp
@[simp] theorem State.writeRun_hmask (s : State) (a : Nat) (l : List Byte) : (s.writeRun a l).hmask = s.hmask := by unfold State.writeRun; split <;> simp
@[simp] theorem State.writeRun_nstr (s : State) (a : Nat) (l : List Byte) : (s.writeRun a l).nstr = s.nstr := by unfold State.writeRun; split <;> simp
@[simp] theorem State.writeRun_contexts (s : State) (a : Nat) (l : List Byte) : (s.writeRun a l).contexts = s.contexts := by unfold State.writeRun; split <;> simp
@[simp] theorem State.writeRun_kernels (s : State) (a : Nat) (l : List Byte) : (s.writeRun a l).kernels = s.kernels := by unfold State.writeRun; split <;> simp
@[simp] theorem State.writeRun_partitions (s : State) (a : Nat) (l : List Byte) : (s.writeRun a l).partitions = s.partitions := by unfold State.writeRun; split <;> simp
@[simp] theorem State.writeRun_records (s : State) (a : Nat) (l : List Byte) : (s.writeRun a l).records = s.records := by unfold State.writeRun; split <;> simp
@[simp] theorem State.writeRun_members (s : State) (a : Nat) (l : List Byte) : (s.writeRun a l).members = s.members := by unfold State.writeRun; split <;> simp
@[simp] theorem State.writeRun_groups (s : State) (a : Nat) (l : List Byte) : (s.writeRun a l).groups = s.groups := by unfold State.writeRun; split <;> simp
@[simp] theorem State.writeRun_timers (s : State) (a : Nat) (l : List Byte) : (s.writeRun a l).timers = s.timers := by unfold State.writeRun; split <;> simp
@[simp] theorem State.writeRun_collectives (s : State) (a : Nat) (l : List Byte) : (s.writeRun a l).collectives = s.collectives := by unfold State.writeRun; split <;> simp
@[simp] theorem State.writeRun_shares (s : State) (a : Nat) (l : List Byte) : (s.writeRun a l).shares = s.shares := by unfold State.writeRun; split <;> simp
@[simp] theorem State.writeRun_queues (s : State) (a : Nat) (l : List Byte) : (s.writeRun a l).queues = s.queues := by unfold State.writeRun; split <;> simp
@[simp] theorem State.writeRun_graphs (s : State) (a : Nat) (l : List Byte) : (s.writeRun a l).graphs = s.graphs := by unfold State.writeRun; split <;> simp
@[simp] theorem State.writeRun_wakeRegs (s : State) (a : Nat) (l : List Byte) : (s.writeRun a l).wakeRegs = s.wakeRegs := by unfold State.writeRun; split <;> simp
@[simp] theorem State.writeRun_outbox (s : State) (a : Nat) (l : List Byte) : (s.writeRun a l).outbox = s.outbox := by unfold State.writeRun; split <;> simp
@[simp] theorem State.writeRun_notices (s : State) (a : Nat) (l : List Byte) : (s.writeRun a l).notices = s.notices := by unfold State.writeRun; split <;> simp
@[simp] theorem State.writeRun_checkpoints (s : State) (a : Nat) (l : List Byte) : (s.writeRun a l).checkpoints = s.checkpoints := by unfold State.writeRun; split <;> simp
@[simp] theorem State.writeRun_images (s : State) (a : Nat) (l : List Byte) : (s.writeRun a l).images = s.images := by unfold State.writeRun; split <;> simp
@[simp] theorem State.writeRun_device (s : State) (a : Nat) (l : List Byte) : (s.writeRun a l).device = s.device := by unfold State.writeRun; split <;> simp

@[simp] theorem State.setPoolLine_turns (s : State) (c o : Nat) (i : Image) : (s.setPoolLine c o i).turns = s.turns := by simp [State.setPoolLine]
@[simp] theorem State.setPoolLine_cur (s : State) (c o : Nat) (i : Image) : (s.setPoolLine c o i).cur = s.cur := by simp [State.setPoolLine]
@[simp] theorem State.setPoolLine_side (s : State) (c o : Nat) (i : Image) : (s.setPoolLine c o i).side = s.side := by simp [State.setPoolLine]
@[simp] theorem State.setPoolLine_free (s : State) (c o : Nat) (i : Image) : (s.setPoolLine c o i).free = s.free := by simp [State.setPoolLine]
@[simp] theorem State.setPoolLine_fresh (s : State) (c o : Nat) (i : Image) : (s.setPoolLine c o i).fresh = s.fresh := by simp [State.setPoolLine]
@[simp] theorem State.setPoolLine_cyc (s : State) (c o : Nat) (i : Image) : (s.setPoolLine c o i).cyc = s.cyc := by simp [State.setPoolLine]
@[simp] theorem State.setPoolLine_quads (s : State) (c o : Nat) (i : Image) : (s.setPoolLine c o i).quads = s.quads := by simp [State.setPoolLine]
@[simp] theorem State.setPoolLine_dies (s : State) (c o : Nat) (i : Image) : (s.setPoolLine c o i).dies = s.dies := by simp [State.setPoolLine]
@[simp] theorem State.setPoolLine_hmask (s : State) (c o : Nat) (i : Image) : (s.setPoolLine c o i).hmask = s.hmask := by simp [State.setPoolLine]
@[simp] theorem State.setPoolLine_nstr (s : State) (c o : Nat) (i : Image) : (s.setPoolLine c o i).nstr = s.nstr := by simp [State.setPoolLine]
@[simp] theorem State.setPoolLine_contexts (s : State) (c o : Nat) (i : Image) : (s.setPoolLine c o i).contexts = s.contexts := by simp [State.setPoolLine]
@[simp] theorem State.setPoolLine_kernels (s : State) (c o : Nat) (i : Image) : (s.setPoolLine c o i).kernels = s.kernels := by simp [State.setPoolLine]
@[simp] theorem State.setPoolLine_partitions (s : State) (c o : Nat) (i : Image) : (s.setPoolLine c o i).partitions = s.partitions := by simp [State.setPoolLine]
@[simp] theorem State.setPoolLine_records (s : State) (c o : Nat) (i : Image) : (s.setPoolLine c o i).records = s.records := by simp [State.setPoolLine]
@[simp] theorem State.setPoolLine_members (s : State) (c o : Nat) (i : Image) : (s.setPoolLine c o i).members = s.members := by simp [State.setPoolLine]
@[simp] theorem State.setPoolLine_groups (s : State) (c o : Nat) (i : Image) : (s.setPoolLine c o i).groups = s.groups := by simp [State.setPoolLine]
@[simp] theorem State.setPoolLine_timers (s : State) (c o : Nat) (i : Image) : (s.setPoolLine c o i).timers = s.timers := by simp [State.setPoolLine]
@[simp] theorem State.setPoolLine_collectives (s : State) (c o : Nat) (i : Image) : (s.setPoolLine c o i).collectives = s.collectives := by simp [State.setPoolLine]
@[simp] theorem State.setPoolLine_shares (s : State) (c o : Nat) (i : Image) : (s.setPoolLine c o i).shares = s.shares := by simp [State.setPoolLine]
@[simp] theorem State.setPoolLine_queues (s : State) (c o : Nat) (i : Image) : (s.setPoolLine c o i).queues = s.queues := by simp [State.setPoolLine]
@[simp] theorem State.setPoolLine_graphs (s : State) (c o : Nat) (i : Image) : (s.setPoolLine c o i).graphs = s.graphs := by simp [State.setPoolLine]
@[simp] theorem State.setPoolLine_wakeRegs (s : State) (c o : Nat) (i : Image) : (s.setPoolLine c o i).wakeRegs = s.wakeRegs := by simp [State.setPoolLine]
@[simp] theorem State.setPoolLine_outbox (s : State) (c o : Nat) (i : Image) : (s.setPoolLine c o i).outbox = s.outbox := by simp [State.setPoolLine]
@[simp] theorem State.setPoolLine_notices (s : State) (c o : Nat) (i : Image) : (s.setPoolLine c o i).notices = s.notices := by simp [State.setPoolLine]
@[simp] theorem State.setPoolLine_checkpoints (s : State) (c o : Nat) (i : Image) : (s.setPoolLine c o i).checkpoints = s.checkpoints := by simp [State.setPoolLine]
@[simp] theorem State.setPoolLine_images (s : State) (c o : Nat) (i : Image) : (s.setPoolLine c o i).images = s.images := by simp [State.setPoolLine]
@[simp] theorem State.setPoolLine_device (s : State) (c o : Nat) (i : Image) : (s.setPoolLine c o i).device = s.device := by simp [State.setPoolLine]

/-- A record changes the kernels alone. -/
theorem State.postRecord_same (s : State) (k : Nat) (r : Rec) {α : Type} (g : State → α)
    (h : ∀ (s : State) (l : NMap Kernel), g { s with kernels := l } = g s) : g (s.postRecord k r) = g s := by
  unfold State.postRecord
  split
  · rfl
  · dsimp only
    split
    · exact h s _
    · exact h s _

@[simp] theorem State.postRecord_turns (s : State) (k : Nat) (r : Rec) : (s.postRecord k r).turns = s.turns := State.postRecord_same s k r (·.turns) (fun _ _ => rfl)
@[simp] theorem State.postRecord_cur (s : State) (k : Nat) (r : Rec) : (s.postRecord k r).cur = s.cur := State.postRecord_same s k r (·.cur) (fun _ _ => rfl)
@[simp] theorem State.postRecord_side (s : State) (k : Nat) (r : Rec) : (s.postRecord k r).side = s.side := State.postRecord_same s k r (·.side) (fun _ _ => rfl)
@[simp] theorem State.postRecord_free (s : State) (k : Nat) (r : Rec) : (s.postRecord k r).free = s.free := State.postRecord_same s k r (·.free) (fun _ _ => rfl)
@[simp] theorem State.postRecord_fresh (s : State) (k : Nat) (r : Rec) : (s.postRecord k r).fresh = s.fresh := State.postRecord_same s k r (·.fresh) (fun _ _ => rfl)
@[simp] theorem State.postRecord_cyc (s : State) (k : Nat) (r : Rec) : (s.postRecord k r).cyc = s.cyc := State.postRecord_same s k r (·.cyc) (fun _ _ => rfl)
@[simp] theorem State.postRecord_mem (s : State) (k : Nat) (r : Rec) : (s.postRecord k r).mem = s.mem := State.postRecord_same s k r (·.mem) (fun _ _ => rfl)
@[simp] theorem State.postRecord_scrubbed (s : State) (k : Nat) (r : Rec) : (s.postRecord k r).scrubbed = s.scrubbed := State.postRecord_same s k r (·.scrubbed) (fun _ _ => rfl)
@[simp] theorem State.postRecord_cores (s : State) (k : Nat) (r : Rec) : (s.postRecord k r).cores = s.cores := State.postRecord_same s k r (·.cores) (fun _ _ => rfl)
@[simp] theorem State.postRecord_quads (s : State) (k : Nat) (r : Rec) : (s.postRecord k r).quads = s.quads := State.postRecord_same s k r (·.quads) (fun _ _ => rfl)
@[simp] theorem State.postRecord_dies (s : State) (k : Nat) (r : Rec) : (s.postRecord k r).dies = s.dies := State.postRecord_same s k r (·.dies) (fun _ _ => rfl)
@[simp] theorem State.postRecord_hmask (s : State) (k : Nat) (r : Rec) : (s.postRecord k r).hmask = s.hmask := State.postRecord_same s k r (·.hmask) (fun _ _ => rfl)
@[simp] theorem State.postRecord_nstr (s : State) (k : Nat) (r : Rec) : (s.postRecord k r).nstr = s.nstr := State.postRecord_same s k r (·.nstr) (fun _ _ => rfl)
@[simp] theorem State.postRecord_contexts (s : State) (k : Nat) (r : Rec) : (s.postRecord k r).contexts = s.contexts := State.postRecord_same s k r (·.contexts) (fun _ _ => rfl)
@[simp] theorem State.postRecord_partitions (s : State) (k : Nat) (r : Rec) : (s.postRecord k r).partitions = s.partitions := State.postRecord_same s k r (·.partitions) (fun _ _ => rfl)
@[simp] theorem State.postRecord_records (s : State) (k : Nat) (r : Rec) : (s.postRecord k r).records = s.records := State.postRecord_same s k r (·.records) (fun _ _ => rfl)
@[simp] theorem State.postRecord_members (s : State) (k : Nat) (r : Rec) : (s.postRecord k r).members = s.members := State.postRecord_same s k r (·.members) (fun _ _ => rfl)
@[simp] theorem State.postRecord_groups (s : State) (k : Nat) (r : Rec) : (s.postRecord k r).groups = s.groups := State.postRecord_same s k r (·.groups) (fun _ _ => rfl)
@[simp] theorem State.postRecord_timers (s : State) (k : Nat) (r : Rec) : (s.postRecord k r).timers = s.timers := State.postRecord_same s k r (·.timers) (fun _ _ => rfl)
@[simp] theorem State.postRecord_collectives (s : State) (k : Nat) (r : Rec) : (s.postRecord k r).collectives = s.collectives := State.postRecord_same s k r (·.collectives) (fun _ _ => rfl)
@[simp] theorem State.postRecord_shares (s : State) (k : Nat) (r : Rec) : (s.postRecord k r).shares = s.shares := State.postRecord_same s k r (·.shares) (fun _ _ => rfl)
@[simp] theorem State.postRecord_queues (s : State) (k : Nat) (r : Rec) : (s.postRecord k r).queues = s.queues := State.postRecord_same s k r (·.queues) (fun _ _ => rfl)
@[simp] theorem State.postRecord_graphs (s : State) (k : Nat) (r : Rec) : (s.postRecord k r).graphs = s.graphs := State.postRecord_same s k r (·.graphs) (fun _ _ => rfl)
@[simp] theorem State.postRecord_wakeRegs (s : State) (k : Nat) (r : Rec) : (s.postRecord k r).wakeRegs = s.wakeRegs := State.postRecord_same s k r (·.wakeRegs) (fun _ _ => rfl)
@[simp] theorem State.postRecord_outbox (s : State) (k : Nat) (r : Rec) : (s.postRecord k r).outbox = s.outbox := State.postRecord_same s k r (·.outbox) (fun _ _ => rfl)
@[simp] theorem State.postRecord_notices (s : State) (k : Nat) (r : Rec) : (s.postRecord k r).notices = s.notices := State.postRecord_same s k r (·.notices) (fun _ _ => rfl)
@[simp] theorem State.postRecord_checkpoints (s : State) (k : Nat) (r : Rec) : (s.postRecord k r).checkpoints = s.checkpoints := State.postRecord_same s k r (·.checkpoints) (fun _ _ => rfl)
@[simp] theorem State.postRecord_images (s : State) (k : Nat) (r : Rec) : (s.postRecord k r).images = s.images := State.postRecord_same s k r (·.images) (fun _ _ => rfl)
@[simp] theorem State.postRecord_device (s : State) (k : Nat) (r : Rec) : (s.postRecord k r).device = s.device := State.postRecord_same s k r (·.device) (fun _ _ => rfl)

/-- What no change of the core, of a kernel or of its records touches, a trap leaves. -/
theorem State.takeKill_same (s : State) (c : Nat) (d : Side) (x : BitVec 8) (w : Word32) {α : Type} (g : State → α)
    (h1 : ∀ (s : State) (m : Core), g (s.setCore c m) = g s) (h2 : ∀ (s : State) (k : Nat) (f : Kernel → Kernel), g (s.modKernel k f) = g s)
    (h3 : ∀ (s : State) (k : Nat) (r : Rec), g (s.postRecord k r) = g s) : g (s.takeKill c d x w) = g s := by
  unfold State.takeKill
  dsimp only
  split
  · rw [h1]
  · split
    · split <;> rw [h2, h1]
    · rw [h2, h3, h1]

/-- What no change of a kernel touches, a trap that comes second leaves. -/
theorem State.outrank_same (s : State) (c : Nat) (d : Side) (x : BitVec 8) (w : Word32) {α : Type} (g : State → α)
    (h2 : ∀ (s : State) (k : Nat) (f : Kernel → Kernel), g (s.modKernel k f) = g s) : g (s.outrank c d x w) = g s := by
  unfold State.outrank
  dsimp only
  split
  · rfl
  · split
    · split
      · rw [h2]
      · rfl
    · rfl

@[simp] theorem State.takeKill_turns (s : State) (c : Nat) (d : Side) (x : BitVec 8) (w : Word32) : (s.takeKill c d x w).turns = s.turns := State.takeKill_same s c d x w (·.turns) (fun _ _ => rfl) (fun s k g => State.modKernel_turns s k g) (fun s k r => State.postRecord_turns s k r)
@[simp] theorem State.takeKill_cur (s : State) (c : Nat) (d : Side) (x : BitVec 8) (w : Word32) : (s.takeKill c d x w).cur = s.cur := State.takeKill_same s c d x w (·.cur) (fun _ _ => rfl) (fun s k g => State.modKernel_cur s k g) (fun s k r => State.postRecord_cur s k r)
@[simp] theorem State.takeKill_side (s : State) (c : Nat) (d : Side) (x : BitVec 8) (w : Word32) : (s.takeKill c d x w).side = s.side := State.takeKill_same s c d x w (·.side) (fun _ _ => rfl) (fun s k g => State.modKernel_side s k g) (fun s k r => State.postRecord_side s k r)
@[simp] theorem State.takeKill_free (s : State) (c : Nat) (d : Side) (x : BitVec 8) (w : Word32) : (s.takeKill c d x w).free = s.free := State.takeKill_same s c d x w (·.free) (fun _ _ => rfl) (fun s k g => State.modKernel_free s k g) (fun s k r => State.postRecord_free s k r)
@[simp] theorem State.takeKill_fresh (s : State) (c : Nat) (d : Side) (x : BitVec 8) (w : Word32) : (s.takeKill c d x w).fresh = s.fresh := State.takeKill_same s c d x w (·.fresh) (fun _ _ => rfl) (fun s k g => State.modKernel_fresh s k g) (fun s k r => State.postRecord_fresh s k r)
@[simp] theorem State.takeKill_cyc (s : State) (c : Nat) (d : Side) (x : BitVec 8) (w : Word32) : (s.takeKill c d x w).cyc = s.cyc := State.takeKill_same s c d x w (·.cyc) (fun _ _ => rfl) (fun s k g => State.modKernel_cyc s k g) (fun s k r => State.postRecord_cyc s k r)
@[simp] theorem State.takeKill_mem (s : State) (c : Nat) (d : Side) (x : BitVec 8) (w : Word32) : (s.takeKill c d x w).mem = s.mem := State.takeKill_same s c d x w (·.mem) (fun _ _ => rfl) (fun s k g => State.modKernel_mem s k g) (fun s k r => State.postRecord_mem s k r)
@[simp] theorem State.takeKill_scrubbed (s : State) (c : Nat) (d : Side) (x : BitVec 8) (w : Word32) : (s.takeKill c d x w).scrubbed = s.scrubbed := State.takeKill_same s c d x w (·.scrubbed) (fun _ _ => rfl) (fun s k g => State.modKernel_scrubbed s k g) (fun s k r => State.postRecord_scrubbed s k r)
@[simp] theorem State.takeKill_quads (s : State) (c : Nat) (d : Side) (x : BitVec 8) (w : Word32) : (s.takeKill c d x w).quads = s.quads := State.takeKill_same s c d x w (·.quads) (fun _ _ => rfl) (fun s k g => State.modKernel_quads s k g) (fun s k r => State.postRecord_quads s k r)
@[simp] theorem State.takeKill_dies (s : State) (c : Nat) (d : Side) (x : BitVec 8) (w : Word32) : (s.takeKill c d x w).dies = s.dies := State.takeKill_same s c d x w (·.dies) (fun _ _ => rfl) (fun s k g => State.modKernel_dies s k g) (fun s k r => State.postRecord_dies s k r)
@[simp] theorem State.takeKill_hmask (s : State) (c : Nat) (d : Side) (x : BitVec 8) (w : Word32) : (s.takeKill c d x w).hmask = s.hmask := State.takeKill_same s c d x w (·.hmask) (fun _ _ => rfl) (fun s k g => State.modKernel_hmask s k g) (fun s k r => State.postRecord_hmask s k r)
@[simp] theorem State.takeKill_nstr (s : State) (c : Nat) (d : Side) (x : BitVec 8) (w : Word32) : (s.takeKill c d x w).nstr = s.nstr := State.takeKill_same s c d x w (·.nstr) (fun _ _ => rfl) (fun s k g => State.modKernel_nstr s k g) (fun s k r => State.postRecord_nstr s k r)
@[simp] theorem State.takeKill_contexts (s : State) (c : Nat) (d : Side) (x : BitVec 8) (w : Word32) : (s.takeKill c d x w).contexts = s.contexts := State.takeKill_same s c d x w (·.contexts) (fun _ _ => rfl) (fun s k g => State.modKernel_contexts s k g) (fun s k r => State.postRecord_contexts s k r)
@[simp] theorem State.takeKill_partitions (s : State) (c : Nat) (d : Side) (x : BitVec 8) (w : Word32) : (s.takeKill c d x w).partitions = s.partitions := State.takeKill_same s c d x w (·.partitions) (fun _ _ => rfl) (fun s k g => State.modKernel_partitions s k g) (fun s k r => State.postRecord_partitions s k r)
@[simp] theorem State.takeKill_records (s : State) (c : Nat) (d : Side) (x : BitVec 8) (w : Word32) : (s.takeKill c d x w).records = s.records := State.takeKill_same s c d x w (·.records) (fun _ _ => rfl) (fun s k g => State.modKernel_records s k g) (fun s k r => State.postRecord_records s k r)
@[simp] theorem State.takeKill_members (s : State) (c : Nat) (d : Side) (x : BitVec 8) (w : Word32) : (s.takeKill c d x w).members = s.members := State.takeKill_same s c d x w (·.members) (fun _ _ => rfl) (fun s k g => State.modKernel_members s k g) (fun s k r => State.postRecord_members s k r)
@[simp] theorem State.takeKill_groups (s : State) (c : Nat) (d : Side) (x : BitVec 8) (w : Word32) : (s.takeKill c d x w).groups = s.groups := State.takeKill_same s c d x w (·.groups) (fun _ _ => rfl) (fun s k g => State.modKernel_groups s k g) (fun s k r => State.postRecord_groups s k r)
@[simp] theorem State.takeKill_timers (s : State) (c : Nat) (d : Side) (x : BitVec 8) (w : Word32) : (s.takeKill c d x w).timers = s.timers := State.takeKill_same s c d x w (·.timers) (fun _ _ => rfl) (fun s k g => State.modKernel_timers s k g) (fun s k r => State.postRecord_timers s k r)
@[simp] theorem State.takeKill_collectives (s : State) (c : Nat) (d : Side) (x : BitVec 8) (w : Word32) : (s.takeKill c d x w).collectives = s.collectives := State.takeKill_same s c d x w (·.collectives) (fun _ _ => rfl) (fun s k g => State.modKernel_collectives s k g) (fun s k r => State.postRecord_collectives s k r)
@[simp] theorem State.takeKill_shares (s : State) (c : Nat) (d : Side) (x : BitVec 8) (w : Word32) : (s.takeKill c d x w).shares = s.shares := State.takeKill_same s c d x w (·.shares) (fun _ _ => rfl) (fun s k g => State.modKernel_shares s k g) (fun s k r => State.postRecord_shares s k r)
@[simp] theorem State.takeKill_queues (s : State) (c : Nat) (d : Side) (x : BitVec 8) (w : Word32) : (s.takeKill c d x w).queues = s.queues := State.takeKill_same s c d x w (·.queues) (fun _ _ => rfl) (fun s k g => State.modKernel_queues s k g) (fun s k r => State.postRecord_queues s k r)
@[simp] theorem State.takeKill_graphs (s : State) (c : Nat) (d : Side) (x : BitVec 8) (w : Word32) : (s.takeKill c d x w).graphs = s.graphs := State.takeKill_same s c d x w (·.graphs) (fun _ _ => rfl) (fun s k g => State.modKernel_graphs s k g) (fun s k r => State.postRecord_graphs s k r)
@[simp] theorem State.takeKill_wakeRegs (s : State) (c : Nat) (d : Side) (x : BitVec 8) (w : Word32) : (s.takeKill c d x w).wakeRegs = s.wakeRegs := State.takeKill_same s c d x w (·.wakeRegs) (fun _ _ => rfl) (fun s k g => State.modKernel_wakeRegs s k g) (fun s k r => State.postRecord_wakeRegs s k r)
@[simp] theorem State.takeKill_outbox (s : State) (c : Nat) (d : Side) (x : BitVec 8) (w : Word32) : (s.takeKill c d x w).outbox = s.outbox := State.takeKill_same s c d x w (·.outbox) (fun _ _ => rfl) (fun s k g => State.modKernel_outbox s k g) (fun s k r => State.postRecord_outbox s k r)
@[simp] theorem State.takeKill_notices (s : State) (c : Nat) (d : Side) (x : BitVec 8) (w : Word32) : (s.takeKill c d x w).notices = s.notices := State.takeKill_same s c d x w (·.notices) (fun _ _ => rfl) (fun s k g => State.modKernel_notices s k g) (fun s k r => State.postRecord_notices s k r)
@[simp] theorem State.takeKill_checkpoints (s : State) (c : Nat) (d : Side) (x : BitVec 8) (w : Word32) : (s.takeKill c d x w).checkpoints = s.checkpoints := State.takeKill_same s c d x w (·.checkpoints) (fun _ _ => rfl) (fun s k g => State.modKernel_checkpoints s k g) (fun s k r => State.postRecord_checkpoints s k r)
@[simp] theorem State.takeKill_images (s : State) (c : Nat) (d : Side) (x : BitVec 8) (w : Word32) : (s.takeKill c d x w).images = s.images := State.takeKill_same s c d x w (·.images) (fun _ _ => rfl) (fun s k g => State.modKernel_images s k g) (fun s k r => State.postRecord_images s k r)
@[simp] theorem State.takeKill_device (s : State) (c : Nat) (d : Side) (x : BitVec 8) (w : Word32) : (s.takeKill c d x w).device = s.device := State.takeKill_same s c d x w (·.device) (fun _ _ => rfl) (fun s k g => State.modKernel_device s k g) (fun s k r => State.postRecord_device s k r)

@[simp] theorem State.outrank_turns (s : State) (c : Nat) (d : Side) (x : BitVec 8) (w : Word32) : (s.outrank c d x w).turns = s.turns := State.outrank_same s c d x w (·.turns) (fun s k g => State.modKernel_turns s k g)
@[simp] theorem State.outrank_cur (s : State) (c : Nat) (d : Side) (x : BitVec 8) (w : Word32) : (s.outrank c d x w).cur = s.cur := State.outrank_same s c d x w (·.cur) (fun s k g => State.modKernel_cur s k g)
@[simp] theorem State.outrank_side (s : State) (c : Nat) (d : Side) (x : BitVec 8) (w : Word32) : (s.outrank c d x w).side = s.side := State.outrank_same s c d x w (·.side) (fun s k g => State.modKernel_side s k g)
@[simp] theorem State.outrank_free (s : State) (c : Nat) (d : Side) (x : BitVec 8) (w : Word32) : (s.outrank c d x w).free = s.free := State.outrank_same s c d x w (·.free) (fun s k g => State.modKernel_free s k g)
@[simp] theorem State.outrank_fresh (s : State) (c : Nat) (d : Side) (x : BitVec 8) (w : Word32) : (s.outrank c d x w).fresh = s.fresh := State.outrank_same s c d x w (·.fresh) (fun s k g => State.modKernel_fresh s k g)
@[simp] theorem State.outrank_cyc (s : State) (c : Nat) (d : Side) (x : BitVec 8) (w : Word32) : (s.outrank c d x w).cyc = s.cyc := State.outrank_same s c d x w (·.cyc) (fun s k g => State.modKernel_cyc s k g)
@[simp] theorem State.outrank_mem (s : State) (c : Nat) (d : Side) (x : BitVec 8) (w : Word32) : (s.outrank c d x w).mem = s.mem := State.outrank_same s c d x w (·.mem) (fun s k g => State.modKernel_mem s k g)
@[simp] theorem State.outrank_scrubbed (s : State) (c : Nat) (d : Side) (x : BitVec 8) (w : Word32) : (s.outrank c d x w).scrubbed = s.scrubbed := State.outrank_same s c d x w (·.scrubbed) (fun s k g => State.modKernel_scrubbed s k g)
@[simp] theorem State.outrank_cores (s : State) (c : Nat) (d : Side) (x : BitVec 8) (w : Word32) : (s.outrank c d x w).cores = s.cores := State.outrank_same s c d x w (·.cores) (fun s k g => State.modKernel_cores s k g)
@[simp] theorem State.outrank_quads (s : State) (c : Nat) (d : Side) (x : BitVec 8) (w : Word32) : (s.outrank c d x w).quads = s.quads := State.outrank_same s c d x w (·.quads) (fun s k g => State.modKernel_quads s k g)
@[simp] theorem State.outrank_dies (s : State) (c : Nat) (d : Side) (x : BitVec 8) (w : Word32) : (s.outrank c d x w).dies = s.dies := State.outrank_same s c d x w (·.dies) (fun s k g => State.modKernel_dies s k g)
@[simp] theorem State.outrank_hmask (s : State) (c : Nat) (d : Side) (x : BitVec 8) (w : Word32) : (s.outrank c d x w).hmask = s.hmask := State.outrank_same s c d x w (·.hmask) (fun s k g => State.modKernel_hmask s k g)
@[simp] theorem State.outrank_nstr (s : State) (c : Nat) (d : Side) (x : BitVec 8) (w : Word32) : (s.outrank c d x w).nstr = s.nstr := State.outrank_same s c d x w (·.nstr) (fun s k g => State.modKernel_nstr s k g)
@[simp] theorem State.outrank_contexts (s : State) (c : Nat) (d : Side) (x : BitVec 8) (w : Word32) : (s.outrank c d x w).contexts = s.contexts := State.outrank_same s c d x w (·.contexts) (fun s k g => State.modKernel_contexts s k g)
@[simp] theorem State.outrank_partitions (s : State) (c : Nat) (d : Side) (x : BitVec 8) (w : Word32) : (s.outrank c d x w).partitions = s.partitions := State.outrank_same s c d x w (·.partitions) (fun s k g => State.modKernel_partitions s k g)
@[simp] theorem State.outrank_records (s : State) (c : Nat) (d : Side) (x : BitVec 8) (w : Word32) : (s.outrank c d x w).records = s.records := State.outrank_same s c d x w (·.records) (fun s k g => State.modKernel_records s k g)
@[simp] theorem State.outrank_members (s : State) (c : Nat) (d : Side) (x : BitVec 8) (w : Word32) : (s.outrank c d x w).members = s.members := State.outrank_same s c d x w (·.members) (fun s k g => State.modKernel_members s k g)
@[simp] theorem State.outrank_groups (s : State) (c : Nat) (d : Side) (x : BitVec 8) (w : Word32) : (s.outrank c d x w).groups = s.groups := State.outrank_same s c d x w (·.groups) (fun s k g => State.modKernel_groups s k g)
@[simp] theorem State.outrank_timers (s : State) (c : Nat) (d : Side) (x : BitVec 8) (w : Word32) : (s.outrank c d x w).timers = s.timers := State.outrank_same s c d x w (·.timers) (fun s k g => State.modKernel_timers s k g)
@[simp] theorem State.outrank_collectives (s : State) (c : Nat) (d : Side) (x : BitVec 8) (w : Word32) : (s.outrank c d x w).collectives = s.collectives := State.outrank_same s c d x w (·.collectives) (fun s k g => State.modKernel_collectives s k g)
@[simp] theorem State.outrank_shares (s : State) (c : Nat) (d : Side) (x : BitVec 8) (w : Word32) : (s.outrank c d x w).shares = s.shares := State.outrank_same s c d x w (·.shares) (fun s k g => State.modKernel_shares s k g)
@[simp] theorem State.outrank_queues (s : State) (c : Nat) (d : Side) (x : BitVec 8) (w : Word32) : (s.outrank c d x w).queues = s.queues := State.outrank_same s c d x w (·.queues) (fun s k g => State.modKernel_queues s k g)
@[simp] theorem State.outrank_graphs (s : State) (c : Nat) (d : Side) (x : BitVec 8) (w : Word32) : (s.outrank c d x w).graphs = s.graphs := State.outrank_same s c d x w (·.graphs) (fun s k g => State.modKernel_graphs s k g)
@[simp] theorem State.outrank_wakeRegs (s : State) (c : Nat) (d : Side) (x : BitVec 8) (w : Word32) : (s.outrank c d x w).wakeRegs = s.wakeRegs := State.outrank_same s c d x w (·.wakeRegs) (fun s k g => State.modKernel_wakeRegs s k g)
@[simp] theorem State.outrank_outbox (s : State) (c : Nat) (d : Side) (x : BitVec 8) (w : Word32) : (s.outrank c d x w).outbox = s.outbox := State.outrank_same s c d x w (·.outbox) (fun s k g => State.modKernel_outbox s k g)
@[simp] theorem State.outrank_notices (s : State) (c : Nat) (d : Side) (x : BitVec 8) (w : Word32) : (s.outrank c d x w).notices = s.notices := State.outrank_same s c d x w (·.notices) (fun s k g => State.modKernel_notices s k g)
@[simp] theorem State.outrank_checkpoints (s : State) (c : Nat) (d : Side) (x : BitVec 8) (w : Word32) : (s.outrank c d x w).checkpoints = s.checkpoints := State.outrank_same s c d x w (·.checkpoints) (fun s k g => State.modKernel_checkpoints s k g)
@[simp] theorem State.outrank_images (s : State) (c : Nat) (d : Side) (x : BitVec 8) (w : Word32) : (s.outrank c d x w).images = s.images := State.outrank_same s c d x w (·.images) (fun s k g => State.modKernel_images s k g)
@[simp] theorem State.outrank_device (s : State) (c : Nat) (d : Side) (x : BitVec 8) (w : Word32) : (s.outrank c d x w).device = s.device := State.outrank_same s c d x w (·.device) (fun s k g => State.modKernel_device s k g)

/-! The word completes. -/

@[simp] theorem State.retire_turns (s : State) (c : Nat) (d : Side) (m : Bool) : (s.retire c d m).turns = s.turns := by obtain ⟨q, h⟩ := State.retire_eq s c d m; rw [h]; rfl
@[simp] theorem State.retire_cur (s : State) (c : Nat) (d : Side) (m : Bool) : (s.retire c d m).cur = s.cur := by obtain ⟨q, h⟩ := State.retire_eq s c d m; rw [h]; rfl
@[simp] theorem State.retire_side (s : State) (c : Nat) (d : Side) (m : Bool) : (s.retire c d m).side = s.side := by obtain ⟨q, h⟩ := State.retire_eq s c d m; rw [h]; rfl
@[simp] theorem State.retire_free (s : State) (c : Nat) (d : Side) (m : Bool) : (s.retire c d m).free = s.free := by obtain ⟨q, h⟩ := State.retire_eq s c d m; rw [h]; rfl
@[simp] theorem State.retire_fresh (s : State) (c : Nat) (d : Side) (m : Bool) : (s.retire c d m).fresh = s.fresh := by obtain ⟨q, h⟩ := State.retire_eq s c d m; rw [h]; rfl
@[simp] theorem State.retire_cyc (s : State) (c : Nat) (d : Side) (m : Bool) : (s.retire c d m).cyc = s.cyc := by obtain ⟨q, h⟩ := State.retire_eq s c d m; rw [h]; rfl
@[simp] theorem State.retire_mem (s : State) (c : Nat) (d : Side) (m : Bool) : (s.retire c d m).mem = s.mem := by obtain ⟨q, h⟩ := State.retire_eq s c d m; rw [h]; rfl
@[simp] theorem State.retire_scrubbed (s : State) (c : Nat) (d : Side) (m : Bool) : (s.retire c d m).scrubbed = s.scrubbed := by obtain ⟨q, h⟩ := State.retire_eq s c d m; rw [h]; rfl
@[simp] theorem State.retire_quads (s : State) (c : Nat) (d : Side) (m : Bool) : (s.retire c d m).quads = s.quads := by obtain ⟨q, h⟩ := State.retire_eq s c d m; rw [h]; rfl
@[simp] theorem State.retire_dies (s : State) (c : Nat) (d : Side) (m : Bool) : (s.retire c d m).dies = s.dies := by obtain ⟨q, h⟩ := State.retire_eq s c d m; rw [h]; rfl
@[simp] theorem State.retire_hmask (s : State) (c : Nat) (d : Side) (m : Bool) : (s.retire c d m).hmask = s.hmask := by obtain ⟨q, h⟩ := State.retire_eq s c d m; rw [h]; rfl
@[simp] theorem State.retire_nstr (s : State) (c : Nat) (d : Side) (m : Bool) : (s.retire c d m).nstr = s.nstr := by obtain ⟨q, h⟩ := State.retire_eq s c d m; rw [h]; rfl
@[simp] theorem State.retire_contexts (s : State) (c : Nat) (d : Side) (m : Bool) : (s.retire c d m).contexts = s.contexts := by obtain ⟨q, h⟩ := State.retire_eq s c d m; rw [h]; rfl
@[simp] theorem State.retire_kernels (s : State) (c : Nat) (d : Side) (m : Bool) : (s.retire c d m).kernels = s.kernels := by obtain ⟨q, h⟩ := State.retire_eq s c d m; rw [h]; rfl
@[simp] theorem State.retire_partitions (s : State) (c : Nat) (d : Side) (m : Bool) : (s.retire c d m).partitions = s.partitions := by obtain ⟨q, h⟩ := State.retire_eq s c d m; rw [h]; rfl
@[simp] theorem State.retire_records (s : State) (c : Nat) (d : Side) (m : Bool) : (s.retire c d m).records = s.records := by obtain ⟨q, h⟩ := State.retire_eq s c d m; rw [h]; rfl
@[simp] theorem State.retire_members (s : State) (c : Nat) (d : Side) (m : Bool) : (s.retire c d m).members = s.members := by obtain ⟨q, h⟩ := State.retire_eq s c d m; rw [h]; rfl
@[simp] theorem State.retire_groups (s : State) (c : Nat) (d : Side) (m : Bool) : (s.retire c d m).groups = s.groups := by obtain ⟨q, h⟩ := State.retire_eq s c d m; rw [h]; rfl
@[simp] theorem State.retire_timers (s : State) (c : Nat) (d : Side) (m : Bool) : (s.retire c d m).timers = s.timers := by obtain ⟨q, h⟩ := State.retire_eq s c d m; rw [h]; rfl
@[simp] theorem State.retire_collectives (s : State) (c : Nat) (d : Side) (m : Bool) : (s.retire c d m).collectives = s.collectives := by obtain ⟨q, h⟩ := State.retire_eq s c d m; rw [h]; rfl
@[simp] theorem State.retire_shares (s : State) (c : Nat) (d : Side) (m : Bool) : (s.retire c d m).shares = s.shares := by obtain ⟨q, h⟩ := State.retire_eq s c d m; rw [h]; rfl
@[simp] theorem State.retire_queues (s : State) (c : Nat) (d : Side) (m : Bool) : (s.retire c d m).queues = s.queues := by obtain ⟨q, h⟩ := State.retire_eq s c d m; rw [h]; rfl
@[simp] theorem State.retire_graphs (s : State) (c : Nat) (d : Side) (m : Bool) : (s.retire c d m).graphs = s.graphs := by obtain ⟨q, h⟩ := State.retire_eq s c d m; rw [h]; rfl
@[simp] theorem State.retire_wakeRegs (s : State) (c : Nat) (d : Side) (m : Bool) : (s.retire c d m).wakeRegs = s.wakeRegs := by obtain ⟨q, h⟩ := State.retire_eq s c d m; rw [h]; rfl
@[simp] theorem State.retire_outbox (s : State) (c : Nat) (d : Side) (m : Bool) : (s.retire c d m).outbox = s.outbox := by obtain ⟨q, h⟩ := State.retire_eq s c d m; rw [h]; rfl
@[simp] theorem State.retire_notices (s : State) (c : Nat) (d : Side) (m : Bool) : (s.retire c d m).notices = s.notices := by obtain ⟨q, h⟩ := State.retire_eq s c d m; rw [h]; rfl
@[simp] theorem State.retire_checkpoints (s : State) (c : Nat) (d : Side) (m : Bool) : (s.retire c d m).checkpoints = s.checkpoints := by obtain ⟨q, h⟩ := State.retire_eq s c d m; rw [h]; rfl
@[simp] theorem State.retire_images (s : State) (c : Nat) (d : Side) (m : Bool) : (s.retire c d m).images = s.images := by obtain ⟨q, h⟩ := State.retire_eq s c d m; rw [h]; rfl
@[simp] theorem State.retire_device (s : State) (c : Nat) (d : Side) (m : Bool) : (s.retire c d m).device = s.device := by obtain ⟨q, h⟩ := State.retire_eq s c d m; rw [h]; rfl

@[simp] theorem State.retireTo_turns (s : State) (c : Nat) (d : Side) (n : Nat) (m : Bool) : (s.retireTo c d n m).turns = s.turns := by obtain ⟨q, h⟩ := State.retireTo_eq s c d n m; rw [h]; rfl
@[simp] theorem State.retireTo_cur (s : State) (c : Nat) (d : Side) (n : Nat) (m : Bool) : (s.retireTo c d n m).cur = s.cur := by obtain ⟨q, h⟩ := State.retireTo_eq s c d n m; rw [h]; rfl
@[simp] theorem State.retireTo_side (s : State) (c : Nat) (d : Side) (n : Nat) (m : Bool) : (s.retireTo c d n m).side = s.side := by obtain ⟨q, h⟩ := State.retireTo_eq s c d n m; rw [h]; rfl
@[simp] theorem State.retireTo_free (s : State) (c : Nat) (d : Side) (n : Nat) (m : Bool) : (s.retireTo c d n m).free = s.free := by obtain ⟨q, h⟩ := State.retireTo_eq s c d n m; rw [h]; rfl
@[simp] theorem State.retireTo_fresh (s : State) (c : Nat) (d : Side) (n : Nat) (m : Bool) : (s.retireTo c d n m).fresh = s.fresh := by obtain ⟨q, h⟩ := State.retireTo_eq s c d n m; rw [h]; rfl
@[simp] theorem State.retireTo_cyc (s : State) (c : Nat) (d : Side) (n : Nat) (m : Bool) : (s.retireTo c d n m).cyc = s.cyc := by obtain ⟨q, h⟩ := State.retireTo_eq s c d n m; rw [h]; rfl
@[simp] theorem State.retireTo_mem (s : State) (c : Nat) (d : Side) (n : Nat) (m : Bool) : (s.retireTo c d n m).mem = s.mem := by obtain ⟨q, h⟩ := State.retireTo_eq s c d n m; rw [h]; rfl
@[simp] theorem State.retireTo_scrubbed (s : State) (c : Nat) (d : Side) (n : Nat) (m : Bool) : (s.retireTo c d n m).scrubbed = s.scrubbed := by obtain ⟨q, h⟩ := State.retireTo_eq s c d n m; rw [h]; rfl
@[simp] theorem State.retireTo_quads (s : State) (c : Nat) (d : Side) (n : Nat) (m : Bool) : (s.retireTo c d n m).quads = s.quads := by obtain ⟨q, h⟩ := State.retireTo_eq s c d n m; rw [h]; rfl
@[simp] theorem State.retireTo_dies (s : State) (c : Nat) (d : Side) (n : Nat) (m : Bool) : (s.retireTo c d n m).dies = s.dies := by obtain ⟨q, h⟩ := State.retireTo_eq s c d n m; rw [h]; rfl
@[simp] theorem State.retireTo_hmask (s : State) (c : Nat) (d : Side) (n : Nat) (m : Bool) : (s.retireTo c d n m).hmask = s.hmask := by obtain ⟨q, h⟩ := State.retireTo_eq s c d n m; rw [h]; rfl
@[simp] theorem State.retireTo_nstr (s : State) (c : Nat) (d : Side) (n : Nat) (m : Bool) : (s.retireTo c d n m).nstr = s.nstr := by obtain ⟨q, h⟩ := State.retireTo_eq s c d n m; rw [h]; rfl
@[simp] theorem State.retireTo_contexts (s : State) (c : Nat) (d : Side) (n : Nat) (m : Bool) : (s.retireTo c d n m).contexts = s.contexts := by obtain ⟨q, h⟩ := State.retireTo_eq s c d n m; rw [h]; rfl
@[simp] theorem State.retireTo_kernels (s : State) (c : Nat) (d : Side) (n : Nat) (m : Bool) : (s.retireTo c d n m).kernels = s.kernels := by obtain ⟨q, h⟩ := State.retireTo_eq s c d n m; rw [h]; rfl
@[simp] theorem State.retireTo_partitions (s : State) (c : Nat) (d : Side) (n : Nat) (m : Bool) : (s.retireTo c d n m).partitions = s.partitions := by obtain ⟨q, h⟩ := State.retireTo_eq s c d n m; rw [h]; rfl
@[simp] theorem State.retireTo_records (s : State) (c : Nat) (d : Side) (n : Nat) (m : Bool) : (s.retireTo c d n m).records = s.records := by obtain ⟨q, h⟩ := State.retireTo_eq s c d n m; rw [h]; rfl
@[simp] theorem State.retireTo_members (s : State) (c : Nat) (d : Side) (n : Nat) (m : Bool) : (s.retireTo c d n m).members = s.members := by obtain ⟨q, h⟩ := State.retireTo_eq s c d n m; rw [h]; rfl
@[simp] theorem State.retireTo_groups (s : State) (c : Nat) (d : Side) (n : Nat) (m : Bool) : (s.retireTo c d n m).groups = s.groups := by obtain ⟨q, h⟩ := State.retireTo_eq s c d n m; rw [h]; rfl
@[simp] theorem State.retireTo_timers (s : State) (c : Nat) (d : Side) (n : Nat) (m : Bool) : (s.retireTo c d n m).timers = s.timers := by obtain ⟨q, h⟩ := State.retireTo_eq s c d n m; rw [h]; rfl
@[simp] theorem State.retireTo_collectives (s : State) (c : Nat) (d : Side) (n : Nat) (m : Bool) : (s.retireTo c d n m).collectives = s.collectives := by obtain ⟨q, h⟩ := State.retireTo_eq s c d n m; rw [h]; rfl
@[simp] theorem State.retireTo_shares (s : State) (c : Nat) (d : Side) (n : Nat) (m : Bool) : (s.retireTo c d n m).shares = s.shares := by obtain ⟨q, h⟩ := State.retireTo_eq s c d n m; rw [h]; rfl
@[simp] theorem State.retireTo_queues (s : State) (c : Nat) (d : Side) (n : Nat) (m : Bool) : (s.retireTo c d n m).queues = s.queues := by obtain ⟨q, h⟩ := State.retireTo_eq s c d n m; rw [h]; rfl
@[simp] theorem State.retireTo_graphs (s : State) (c : Nat) (d : Side) (n : Nat) (m : Bool) : (s.retireTo c d n m).graphs = s.graphs := by obtain ⟨q, h⟩ := State.retireTo_eq s c d n m; rw [h]; rfl
@[simp] theorem State.retireTo_wakeRegs (s : State) (c : Nat) (d : Side) (n : Nat) (m : Bool) : (s.retireTo c d n m).wakeRegs = s.wakeRegs := by obtain ⟨q, h⟩ := State.retireTo_eq s c d n m; rw [h]; rfl
@[simp] theorem State.retireTo_outbox (s : State) (c : Nat) (d : Side) (n : Nat) (m : Bool) : (s.retireTo c d n m).outbox = s.outbox := by obtain ⟨q, h⟩ := State.retireTo_eq s c d n m; rw [h]; rfl
@[simp] theorem State.retireTo_notices (s : State) (c : Nat) (d : Side) (n : Nat) (m : Bool) : (s.retireTo c d n m).notices = s.notices := by obtain ⟨q, h⟩ := State.retireTo_eq s c d n m; rw [h]; rfl
@[simp] theorem State.retireTo_checkpoints (s : State) (c : Nat) (d : Side) (n : Nat) (m : Bool) : (s.retireTo c d n m).checkpoints = s.checkpoints := by obtain ⟨q, h⟩ := State.retireTo_eq s c d n m; rw [h]; rfl
@[simp] theorem State.retireTo_images (s : State) (c : Nat) (d : Side) (n : Nat) (m : Bool) : (s.retireTo c d n m).images = s.images := by obtain ⟨q, h⟩ := State.retireTo_eq s c d n m; rw [h]; rfl
@[simp] theorem State.retireTo_device (s : State) (c : Nat) (d : Side) (n : Nat) (m : Bool) : (s.retireTo c d n m).device = s.device := by obtain ⟨q, h⟩ := State.retireTo_eq s c d n m; rw [h]; rfl

@[simp] theorem State.completed_turns (s : State) (c : Nat) (d : Side) (m : Bool) : (s.completed c d m).turns = s.turns := by obtain ⟨q, h⟩ := State.completed_eq s c d m; rw [h]; rfl
@[simp] theorem State.completed_cur (s : State) (c : Nat) (d : Side) (m : Bool) : (s.completed c d m).cur = s.cur := by obtain ⟨q, h⟩ := State.completed_eq s c d m; rw [h]; rfl
@[simp] theorem State.completed_side (s : State) (c : Nat) (d : Side) (m : Bool) : (s.completed c d m).side = s.side := by obtain ⟨q, h⟩ := State.completed_eq s c d m; rw [h]; rfl
@[simp] theorem State.completed_free (s : State) (c : Nat) (d : Side) (m : Bool) : (s.completed c d m).free = s.free := by obtain ⟨q, h⟩ := State.completed_eq s c d m; rw [h]; rfl
@[simp] theorem State.completed_fresh (s : State) (c : Nat) (d : Side) (m : Bool) : (s.completed c d m).fresh = s.fresh := by obtain ⟨q, h⟩ := State.completed_eq s c d m; rw [h]; rfl
@[simp] theorem State.completed_cyc (s : State) (c : Nat) (d : Side) (m : Bool) : (s.completed c d m).cyc = s.cyc := by obtain ⟨q, h⟩ := State.completed_eq s c d m; rw [h]; rfl
@[simp] theorem State.completed_mem (s : State) (c : Nat) (d : Side) (m : Bool) : (s.completed c d m).mem = s.mem := by obtain ⟨q, h⟩ := State.completed_eq s c d m; rw [h]; rfl
@[simp] theorem State.completed_scrubbed (s : State) (c : Nat) (d : Side) (m : Bool) : (s.completed c d m).scrubbed = s.scrubbed := by obtain ⟨q, h⟩ := State.completed_eq s c d m; rw [h]; rfl
@[simp] theorem State.completed_quads (s : State) (c : Nat) (d : Side) (m : Bool) : (s.completed c d m).quads = s.quads := by obtain ⟨q, h⟩ := State.completed_eq s c d m; rw [h]; rfl
@[simp] theorem State.completed_dies (s : State) (c : Nat) (d : Side) (m : Bool) : (s.completed c d m).dies = s.dies := by obtain ⟨q, h⟩ := State.completed_eq s c d m; rw [h]; rfl
@[simp] theorem State.completed_hmask (s : State) (c : Nat) (d : Side) (m : Bool) : (s.completed c d m).hmask = s.hmask := by obtain ⟨q, h⟩ := State.completed_eq s c d m; rw [h]; rfl
@[simp] theorem State.completed_nstr (s : State) (c : Nat) (d : Side) (m : Bool) : (s.completed c d m).nstr = s.nstr := by obtain ⟨q, h⟩ := State.completed_eq s c d m; rw [h]; rfl
@[simp] theorem State.completed_contexts (s : State) (c : Nat) (d : Side) (m : Bool) : (s.completed c d m).contexts = s.contexts := by obtain ⟨q, h⟩ := State.completed_eq s c d m; rw [h]; rfl
@[simp] theorem State.completed_kernels (s : State) (c : Nat) (d : Side) (m : Bool) : (s.completed c d m).kernels = s.kernels := by obtain ⟨q, h⟩ := State.completed_eq s c d m; rw [h]; rfl
@[simp] theorem State.completed_partitions (s : State) (c : Nat) (d : Side) (m : Bool) : (s.completed c d m).partitions = s.partitions := by obtain ⟨q, h⟩ := State.completed_eq s c d m; rw [h]; rfl
@[simp] theorem State.completed_records (s : State) (c : Nat) (d : Side) (m : Bool) : (s.completed c d m).records = s.records := by obtain ⟨q, h⟩ := State.completed_eq s c d m; rw [h]; rfl
@[simp] theorem State.completed_members (s : State) (c : Nat) (d : Side) (m : Bool) : (s.completed c d m).members = s.members := by obtain ⟨q, h⟩ := State.completed_eq s c d m; rw [h]; rfl
@[simp] theorem State.completed_groups (s : State) (c : Nat) (d : Side) (m : Bool) : (s.completed c d m).groups = s.groups := by obtain ⟨q, h⟩ := State.completed_eq s c d m; rw [h]; rfl
@[simp] theorem State.completed_timers (s : State) (c : Nat) (d : Side) (m : Bool) : (s.completed c d m).timers = s.timers := by obtain ⟨q, h⟩ := State.completed_eq s c d m; rw [h]; rfl
@[simp] theorem State.completed_collectives (s : State) (c : Nat) (d : Side) (m : Bool) : (s.completed c d m).collectives = s.collectives := by obtain ⟨q, h⟩ := State.completed_eq s c d m; rw [h]; rfl
@[simp] theorem State.completed_shares (s : State) (c : Nat) (d : Side) (m : Bool) : (s.completed c d m).shares = s.shares := by obtain ⟨q, h⟩ := State.completed_eq s c d m; rw [h]; rfl
@[simp] theorem State.completed_queues (s : State) (c : Nat) (d : Side) (m : Bool) : (s.completed c d m).queues = s.queues := by obtain ⟨q, h⟩ := State.completed_eq s c d m; rw [h]; rfl
@[simp] theorem State.completed_graphs (s : State) (c : Nat) (d : Side) (m : Bool) : (s.completed c d m).graphs = s.graphs := by obtain ⟨q, h⟩ := State.completed_eq s c d m; rw [h]; rfl
@[simp] theorem State.completed_wakeRegs (s : State) (c : Nat) (d : Side) (m : Bool) : (s.completed c d m).wakeRegs = s.wakeRegs := by obtain ⟨q, h⟩ := State.completed_eq s c d m; rw [h]; rfl
@[simp] theorem State.completed_outbox (s : State) (c : Nat) (d : Side) (m : Bool) : (s.completed c d m).outbox = s.outbox := by obtain ⟨q, h⟩ := State.completed_eq s c d m; rw [h]; rfl
@[simp] theorem State.completed_notices (s : State) (c : Nat) (d : Side) (m : Bool) : (s.completed c d m).notices = s.notices := by obtain ⟨q, h⟩ := State.completed_eq s c d m; rw [h]; rfl
@[simp] theorem State.completed_checkpoints (s : State) (c : Nat) (d : Side) (m : Bool) : (s.completed c d m).checkpoints = s.checkpoints := by obtain ⟨q, h⟩ := State.completed_eq s c d m; rw [h]; rfl
@[simp] theorem State.completed_images (s : State) (c : Nat) (d : Side) (m : Bool) : (s.completed c d m).images = s.images := by obtain ⟨q, h⟩ := State.completed_eq s c d m; rw [h]; rfl
@[simp] theorem State.completed_device (s : State) (c : Nat) (d : Side) (m : Bool) : (s.completed c d m).device = s.device := by obtain ⟨q, h⟩ := State.completed_eq s c d m; rw [h]; rfl

@[simp] theorem State.progress_turns (s : State) (c : Nat) (d : Side) (n : Nat) : (s.progress c d n).turns = s.turns := by obtain ⟨q, h⟩ := State.progress_eq s c d n; rw [h]; rfl
@[simp] theorem State.progress_cur (s : State) (c : Nat) (d : Side) (n : Nat) : (s.progress c d n).cur = s.cur := by obtain ⟨q, h⟩ := State.progress_eq s c d n; rw [h]; rfl
@[simp] theorem State.progress_side (s : State) (c : Nat) (d : Side) (n : Nat) : (s.progress c d n).side = s.side := by obtain ⟨q, h⟩ := State.progress_eq s c d n; rw [h]; rfl
@[simp] theorem State.progress_free (s : State) (c : Nat) (d : Side) (n : Nat) : (s.progress c d n).free = s.free := by obtain ⟨q, h⟩ := State.progress_eq s c d n; rw [h]; rfl
@[simp] theorem State.progress_fresh (s : State) (c : Nat) (d : Side) (n : Nat) : (s.progress c d n).fresh = s.fresh := by obtain ⟨q, h⟩ := State.progress_eq s c d n; rw [h]; rfl
@[simp] theorem State.progress_cyc (s : State) (c : Nat) (d : Side) (n : Nat) : (s.progress c d n).cyc = s.cyc := by obtain ⟨q, h⟩ := State.progress_eq s c d n; rw [h]; rfl
@[simp] theorem State.progress_mem (s : State) (c : Nat) (d : Side) (n : Nat) : (s.progress c d n).mem = s.mem := by obtain ⟨q, h⟩ := State.progress_eq s c d n; rw [h]; rfl
@[simp] theorem State.progress_scrubbed (s : State) (c : Nat) (d : Side) (n : Nat) : (s.progress c d n).scrubbed = s.scrubbed := by obtain ⟨q, h⟩ := State.progress_eq s c d n; rw [h]; rfl
@[simp] theorem State.progress_quads (s : State) (c : Nat) (d : Side) (n : Nat) : (s.progress c d n).quads = s.quads := by obtain ⟨q, h⟩ := State.progress_eq s c d n; rw [h]; rfl
@[simp] theorem State.progress_dies (s : State) (c : Nat) (d : Side) (n : Nat) : (s.progress c d n).dies = s.dies := by obtain ⟨q, h⟩ := State.progress_eq s c d n; rw [h]; rfl
@[simp] theorem State.progress_hmask (s : State) (c : Nat) (d : Side) (n : Nat) : (s.progress c d n).hmask = s.hmask := by obtain ⟨q, h⟩ := State.progress_eq s c d n; rw [h]; rfl
@[simp] theorem State.progress_nstr (s : State) (c : Nat) (d : Side) (n : Nat) : (s.progress c d n).nstr = s.nstr := by obtain ⟨q, h⟩ := State.progress_eq s c d n; rw [h]; rfl
@[simp] theorem State.progress_contexts (s : State) (c : Nat) (d : Side) (n : Nat) : (s.progress c d n).contexts = s.contexts := by obtain ⟨q, h⟩ := State.progress_eq s c d n; rw [h]; rfl
@[simp] theorem State.progress_kernels (s : State) (c : Nat) (d : Side) (n : Nat) : (s.progress c d n).kernels = s.kernels := by obtain ⟨q, h⟩ := State.progress_eq s c d n; rw [h]; rfl
@[simp] theorem State.progress_partitions (s : State) (c : Nat) (d : Side) (n : Nat) : (s.progress c d n).partitions = s.partitions := by obtain ⟨q, h⟩ := State.progress_eq s c d n; rw [h]; rfl
@[simp] theorem State.progress_records (s : State) (c : Nat) (d : Side) (n : Nat) : (s.progress c d n).records = s.records := by obtain ⟨q, h⟩ := State.progress_eq s c d n; rw [h]; rfl
@[simp] theorem State.progress_members (s : State) (c : Nat) (d : Side) (n : Nat) : (s.progress c d n).members = s.members := by obtain ⟨q, h⟩ := State.progress_eq s c d n; rw [h]; rfl
@[simp] theorem State.progress_groups (s : State) (c : Nat) (d : Side) (n : Nat) : (s.progress c d n).groups = s.groups := by obtain ⟨q, h⟩ := State.progress_eq s c d n; rw [h]; rfl
@[simp] theorem State.progress_timers (s : State) (c : Nat) (d : Side) (n : Nat) : (s.progress c d n).timers = s.timers := by obtain ⟨q, h⟩ := State.progress_eq s c d n; rw [h]; rfl
@[simp] theorem State.progress_collectives (s : State) (c : Nat) (d : Side) (n : Nat) : (s.progress c d n).collectives = s.collectives := by obtain ⟨q, h⟩ := State.progress_eq s c d n; rw [h]; rfl
@[simp] theorem State.progress_shares (s : State) (c : Nat) (d : Side) (n : Nat) : (s.progress c d n).shares = s.shares := by obtain ⟨q, h⟩ := State.progress_eq s c d n; rw [h]; rfl
@[simp] theorem State.progress_queues (s : State) (c : Nat) (d : Side) (n : Nat) : (s.progress c d n).queues = s.queues := by obtain ⟨q, h⟩ := State.progress_eq s c d n; rw [h]; rfl
@[simp] theorem State.progress_graphs (s : State) (c : Nat) (d : Side) (n : Nat) : (s.progress c d n).graphs = s.graphs := by obtain ⟨q, h⟩ := State.progress_eq s c d n; rw [h]; rfl
@[simp] theorem State.progress_wakeRegs (s : State) (c : Nat) (d : Side) (n : Nat) : (s.progress c d n).wakeRegs = s.wakeRegs := by obtain ⟨q, h⟩ := State.progress_eq s c d n; rw [h]; rfl
@[simp] theorem State.progress_outbox (s : State) (c : Nat) (d : Side) (n : Nat) : (s.progress c d n).outbox = s.outbox := by obtain ⟨q, h⟩ := State.progress_eq s c d n; rw [h]; rfl
@[simp] theorem State.progress_notices (s : State) (c : Nat) (d : Side) (n : Nat) : (s.progress c d n).notices = s.notices := by obtain ⟨q, h⟩ := State.progress_eq s c d n; rw [h]; rfl
@[simp] theorem State.progress_checkpoints (s : State) (c : Nat) (d : Side) (n : Nat) : (s.progress c d n).checkpoints = s.checkpoints := by obtain ⟨q, h⟩ := State.progress_eq s c d n; rw [h]; rfl
@[simp] theorem State.progress_images (s : State) (c : Nat) (d : Side) (n : Nat) : (s.progress c d n).images = s.images := by obtain ⟨q, h⟩ := State.progress_eq s c d n; rw [h]; rfl
@[simp] theorem State.progress_device (s : State) (c : Nat) (d : Side) (n : Nat) : (s.progress c d n).device = s.device := by obtain ⟨q, h⟩ := State.progress_eq s c d n; rw [h]; rfl

/-! Registers under writes home and completion. -/

@[simp] theorem State.task_markLine (s : State) (a c : Nat) : (s.markLine a).task c = s.task c := by
  unfold State.markLine
  split
  · split
    · rename_i k o _ _
      by_cases h : c = k
      · subst h; simp [State.task]
      · simp [State.task, State.core_setCore_ne _ _ h]
    · rfl
  · rfl

@[simp] theorem State.mode_markLine (s : State) (a c : Nat) : ((s.markLine a).core c).mode = (s.core c).mode := by
  unfold State.markLine
  split
  · split
    · rename_i k o _ _
      by_cases h : c = k
      · subst h; simp
      · simp [State.core_setCore_ne _ _ h]
    · rfl
  · rfl

@[simp] theorem State.task_markLines (s : State) (a n c : Nat) : (s.markLines a n).task c = s.task c :=
  State.foldl_markLine _ _ s (fun s => s.task c) (fun s a => State.task_markLine s a c)
@[simp] theorem State.mode_markLines (s : State) (a n c : Nat) : ((s.markLines a n).core c).mode = (s.core c).mode :=
  State.foldl_markLine _ _ s (fun s => (s.core c).mode) (fun s a => State.mode_markLine s a c)
@[simp] theorem State.task_markDirtyGranule (s : State) (a n c : Nat) : (s.markDirtyGranule a n).task c = s.task c := rfl
@[simp] theorem State.core_markDirtyGranule (s : State) (a n c : Nat) : (s.markDirtyGranule a n).core c = s.core c := rfl

@[simp] theorem State.task_writeByte (s : State) (a c : Nat) (b : Byte) : (s.writeByte a b).task c = s.task c := by
  simp only [State.writeByte, State.task_markDirtyGranule, State.task_markLine]; rfl
@[simp] theorem State.mode_writeByte (s : State) (a c : Nat) (b : Byte) : ((s.writeByte a b).core c).mode = (s.core c).mode := by
  simp only [State.writeByte, State.core_markDirtyGranule, State.mode_markLine]; rfl
@[simp] theorem State.task_writeCells (s : State) (l : List Host.Cell) (c : Nat) : (s.writeCells l).task c = s.task c :=
  State.foldl_writeByte l s (fun s => s.task c) (fun s a b => State.task_writeByte s a c b)
@[simp] theorem State.mode_writeCells (s : State) (l : List Host.Cell) (c : Nat) : ((s.writeCells l).core c).mode = (s.core c).mode :=
  State.foldl_writeByte l s (fun s => (s.core c).mode) (fun s a b => State.mode_writeByte s a c b)
@[simp] theorem State.task_writeRun (s : State) (a c : Nat) (l : List Byte) : (s.writeRun a l).task c = s.task c := by
  unfold State.writeRun
  split
  · rfl
  · simp only [State.task_markDirtyGranule, State.task_markLines]; rfl
@[simp] theorem State.mode_writeRun (s : State) (a c : Nat) (l : List Byte) : ((s.writeRun a l).core c).mode = (s.core c).mode := by
  unfold State.writeRun
  split
  · rfl
  · simp only [State.core_markDirtyGranule, State.mode_markLines]; rfl
@[simp] theorem State.task_setPoolLine (s : State) (c o c' : Nat) (i : Image) : (s.setPoolLine c o i).task c' = s.task c' := by
  simp [State.setPoolLine]
@[simp] theorem State.task_postRecord (s : State) (k : Nat) (r : Rec) (c : Nat) : (s.postRecord k r).task c = s.task c := by
  simp [State.task, State.core]
@[simp] theorem State.core_postRecord (s : State) (k : Nat) (r : Rec) (c : Nat) : (s.postRecord k r).core c = s.core c := by
  simp [State.core]
@[simp] theorem State.core_modKernel (s : State) (n : Nat) (f : Kernel → Kernel) (c : Nat) : (s.modKernel n f).core c = s.core c := by
  simp [State.core]
@[simp] theorem State.task_modKernel (s : State) (n : Nat) (f : Kernel → Kernel) (c : Nat) : (s.modKernel n f).task c = s.task c := by
  simp [State.task]

@[simp] theorem State.mem_writeByte (s : State) (a : Nat) (b : Byte) : (s.writeByte a b).mem = s.mem.write a b := by
  simp [State.writeByte]
@[simp] theorem State.mem_writeCells (s : State) (l : List Host.Cell) : (s.writeCells l).mem = s.mem.writeCells l := by
  unfold State.writeCells Memory.writeCells
  induction l generalizing s with
  | nil => rfl
  | cons x l ih => simp only [List.foldl_cons, ih, State.mem_writeByte]
theorem Memory.writeRun_nil {m : Memory} (a : Nat) (h : Memory.wf m = true) : m.writeRun a [] = m := by
  unfold Memory.writeRun
  rw [Memory.wf_iff] at h
  have key : ∀ l : Memory, l.Pairwise (fun p q => p.1 < q.1) →
      l.filter (fun c => decide (c.1 < a)) ++ l.filter (fun c => decide (a ≤ c.1)) = l := by
    intro l
    induction l with
    | nil => intro _; rfl
    | cons x l ih =>
      intro hl
      have hl := List.pairwise_cons.mp hl
      by_cases hx : x.1 < a
      · have : ¬ a ≤ x.1 := by omega
        simp [List.filter, hx, this, ih hl.2]
      · have h1 : l.filter (fun c => decide (c.1 < a)) = [] := by
          rw [List.filter_eq_nil_iff]
          intro y hy
          have := hl.1 y hy
          simp only [decide_eq_true_eq]
          omega
        have h2 : l.filter (fun c => decide (a ≤ c.1)) = l := by
          rw [List.filter_eq_self]
          intro y hy
          have := hl.1 y hy
          simp only [decide_eq_true_eq]
          omega
        have : a ≤ x.1 := by omega
        simp [List.filter, hx, this, h1, h2]
  simpa [Memory.cellsOf] using key m h.1
theorem State.mem_writeRun (s : State) (a : Nat) (l : List Byte) (h : l ≠ []) : (s.writeRun a l).mem = s.mem.writeRun a l := by
  unfold State.writeRun
  split
  · exact absurd rfl h
  · simp
/-- A run of bytes changes no byte outside it. -/
theorem State.read_writeRun (s : State) (a : Nat) (l : List Byte) (j : Nat) :
    (s.writeRun a l).mem.read j = if a ≤ j ∧ j < a + l.length then l[j - a]?.getD unlisted else s.mem.read j := by
  by_cases h : l = []
  · subst h
    have : ¬(a ≤ j ∧ j < a) := by omega
    simp [State.writeRun, this]
  · rw [State.mem_writeRun s a l h, Memory.read_writeRun]

@[simp] theorem length_bytesOf (n x : Nat) : (bytesOf n x).length = n := by
  induction n generalizing x with
  | zero => rfl
  | succ n ih => simp [bytesOf, ih]
theorem getElem_bytesOf (n x i : Nat) (h : i < n) : (bytesOf n x)[i]? = some (BitVec.ofNat 8 (x / 2 ^ (8 * i))) := by
  induction n generalizing x i with
  | zero => omega
  | succ n ih =>
    cases i with
    | zero => simp [bytesOf]
    | succ i =>
      simp only [bytesOf, List.getElem?_cons_succ]
      rw [ih _ _ (by omega)]
      have : 8 * (i + 1) = 8 + 8 * i := by omega
      rw [this, Nat.pow_add, ← Nat.div_div_eq_div_mul]

/-- The bytes of a pool line after it is written. -/
theorem State.read_setPoolLine (s : State) (c o : Nat) (img : Image) (j : Nat) :
    (s.setPoolLine c o img).mem.read j =
      if poolBase c + o ≤ j ∧ j < poolBase c + o + 4096 then BitVec.ofNat 8 (img.toNat / 2 ^ (8 * (j - (poolBase c + o)))) else s.mem.read j := by
  unfold State.setPoolLine
  rw [State.read_writeRun, length_bytesOf]
  split
  · rw [getElem_bytesOf _ _ _ (by omega)]; rfl
  · rfl

/-! Traps leave every register and every other core as they are. -/

@[simp] theorem State.task_takeKill (s : State) (c : Nat) (d : Side) (x : BitVec 8) (w : Word32) (c' : Nat) :
    (s.takeKill c d x w).task c' = s.task c' := by
  have h : (s.setCore c { s.core c with mode := .stopped }).task c' = s.task c' := by
    by_cases hc : c' = c
    · subst hc; simp [State.task]
    · simp [State.task, State.core_setCore_ne _ _ hc]
  unfold State.takeKill
  dsimp only
  split
  · exact h
  · split
    · split <;> rw [State.task_modKernel, h]
    · rw [State.task_modKernel, State.task_postRecord, h]
theorem State.core_takeKill_ne (s : State) {c c' : Nat} (d : Side) (x : BitVec 8) (w : Word32) (h : c' ≠ c) :
    (s.takeKill c d x w).core c' = s.core c' := by
  unfold State.takeKill
  dsimp only
  split
  · exact State.core_setCore_ne _ _ h
  · split
    · split <;> rw [State.core_modKernel, State.core_setCore_ne _ _ h]
    · rw [State.core_modKernel, State.core_postRecord, State.core_setCore_ne _ _ h]
@[simp] theorem State.core_outrank (s : State) (c : Nat) (d : Side) (x : BitVec 8) (w : Word32) (c' : Nat) :
    (s.outrank c d x w).core c' = s.core c' :=
  State.outrank_same s c d x w (fun s => s.core c') (fun s k f => State.core_modKernel s k f c')
/-- A trap of fate Kill: the sequencer counts as issued, then the kill, or the comparison with the trap already taken. -/
theorem State.takeTrap_kill (s : State) (c : Nat) (d : Side) (x : BitVec 8) (h : x ≠ 0x10#8) :
    s.takeTrap c d x =
      (let s := s.setSeq c d { s.seq c d with issued := true }
       if (s.core c).mode = .stopped then s.outrank c d x (s.curWord c d) else s.takeKill c d x (s.curWord c d)) := by
  simp [State.takeTrap, h]

/-! Row parts (R153, R171). -/

/-- Sharing a stored byte goes both ways. -/
theorem sameRow_comm (r q : Row) : sameRow r q = sameRow q r := by
  apply Bool.eq_iff_iff.mpr
  simp only [sameRow, List.any_eq_true, Bool.and_eq_true, decide_eq_true_eq]
  exact ⟨fun ⟨x, hx, y, hy, h, k⟩ => ⟨y, hy, x, hx, k, h⟩, fun ⟨x, hx, y, hy, h, k⟩ => ⟨y, hy, x, hx, k, h⟩⟩

/-- Without a swizzle a row part is one range. -/
@[simp] theorem rowAt_plain (base lo hi : Nat) : rowAt base 0 lo hi = [(base + lo, base + hi)] := by simp [rowAt]

end Sys2Proof.Machine
end

