-- ==== Sys2Proof/Laws/Groups.lean ====
section
/-! SUPPORT. What telling other packages can do (R288): a message more, and for a member that comes to meet its conditions its note. -/
namespace Sys2Proof.Machine

/-- Telling an arrival leaves the state or sends one message. -/
theorem State.tell_eq (s : State) (uid : Nat) (sc : Scope) (met : Bool) : s.tell uid sc met = s ∨ ∃ m, s.tell uid sc met = s.send m := by
  unfold State.tell
  dsimp only
  split
  · exact .inr ⟨_, rfl⟩
  · exact .inl rfl

@[simp] theorem State.mem_tell (s : State) (uid : Nat) (sc : Scope) (met : Bool) : (s.tell uid sc met).mem = s.mem := by
  obtain h | ⟨m, h⟩ := s.tell_eq uid sc met <;> rw [h]
  rfl
@[simp] theorem State.cores_tell (s : State) (uid : Nat) (sc : Scope) (met : Bool) : (s.tell uid sc met).cores = s.cores := by
  obtain h | ⟨m, h⟩ := s.tell_eq uid sc met <;> rw [h]
  rfl

/-- Announcing leaves the state, or notes that the member has been told of and tells it. -/
theorem State.announce_eq (s : State) (uid : Nat) :
    s.announce uid = s ∨ ∃ sc, s.announce uid = (s.setMember uid { s.member uid with told := true }).tell uid sc true := by
  unfold State.announce
  dsimp only
  split
  · rename_i sc _
    split
    · exact .inr ⟨sc, rfl⟩
    · exact .inl rfl
  · exact .inl rfl

@[simp] theorem State.mem_announce (s : State) (uid : Nat) : (s.announce uid).mem = s.mem := by
  obtain h | ⟨sc, h⟩ := s.announce_eq uid <;> rw [h]
  simp
@[simp] theorem State.cores_announce (s : State) (uid : Nat) : (s.announce uid).cores = s.cores := by
  obtain h | ⟨sc, h⟩ := s.announce_eq uid <;> rw [h]
  simp

/-- Telling an end leaves the state or sends one message. -/
theorem State.tellEnd_eq (s : State) (uid : Nat) : s.tellEnd uid = s ∨ ∃ m, s.tellEnd uid = s.send m := by
  unfold State.tellEnd
  dsimp only
  split
  · exact .inr ⟨_, rfl⟩
  · exact .inl rfl

end Sys2Proof.Machine
end

