-- ==== Sys2Proof/Laws/Migration.lean ====
section
/-! SUPPORT. What telling other packages of launch groups and offers can do (R147, R288, R292, R293): messages more, and nothing else. -/
namespace Sys2Proof.Machine

/-- Telling that a record migrates leaves the state or sends one message. -/
theorem State.tellMigrating_eq (s : State) (r : RingRec) (on : Bool) : s.tellMigrating r on = s ∨ ∃ m, s.tellMigrating r on = s.send m := by
  unfold State.tellMigrating
  split
  · split
    · exact .inr ⟨_, rfl⟩
    · exact .inl rfl
  · exact .inl rfl

/-- Telling that a launch group begins leaves the state or sends one message. -/
theorem State.tellLaunch_eq (s : State) (part g : Nat) (x : Group) (n : Nat) : s.tellLaunch part g x n = s ∨ ∃ m, s.tellLaunch part g x n = s.send m := by
  unfold State.tellLaunch
  split
  · exact .inr ⟨_, rfl⟩
  · exact .inl rfl

/-- Telling where tasks start leaves the state or sends one message. -/
theorem State.tellStart_eq (s : State) (r : RingRec) (l : List Nat) : s.tellStart r l = s ∨ ∃ m, s.tellStart r l = s.send m := by
  unfold State.tellStart
  dsimp only
  split
  · split
    · exact .inr ⟨_, rfl⟩
    · exact .inl rfl
  · exact .inl rfl

/-- Calling a record back sends messages and changes nothing else. -/
theorem State.callBack_eq (s : State) (r : RingRec) : ∃ l, s.callBack r = { s with outbox := s.outbox ++ l } := by
  have told : ∃ l, (if r.migrates then s.tellMigrating r false else s) = { s with outbox := s.outbox ++ l } := by
    split
    · obtain h | ⟨m, h⟩ := s.tellMigrating_eq r false
      · exact ⟨[], by rw [h, List.append_nil]⟩
      · exact ⟨[m], by rw [h]; rfl⟩
    · exact ⟨[], by rw [List.append_nil]⟩
  obtain ⟨l, h⟩ := told
  unfold State.callBack
  dsimp only
  rw [h]
  split
  · exact ⟨l ++ [_], by simp [State.send]; rfl⟩
  · exact ⟨l ++ [_], by simp [State.send]; rfl⟩
  · exact ⟨l, rfl⟩

@[simp] theorem State.mem_callBack (s : State) (r : RingRec) : (s.callBack r).mem = s.mem := by
  obtain ⟨l, h⟩ := s.callBack_eq r
  rw [h]
@[simp] theorem State.records_callBack (s : State) (r : RingRec) : (s.callBack r).records = s.records := by
  obtain ⟨l, h⟩ := s.callBack_eq r
  rw [h]
@[simp] theorem State.cores_callBack (s : State) (r : RingRec) : (s.callBack r).cores = s.cores := by
  obtain ⟨l, h⟩ := s.callBack_eq r
  rw [h]

/-- A function of a launch group changes the groups alone. -/
theorem State.modGroup_eq (s : State) (g : Option Nat) (f : Group → Group) : ∃ m, s.modGroup g f = { s with groups := m } := by
  unfold State.modGroup
  split
  · exact ⟨_, rfl⟩
  · exact ⟨s.groups, rfl⟩

end Sys2Proof.Machine
end

