-- ==== Sys2Proof/Tests/Slice0.lean ====
section
/-! SUPPORT. Tests of the model on small states, the smoke test of WellFormed, a witness for the hypotheses of every statement that has
any (witness_<Name>), and the words of the encoding tables. Expected results are worked out by hand from the rules cited. -/
set_option Elab.async false
namespace Sys2Proof.Tests
open Sys2Proof Sys2Proof.Machine Sys2Proof.Claims

/-- Words of the encoding tables from add to clz (R42 to R47). -/
theorem test_decode_add :
    decode 0x4058BB40#32 = .ok (.add .x 22#6 11#6 45#6) ∧
    decode 0x4058BB41#32 = .ok (.sub .x 22#6 11#6 45#6) ∧
    decode 0x4058BB42#32 = .ok (.and .x 22#6 11#6 45#6) ∧
    decode 0x4058BB43#32 = .ok (.or .x 22#6 11#6 45#6) ∧
    decode 0x4058BB44#32 = .ok (.xor .x 22#6 11#6 45#6) ∧
    decode 0x4058BB45#32 = .ok (.sll .x 22#6 11#6 45#6) ∧
    decode 0x4058BB46#32 = .ok (.srl .x 22#6 11#6 45#6) ∧
    decode 0x4058BB47#32 = .ok (.sra .x 22#6 11#6 45#6) ∧
    decode 0x4058BB48#32 = .ok (.mul .x 22#6 11#6 45#6) ∧
    decode 0x4058BB49#32 = .ok (.mulh .x 22#6 11#6 45#6) ∧
    decode 0x4058BB4A#32 = .ok (.mulhu .x 22#6 11#6 45#6) ∧
    decode 0x4058B00B#32 = .ok (.clz .x 22#6 11#6) :=
  ⟨rfl, rfl, rfl, rfl, rfl, rfl, rfl, rfl, rfl, rfl, rfl, rfl⟩

/-- Words of the encoding tables from slt to ori (R42 to R47). -/
theorem test_decode_slt :
    decode 0x4058BB4C#32 = .ok (.slt .x 22#6 11#6 45#6) ∧
    decode 0x4058BB4D#32 = .ok (.sltu .x 22#6 11#6 45#6) ∧
    decode 0x4058BB4E#32 = .ok (.seq .x 22#6 11#6 45#6) ∧
    decode 0x4058BB4F#32 = .ok (.sne .x 22#6 11#6 45#6) ∧
    decode 0x4058BB50#32 = .ok (.min .x 22#6 11#6 45#6) ∧
    decode 0x4058BB51#32 = .ok (.max .x 22#6 11#6 45#6) ∧
    decode 0x4058BB52#32 = .ok (.minu .x 22#6 11#6 45#6) ∧
    decode 0x4058BB53#32 = .ok (.maxu .x 22#6 11#6 45#6) ∧
    decode 0x4058BB54#32 = .ok (.sel .x 22#6 11#6 45#6) ∧
    decode 0x4158B8A1#32 = .ok (.addi .x 22#6 11#6 2209#12) ∧
    decode 0x4258B8A1#32 = .ok (.andi .x 22#6 11#6 2209#12) ∧
    decode 0x4358B8A1#32 = .ok (.ori .x 22#6 11#6 2209#12) :=
  ⟨rfl, rfl, rfl, rfl, rfl, rfl, rfl, rfl, rfl, rfl, rfl, rfl⟩

/-- Words of the encoding tables from xori to qflush (R42 to R47). -/
theorem test_decode_xori :
    decode 0x4458B8A1#32 = .ok (.xori .x 22#6 11#6 2209#12) ∧
    decode 0x4558B8A1#32 = .ok (.slti .x 22#6 11#6 2209#12) ∧
    decode 0x4658B8A1#32 = .ok (.sltiu .x 22#6 11#6 2209#12) ∧
    decode 0x4758B02D#32 = .ok (.slli .x 22#6 11#6 45#6) ∧
    decode 0x4758B42D#32 = .ok (.srli .x 22#6 11#6 45#6) ∧
    decode 0x4758B82D#32 = .ok (.srai .x 22#6 11#6 45#6) ∧
    decode 0x4858BB53#32 = .ok (.bfx .x 22#6 11#6 45#6 19#6) ∧
    decode 0x4958BB53#32 = .ok (.bfxs .x 22#6 11#6 45#6 19#6) ∧
    decode 0x4A5ABCDE#32 = .ok (.movi .x 22#6 179422#18) ∧
    decode 0x4B5BBEEF#32 = .ok (.movhi .x 22#6 3#2 48879#16) ∧
    decode 0x4E58B000#32 = .ok (.qmov .x 22#6 11#6) ∧
    decode 0x4F016000#32 = .ok (.qflush .x 22#6) :=
  ⟨rfl, rfl, rfl, rfl, rfl, rfl, rfl, rfl, rfl, rfl, rfl, rfl⟩

/-- Words of the encoding tables from bpa to aadd (R42 to R47). -/
theorem test_decode_bpa :
    decode 0x109568A1#32 = .ok (.bpa 37#6 22#6 2209#12) ∧
    decode 0x509568A1#32 = .ok (.bpx 37#6 22#6 2209#12) ∧
    decode 0x520168A1#32 = .ok (.jmpi .x 22#6 2209#12) ∧
    decode 0x14558B2D#32 = .ok (.lds 5#4 22#6 11#6 45#8) ∧
    decode 0x15558B2D#32 = .ok (.sts 5#4 22#6 11#6 45#8) ∧
    decode 0x16558B2D#32 = .ok (.ldv 5#4 22#6 11#6 45#8) ∧
    decode 0x17558B2D#32 = .ok (.stv 5#4 22#6 11#6 45#8) ∧
    decode 0x18558B2D#32 = .ok (.ldq 5#4 22#6 11#6 45#8) ∧
    decode 0x19558B2D#32 = .ok (.stq 5#4 22#6 11#6 45#8) ∧
    decode 0x1A558B00#32 = .ok (.ldg 5#4 22#6 11#6) ∧
    decode 0x1B558B00#32 = .ok (.stg 5#4 22#6 11#6) ∧
    decode 0x1C558B93#32 = .ok (.aadd 5#4 22#6 11#6 1#1 19#7) :=
  ⟨rfl, rfl, rfl, rfl, rfl, rfl, rfl, rfl, rfl, rfl, rfl, rfl⟩

/-- Words of the encoding tables from amin to trans (R42 to R47). -/
theorem test_decode_amin :
    decode 0x1D558B93#32 = .ok (.amin 5#4 22#6 11#6 1#1 19#7) ∧
    decode 0x1E558B93#32 = .ok (.amax 5#4 22#6 11#6 1#1 19#7) ∧
    decode 0x1F558B93#32 = .ok (.aand 5#4 22#6 11#6 1#1 19#7) ∧
    decode 0x20558B93#32 = .ok (.aor 5#4 22#6 11#6 1#1 19#7) ∧
    decode 0x21558B93#32 = .ok (.axor 5#4 22#6 11#6 1#1 19#7) ∧
    decode 0x22558B93#32 = .ok (.axchg 5#4 22#6 11#6 1#1 19#7) ∧
    decode 0x23558B93#32 = .ok (.acas 5#4 22#6 11#6 1#1 19#7) ∧
    decode 0x24558B01#32 = .ok (.vaadd 5#4 22#6 11#6 1#1) ∧
    decode 0x25558B00#32 = .ok (.vaor 5#4 22#6 11#6) ∧
    decode 0x26558B01#32 = .ok (.vamin 5#4 22#6 11#6 1#1) ∧
    decode 0x27558B01#32 = .ok (.vamax 5#4 22#6 11#6 1#1) ∧
    decode 0x28558B03#32 = .ok (.trans 5#4 22#6 11#6 1#1 1#1) :=
  ⟨rfl, rfl, rfl, rfl, rfl, rfl, rfl, rfl, rfl, rfl, rfl, rfl⟩

/-- Words of the encoding tables from tqry to ewait (R42 to R47). -/
theorem test_decode_tqry :
    decode 0x2955800B#32 = .ok (.tqry 5#4 22#6 11#8) ∧
    decode 0x2A558001#32 = .ok (.kmov 5#4 22#6 1#1) ∧
    decode 0x2B500000#32 = .ok (.relq 5#4) ∧
    decode 0x2C55800B#32 = .ok (.nstQ 5#4 22#6 11#8) ∧
    decode 0x30562C00#32 = .ok (.sbind 5#4 6#4 11#6) ∧
    decode 0x31500000#32 = .ok (.sdrop 5#4) ∧
    decode 0x32009560#32 = .ok (.copy 37#6 22#6) ∧
    decode 0x335058B0#32 = .ok (.collRed 5#4 22#6 11#6) ∧
    decode 0x335058B1#32 = .ok (.collAr 5#4 22#6 11#6) ∧
    decode 0x335058B2#32 = .ok (.collGat 5#4 22#6 11#6) ∧
    decode 0x335058B3#32 = .ok (.collBc 5#4 22#6 11#6) ∧
    decode 0x34250000#32 = .ok (.ewait 37#8) :=
  ⟨rfl, rfl, rfl, rfl, rfl, rfl, rfl, rfl, rfl, rfl, rfl, rfl⟩

/-- Words of the encoding tables from esig to vmax (R42 to R47). -/
theorem test_decode_esig :
    decode 0x35250000#32 = .ok (.esig 37#8) ∧
    decode 0x3850160B#32 = .ok (.spawn 5#4 22#6 11#8) ∧
    decode 0x3950160B#32 = .ok (.join 5#4 22#6 11#8) ∧
    decode 0x7B580000#32 = .ok (.cycrd .x 22#6) ∧
    decode 0x7C000016#32 = .ok (.trap .x 22#8) ∧
    decode 0x7D5808A1#32 = .ok (.rds .x 22#6 2209#12) ∧
    decode 0x7E0168A1#32 = .ok (.wrs .x 22#6 2209#12) ∧
    decode 0x589562E8#32 = .ok (.vadd 37#6 22#6 11#6 5#3) ∧
    decode 0x589562E9#32 = .ok (.vsub 37#6 22#6 11#6 5#3) ∧
    decode 0x589562EA#32 = .ok (.vmul 37#6 22#6 11#6 5#3) ∧
    decode 0x589562EB#32 = .ok (.vmin 37#6 22#6 11#6 5#3) ∧
    decode 0x589562EC#32 = .ok (.vmax 37#6 22#6 11#6 5#3) :=
  ⟨rfl, rfl, rfl, rfl, rfl, rfl, rfl, rfl, rfl, rfl, rfl, rfl⟩

/-- Words of the encoding tables from vabs to vimin (R42 to R47). -/
theorem test_decode_vabs :
    decode 0x5895601D#32 = .ok (.vabs 37#6 22#6 3#3) ∧
    decode 0x5895601E#32 = .ok (.vneg 37#6 22#6 3#3) ∧
    decode 0x5895601F#32 = .ok (.vmov 37#6 22#6 3#3) ∧
    decode 0x599562E8#32 = .ok (.vfma 37#6 22#6 11#6 5#3) ∧
    decode 0x5A956018#32 = .ok (.vrcp 37#6 22#6 3#3) ∧
    decode 0x5A956019#32 = .ok (.vrsq 37#6 22#6 3#3) ∧
    decode 0x5A95601A#32 = .ok (.vexp2 37#6 22#6 3#3) ∧
    decode 0x5A95601B#32 = .ok (.vlog2 37#6 22#6 3#3) ∧
    decode 0x5B9562E8#32 = .ok (.viadd 37#6 22#6 11#6 5#3) ∧
    decode 0x5B9562E9#32 = .ok (.visub 37#6 22#6 11#6 5#3) ∧
    decode 0x5B9562EA#32 = .ok (.vimul 37#6 22#6 11#6 5#3) ∧
    decode 0x5B9562EB#32 = .ok (.vimin 37#6 22#6 11#6 5#3) :=
  ⟨rfl, rfl, rfl, rfl, rfl, rfl, rfl, rfl, rfl, rfl, rfl, rfl⟩

/-- Words of the encoding tables from vimax to vsraH (R42 to R47). -/
theorem test_decode_vimax :
    decode 0x5B9562EC#32 = .ok (.vimax 37#6 22#6 11#6 5#3) ∧
    decode 0x5B9562ED#32 = .ok (.vshl 37#6 22#6 11#6 5#3) ∧
    decode 0x5B9562EE#32 = .ok (.vshr 37#6 22#6 11#6 5#3) ∧
    decode 0x5B9562EF#32 = .ok (.vsra 37#6 22#6 11#6 5#3) ∧
    decode 0x5C9562E8#32 = .ok (.viaddH 37#6 22#6 11#6 5#3) ∧
    decode 0x5C9562E9#32 = .ok (.visubH 37#6 22#6 11#6 5#3) ∧
    decode 0x5C9562EA#32 = .ok (.vimulH 37#6 22#6 11#6 5#3) ∧
    decode 0x5C9562EB#32 = .ok (.viminH 37#6 22#6 11#6 5#3) ∧
    decode 0x5C9562EC#32 = .ok (.vimaxH 37#6 22#6 11#6 5#3) ∧
    decode 0x5C9562ED#32 = .ok (.vshlH 37#6 22#6 11#6 5#3) ∧
    decode 0x5C9562EE#32 = .ok (.vshrH 37#6 22#6 11#6 5#3) ∧
    decode 0x5C9562EF#32 = .ok (.vsraH 37#6 22#6 11#6 5#3) :=
  ⟨rfl, rfl, rfl, rfl, rfl, rfl, rfl, rfl, rfl, rfl, rfl, rfl⟩

/-- Words of the encoding tables from viaddB to visubHS (R42 to R47). -/
theorem test_decode_viaddB :
    decode 0x5D9562E8#32 = .ok (.viaddB 37#6 22#6 11#6 5#3) ∧
    decode 0x5D9562E9#32 = .ok (.visubB 37#6 22#6 11#6 5#3) ∧
    decode 0x5D9562EA#32 = .ok (.vimulB 37#6 22#6 11#6 5#3) ∧
    decode 0x5D9562EB#32 = .ok (.viminB 37#6 22#6 11#6 5#3) ∧
    decode 0x5D9562EC#32 = .ok (.vimaxB 37#6 22#6 11#6 5#3) ∧
    decode 0x5D9562ED#32 = .ok (.vshlB 37#6 22#6 11#6 5#3) ∧
    decode 0x5D9562EE#32 = .ok (.vshrB 37#6 22#6 11#6 5#3) ∧
    decode 0x5D9562EF#32 = .ok (.vsraB 37#6 22#6 11#6 5#3) ∧
    decode 0x5E9562E8#32 = .ok (.viaddS 37#6 22#6 11#6 5#3) ∧
    decode 0x5E9562E9#32 = .ok (.visubS 37#6 22#6 11#6 5#3) ∧
    decode 0x5E9562EA#32 = .ok (.viaddHS 37#6 22#6 11#6 5#3) ∧
    decode 0x5E9562EB#32 = .ok (.visubHS 37#6 22#6 11#6 5#3) :=
  ⟨rfl, rfl, rfl, rfl, rfl, rfl, rfl, rfl, rfl, rfl, rfl, rfl⟩

/-- Words of the encoding tables from viaddBS to vcun (R42 to R47). -/
theorem test_decode_viaddBS :
    decode 0x5E9562EC#32 = .ok (.viaddBS 37#6 22#6 11#6 5#3) ∧
    decode 0x5E9562ED#32 = .ok (.visubBS 37#6 22#6 11#6 5#3) ∧
    decode 0x5F9562E8#32 = .ok (.vand 37#6 22#6 11#6 5#3) ∧
    decode 0x5F9562E9#32 = .ok (.vor 37#6 22#6 11#6 5#3) ∧
    decode 0x5F9562EA#32 = .ok (.vxor 37#6 22#6 11#6 5#3) ∧
    decode 0x5F9562EB#32 = .ok (.vandn 37#6 22#6 11#6 5#3) ∧
    decode 0x60956BD3#32 = .ok (.vcvt 37#6 22#6 11#4 13#4 3#4) ∧
    decode 0x619562E8#32 = .ok (.vceq 37#6 22#6 11#6 5#3) ∧
    decode 0x619562E9#32 = .ok (.vcne 37#6 22#6 11#6 5#3) ∧
    decode 0x619562EA#32 = .ok (.vclt 37#6 22#6 11#6 5#3) ∧
    decode 0x619562EB#32 = .ok (.vcle 37#6 22#6 11#6 5#3) ∧
    decode 0x619562EC#32 = .ok (.vcun 37#6 22#6 11#6 5#3) :=
  ⟨rfl, rfl, rfl, rfl, rfl, rfl, rfl, rfl, rfl, rfl, rfl, rfl⟩

/-- Words of the encoding tables from viceq to vsel (R42 to R47). -/
theorem test_decode_viceq :
    decode 0x629562E8#32 = .ok (.viceq 37#6 22#6 11#6 5#3) ∧
    decode 0x629562E9#32 = .ok (.vicne 37#6 22#6 11#6 5#3) ∧
    decode 0x629562EA#32 = .ok (.viclt 37#6 22#6 11#6 5#3) ∧
    decode 0x629562EB#32 = .ok (.vicle 37#6 22#6 11#6 5#3) ∧
    decode 0x629562EC#32 = .ok (.vicltu 37#6 22#6 11#6 5#3) ∧
    decode 0x629562ED#32 = .ok (.vicleu 37#6 22#6 11#6 5#3) ∧
    decode 0x639562C0#32 = .ok (.mand 37#6 22#6 11#6) ∧
    decode 0x639562C1#32 = .ok (.mor 37#6 22#6 11#6) ∧
    decode 0x639562C2#32 = .ok (.mxor 37#6 22#6 11#6) ∧
    decode 0x639562C3#32 = .ok (.mandn 37#6 22#6 11#6) ∧
    decode 0x63956004#32 = .ok (.mnot 37#6 22#6) ∧
    decode 0x649562E8#32 = .ok (.vsel 37#6 22#6 11#6 5#3) :=
  ⟨rfl, rfl, rfl, rfl, rfl, rfl, rfl, rfl, rfl, rfl, rfl, rfl⟩

/-- Words of the encoding tables from vbcast to drainF (R42 to R47). -/
theorem test_decode_vbcast :
    decode 0x65956018#32 = .ok (.vbcast 37#6 22#6 3#3) ∧
    decode 0x65940031#32 = .ok (.vlid 37#6 6#3) ∧
    decode 0x669562ED#32 = .ok (.vrotm 37#6 22#6 11#6 45#6) ∧
    decode 0x679562E8#32 = .ok (.vperm 37#6 22#6 11#6 5#3) ∧
    decode 0x679562E9#32 = .ok (.vzipl 37#6 22#6 11#6 5#3) ∧
    decode 0x679562EA#32 = .ok (.vziph 37#6 22#6 11#6 5#3) ∧
    decode 0x68956018#32 = .ok (.vradd 37#6 22#6 3#3) ∧
    decode 0x68956019#32 = .ok (.vrmax 37#6 22#6 3#3) ∧
    decode 0x6895601A#32 = .ok (.vrmin 37#6 22#6 3#3) ∧
    decode 0x69025598#32 = .ok (.defer 37#6 22#6 3#3) ∧
    decode 0x6A9562C0#32 = .ok (.drain 37#6 22#6 11#6) ∧
    decode 0x6A9562E9#32 = .ok (.drainF 37#6 22#6 11#6 5#3) :=
  ⟨rfl, rfl, rfl, rfl, rfl, rfl, rfl, rfl, rfl, rfl, rfl, rfl⟩

/-- Words of the encoding tables from prec to ewaitX (R42 to R47). -/
theorem test_decode_prec :
    decode 0x70AD6000#32 = .ok (.prec 5#3 6#4 11#4) ∧
    decode 0x71A00000#32 = .ok (.mclr 5#3) ∧
    decode 0x72AD7680#32 = .ok (.mmul 5#3 6#4 11#4 45#6) ∧
    decode 0x73AD7680#32 = .ok (.mmuls 5#3 6#4 11#4 45#6) ∧
    decode 0x74AC0000#32 = .ok (.mld 5#3 6#4) ∧
    decode 0x75AD6002#32 = .ok (.mst 5#3 6#4 11#4 1#1) ∧
    decode 0x75A0C583#32 = .ok (.mstQ 5#3 6#4 11#6 1#1) ∧
    decode 0x76000000#32 = .ok .lease ∧
    decode 0x77000000#32 = .ok .unlease ∧
    decode 0x78000000#32 = .ok .histClr ∧
    decode 0x78001281#32 = .ok (.histRd 37#6) ∧
    decode 0x79250000#32 = .ok (.ewaitX 37#8) :=
  ⟨rfl, rfl, rfl, rfl, rfl, rfl, rfl, rfl, rfl, rfl, rfl, rfl⟩

/-- Words of the encoding tables from esigX to nst (R42 to R47). -/
theorem test_decode_esigX :
    decode 0x7A250000#32 = .ok (.esigX 37#8) ∧
    decode 0x80812345#32 = .ok (.b 8463173#24) ∧
    decode 0x819568A1#32 = .ok (.brx 37#6 22#6 2209#12) ∧
    decode 0x829568A1#32 = .ok (.bra 37#6 22#6 2209#12) ∧
    decode 0x83812345#32 = .ok (.call 8463173#24) ∧
    decode 0x84000000#32 = .ok .ret ∧
    decode 0x859568A1#32 = .ok (.loop 37#6 22#6 2209#12) ∧
    decode 0x869568A1#32 = .ok (.loopS 37#6 22#6 2209#12) ∧
    decode 0x879568A1#32 = .ok (.loopA 37#6 22#6 2209#12) ∧
    decode 0x88A0B000#32 = .ok (.bar 5#3 0#1 11#6) ∧
    decode 0x88B0B000#32 = .ok (.phase 5#3 0#1 11#6) ∧
    decode 0x8955800B#32 = .ok (.nst 5#4 22#6 11#8) :=
  ⟨rfl, rfl, rfl, rfl, rfl, rfl, rfl, rfl, rfl, rfl, rfl, rfl⟩

/-- Words of the encoding tables from tend to halt (R42 to R47). -/
theorem test_decode_tend :
    decode 0x8A000000#32 = .ok .tend ∧
    decode 0x8B812345#32 = .ok (.ychk 8463173#24) ∧
    decode 0x8C501600#32 = .ok (.yield 5#4 22#6) ∧
    decode 0x8D000000#32 = .ok .halt :=
  ⟨rfl, rfl, rfl, rfl⟩
/-! Small states. -/

/-- A kernel of eight words of zeros (NOP) with one pinned extent's worth of rights to nothing. -/
def kern : Kernel := { placedKernel 0#32 with textLen := 8 }
/-- The number of kernel 1 of context 1. -/
def key : Nat := kernelKey 1 1
/-- One page of 64 KiB of the far tier, kept as it is. -/
def page : Frame := ⟨65536, 0x20000000000, false, 0, none, false, false⟩
/-- An active entry over that page, of 8192 bytes. -/
def ent : PetEntry := { PetEntry.fresh with state := .active, r := true, w := true, gen := 7#12, len := 8192, frames := [page], kid := key }
/-- A context with the entry at index 5. -/
def ctx : Context := ⟨1, 0, 0, 0x100000, 16, 0x200000, 64, [(5, ent)], []⟩
/-- The handle of the entry. -/
def hdl : Word32 := 0x00700005#32
/-- A task of kernel 1 whose k2 names the entry and whose a- and s-registers hold their numbers. -/
def task : Task := { Task.reset with
  uid := 1, kid := key, ctx := 1, part := 1, frameOk := true, partw := placedPartw, k := (Task.reset.k.set 2 hdl).set 0 hdl,
  a := Vector.ofFn (fun i => BitVec.ofNat 64 i.val), sr := Vector.ofFn (fun i => BitVec.ofNat 64 i.val) }
/-- Core 0 runs the task. -/
def base : State := { State.reset with
  kernels := [(key, kern)], contexts := [(1, ctx)], partitions := [(1, { Partition.default with inSlice := true })],
  cores := [(0, { Core.reset with mode := .run, task := task })],
  members := [(1, ⟨key, 1, 1, 0, 1, 1, none, 0, Vector.replicate 5 0#32, none, false, Vector.replicate 5 0#32, false, false, [], [], none, none, false⟩)],
  device := { Device.reset with stage := .full } }
/-- The same with the task changed. -/
def on (f : Task → Task) : State := base.modTask 0 f
/-- The same with X's turn. -/
def baseX : State := { base with side := .x }
/-- The task with one element at the head of queue `n`. -/
def oneIn (n : Nat) : Task → Task := fun t => t.setQueue n { t.queue n with occ := 1 }
/-- What a run answers, if it answers a next state. -/
def after (o : Host.Outcome State Fault Refusal) : State := match o with | .next t => t | .fault _ | .refused _ => State.reset

/-! WellFormed refuses an ill-formed term for each of its checks. -/

theorem smoke_wellformed_operands :
    wellFormed (.add .a 36#6 1#6 2#6) = false ∧ wellFormed (.add .a 3#6 32#6 2#6) = false ∧ wellFormed (.add .x 3#6 1#6 36#6) = false ∧
    wellFormed (.add .x 40#6 1#6 2#6) = false ∧ wellFormed (.clz .a 3#6 33#6) = false ∧ wellFormed (.sel .a 32#6 1#6 2#6) = false ∧
    wellFormed (.addi .x 35#6 1#6 0#12) = false ∧ wellFormed (.bfx .a 1#6 2#6 60#6 4#6) = false ∧ wellFormed (.movi .a 37#6 0#18) = false ∧
    wellFormed (.movhi .x 36#6 0#2 0#16) = false ∧ wellFormed (.qmov .a 36#6 37#6) = false ∧ wellFormed (.qmov .x 33#6 1#6) = false ∧
    wellFormed (.qflush .a 5#6) = false ∧ wellFormed (.bpa 32#6 0#6 0#12) = false ∧ wellFormed (.bpx 1#6 6#6 0#12) = false ∧
    wellFormed (.jmpi .x 36#6 0#12) = false ∧ wellFormed (.cycrd .a 36#6) = false ∧ wellFormed (.wrs .a 32#6 1#12) = false := by decide

theorem smoke_wellformed_memory :
    wellFormed (.lds 1#4 36#6 2#6 0#8) = false ∧ wellFormed (.lds 1#4 3#6 32#6 0#8) = false ∧ wellFormed (.sts 1#4 32#6 2#6 0#8) = false ∧
    wellFormed (.ldv 1#4 3#6 2#6 0#8) = false ∧ wellFormed (.stv 1#4 32#6 2#6 0#8) = false ∧ wellFormed (.ldg 1#4 32#6 5#6) = false ∧
    wellFormed (.stg 1#4 36#6 32#6) = false ∧ wellFormed (.aadd 1#4 36#6 2#6 0#1 0#7) = false ∧
    wellFormed (.acas 1#4 31#6 2#6 0#1 0#7) = false ∧ wellFormed (.vaadd 1#4 36#6 2#6 0#1) = false ∧
    wellFormed (.trans 0#4 1#6 2#6 0#1 0#1) = false ∧ wellFormed (.tqry 1#4 3#6 4#8) = false ∧ wellFormed (.kmov 0#4 3#6 0#1) = false ∧
    wellFormed (.nstQ 1#4 36#6 0#8) = false ∧ wellFormed (.nstQ 1#4 36#6 9#8) = false ∧ wellFormed (.nstQ 0#4 36#6 1#8) = false ∧
    wellFormed (.collRed 5#4 1#6 2#6) = false ∧ wellFormed (.trap .a 0x7F#8) = false := by decide

theorem smoke_wellformed_vector :
    wellFormed (.vadd 32#6 1#6 2#6 0#3) = false ∧ wellFormed (.vadd 1#6 36#6 2#6 0#3) = false ∧ wellFormed (.vadd 1#6 2#6 40#6 0#3) = false ∧
    wellFormed (.vfma 36#6 1#6 2#6 0#3) = false ∧ wellFormed (.vceq 8#6 1#6 2#6 0#3) = false ∧ wellFormed (.mand 1#6 8#6 0#6) = false ∧
    wellFormed (.mnot 1#6 9#6) = false ∧ wellFormed (.prec 0#3 0#4 1#4) = false ∧ wellFormed (.mmul 0#3 2#4 2#4 1#6) = false ∧
    wellFormed (.brx 32#6 0#6 0#12) = false ∧ wellFormed (.bra 1#6 6#6 0#12) = false ∧ wellFormed (.bar 5#3 0#1 0#6) = false := by decide

theorem smoke_wellformed_accepts :
    wellFormed (.add .a 3#6 1#6 36#6) = true ∧ wellFormed (.lds 1#4 33#6 2#6 0#8) = true ∧ wellFormed (.vadd 37#6 32#6 31#6 7#3) = true ∧
    wellFormed (.acas 1#4 30#6 2#6 0#1 0#7) = true ∧ wellFormed (.nstQ 15#4 39#6 8#8) = true := by decide

/-! Words and scalar instructions. -/

theorem witness_StepRunsTheDecodedWord :
    let u : State := { base with turns := [], cur := 0, side := .a }
    (u.seq 0 .a).issued = false ∧ u.issues 0 .a = true ∧ (u.task 0).heldSlow = false ∧ u.kernel (u.task 0).kid = some kern ∧
    kern.executable 0 = true ∧ u.ownFrom kern .a 0 < kern.textLen ∧ decode (u.textWord kern (u.ownFrom kern .a 0)) = .ok (.add .a 0#6 0#6 0#6) ∧
    fld (u.textWord kern 0) 30 2 ≠ 2#2 := by decide +kernel

theorem witness_OtherTurnsTickOrRunTheirEvent : State.reset.turns = [] ∧ encode (.chainStart 0) = none ∧ encode .halt ≠ none := by
  decide +kernel

theorem witness_EncodedWordsDecodeBack : wellFormed (.add .x 22#6 11#6 34#6) = true ∧ encode (.add .x 22#6 11#6 34#6) = some 0x4058B880#32 := by
  decide +kernel

theorem witness_ScalarOperands :
    (base.task 0).await 31 = .none ∧ ((on (fun t => t.setAwait 31 .error)).task 0).await 31 = .error ∧
    1 ≤ (((on (oneIn 4)).task 0).queue 4).ready (pwDepth placedPartw) ∧ 1 ≤ (((on (oneIn 7)).task 0).queue 7).ready (pwDepth placedPartw) ∧
    ((base.task 0).queue 0).occ + ((base.task 0).queue 0).freed < pwDepth placedPartw ∧
    (base.writeOp 0 .a 0#6 5#64).isOk = true := by decide +kernel

/-- ADD a3, a1, q4 (R65, R68): 1 plus the head element's first eight bytes, 0 here. -/
theorem test_add_register_and_queue : ((after (exec (.add .a 3#6 1#6 36#6) (on (oneIn 4)))).task 0).areg 3 = 1#64 ∧
    (((after (exec (.add .a 3#6 1#6 36#6) (on (oneIn 4)))).task 0).queue 4).occ = 0 := by decide +kernel

/-- SUB wraps modulo 2^64 (R68). -/
theorem test_sub_wraps : ((after (exec (.sub .x 3#6 1#6 2#6) baseX)).task 0).sreg 3 = 0xFFFFFFFFFFFFFFFF#64 := by decide +kernel

/-- A write of a0 is discarded (R21). -/
theorem test_a0_discards : ((after (exec (.addi .a 0#6 1#6 5#12) base)).task 0).areg 0 = 0#64 := by decide +kernel

theorem witness_AluGroupResults :
    wellFormed (.sel .a 3#6 1#6 36#6) = true ∧
    (match (on (oneIn 4)).readOp 0 .a 1#6 with
      | .ok (x, s1) => (match s1.readOp 0 .a 36#6 with
        | .ok (y, s2) => (match s2.readOp 0 .a 3#6 with
          | .ok (z, s3) => (s3.writeOp 0 .a 3#6 (if z ≠ 0#64 then x else y)).isOk
          | .error _ => false)
        | .error _ => false)
      | .error _ => false) = true := by decide +kernel

/-- MULHU of 2^64 - 1 by itself (R68): 2^64 - 2. -/
theorem test_mulhu : ((after (exec (.mulhu .a 3#6 1#6 1#6) (on (·.setAreg 1 0xFFFFFFFFFFFFFFFF#64)))).task 0).areg 3 = 0xFFFFFFFFFFFFFFFE#64 := by
  decide +kernel

theorem witness_ImmediateAndMoveResults :
    wellFormed (.srai .x 3#6 1#6 63#6) = true ∧ wellFormed (.bfxs .a 3#6 1#6 60#6 3#6) = true ∧ wellFormed (.movhi .a 3#6 3#2 0x8000#16) = true ∧
    (base.writeOp 0 .a 3#6 7#64).isOk = true ∧ (base.readOp 0 .a 3#6).isOk = true := by decide +kernel

/-- MOVHI puts 16 bits into half 3 and keeps the rest (R72). -/
theorem test_movhi : ((after (exec (.movhi .a 3#6 3#2 0x8001#16) base)).task 0).areg 3 = 0x8001000000000003#64 := by decide +kernel

/-- BFXS of bits 0 to 1 of 3 is -1 (R71). -/
theorem test_bfxs : ((after (exec (.bfxs .a 4#6 3#6 0#6 1#6) base)).task 0).areg 4 = 0xFFFFFFFFFFFFFFFF#64 := by decide +kernel

theorem witness_QueueInstructionResults :
    ((on (oneIn 4)).popVector 0 4).isOk = true ∧ (base.pushVector 0 0 0#32768).isOk = true ∧
    (base.task 0).granted 31#6 = true ∧ (base.srcV 0 31#6).isOk = true ∧ produces .a 0 = true ∧ produces .a 4 = false ∧
    ((base.task 0).queue 0).g = 0 ∧
    (((on (fun t => t.setQueue 0 { t.queue 0 with g := 1 })).task 0).queue 0).g ≠ 0 ∧ base.qroom 0 0 = true ∧
    (((on (fun t => t.setQueue 4 { t.queue 4 with occ := 1, p := 8 })).task 0).queue 4).p ≠ 0 := by decide +kernel

theorem witness_SystemRegisters :
    (base.writeOp 0 .a 3#6 base.cyc).isOk = true ∧ sysTable.length = 54 ∧ wellFormed (.rds .x 3#6 0x037#12) = true ∧
    (∀ x ∈ sysTable.map (·.1), x ≠ 0x038) ∧ wellFormed (.wrs .x 1#6 0x037#12) = true := by decide +kernel

theorem witness_sysWritable : sysWritable .a 1 ∧ sysWritable .x 0x13 ∧ ¬sysWritable .a 0x13 ∧ ¬sysWritable .a 6 ∧ sysWritable .x 0x37 ∧
    ¬sysWritable .x 0x38 := by simp [sysWritable]

theorem witness_sysLegal : sysLegal placedPartw 0x20 0x11#64 ∧ ¬sysLegal placedPartw 0x20 0x09#64 ∧ sysFree (base.task 0) 0x30 := by
  refine ⟨by constructor <;> intros <;> simp_all, fun h => ?_, fun n _ _ => Or.inr ?_⟩
  · have := (h.1 (by omega) (by omega)).1
    revert this; decide
  · have : (base.task 0).mq = [] := by decide +kernel
    simp [this]

/-- RDS of SLIPW reads its reset value 8 (R19, R275). -/
theorem test_rds_slipw : ((after (exec (.rds .a 6#6 0x001#12) base)).task 0).areg 6 = 8#64 := by decide +kernel

theorem witness_ScalarWordsChangeNothingElse :
    scalarDest (.add .a 33#6 1#6 2#6) = some (.a, 33#6) ∧ scalarDest (.movi .x 3#6 5#18) = some (.x, 3#6) ∧
    (match exec (.add .a 33#6 1#6 2#6) base with | .next _ => true | _ => false) = true := by decide +kernel

theorem witness_TrapInstructions :
    0x80 ≤ (0x85#8).toNat ∧ (0x7F#8).toNat < 0x80 ∧ (base.core 0).mode = .run ∧
    65536 ≤ ((base.setCore 0 { base.core 0 with blockedFor := 65536 }).core 0).blockedFor ∧ (base.core 0).blockedFor < 65536 := by decide +kernel

/-- TRAP #0x85 stops the core with cause 0x85 in the kernel's death (R268, R278). -/
theorem test_trap : ((after (exec (.trap .a 0x85#8) base)).core 0).mode = .stopped ∧
    ((after (exec (.trap .a 0x85#8) base)).kernel key).map (fun k => k.dying.map (·.cause)) = some (some 0x85#8) := by decide +kernel

theorem witness_TakingATrap :
    (0x85#8 : BitVec 8) ≠ 0x10#8 ∧ (base.core 0).mode ≠ .stopped ∧ base.kernel (base.task 0).kid = some kern ∧ kern.dying = none ∧
    kern.area.length < 2 ^ kern.recLog ∧ (base.task 0).frameOk = true ∧ ((on (fun t => { t with frameOk := false })).task 0).frameOk = false := by
  decide +kernel

theorem witness_CompletedWordsAdvance :
    (base.seq 0 .a).order = [] ∧
    (let s := base.setSeq 0 .a { base.seq 0 .a with order := [1], lc := (base.seq 0 .a).lc.set 1 ⟨2#32, 0#32, 0#32, true⟩ }
     (s.seq 0 .a).lc[1]? = some ⟨2#32, 0#32, 0#32, true⟩ ∧ (s.seq 0 .a).pc.toNat ≤ 0 ∧ 0 < s.ownFrom kern .a 1) ∧
    kern.textLen ≤ kern.textLen ∧ base.ownFrom kern .a 8 = 8 := by decide +kernel

theorem witness_NopChangesNothing : (after (exec (.add .a 0#6 0#6 0#6) base)).mem = [] := by decide +kernel

theorem witness_BranchesAndJumps :
    (base.readOp 0 .a 1#6).isOk = true ∧ (3#64 + (2#12).signExtend 64).toNat < kern.textLen ∧
    kern.interval 5 = kern.interval (base.seq 0 .a).pc.toNat ∧ kern.isData 5 = false ∧
    ({ kern with data := [(5, 2)] } : Kernel).isData 5 = true ∧ kern.textLen ≤ (9#64).toNat ∧
    (baseX.seq 0 .x).bq.length < 64 ∧ wellFormed (.brx 1#6 1#6 0#12) = true ∧
    (base.seq 0 .x).bqFresh < 1 := by decide +kernel

theorem witness_condition : condition 0#6 0#64 ∧ condition 1#6 5#64 ∧ condition 2#6 (-1#64) ∧ condition 3#6 0#64 ∧ condition 4#6 1#64 ∧
    condition 5#6 0#64 ∧ ¬condition 2#6 0#64 := by
  simp [condition]

/-- BRX.NEZ s7, -6 at word 0 goes to word 2^32 - 6 and counts a mark (R77). -/
theorem test_brx : ((after (exec (.brx 7#6 1#6 0xFFA#12) baseX)).seq 0 .x).pc = -6#32 ∧
    ((after (exec (.brx 7#6 1#6 0xFFA#12) baseX)).seq 0 .x).marks = 1#32 ∧
    ((after (exec (.brx 7#6 1#6 0xFFA#12) baseX)).seq 0 .x).bq = [1#32] := by decide +kernel

theorem witness_CallsAndLoops :
    (base.seq 0 .a).ret.length < 16 ∧ pwSpill (0x2182#22) ≠ 0 ∧ pwSpill placedPartw = 0 ∧ handleIndex (base.task 0).spk = 0 ∧
    16 ≤ (List.replicate 16 0#22).length ∧ List.replicate 16 5#22 = List.replicate 15 5#22 ++ [5#22] ∧
    ((on (fun t => { t with partw := 0x2182#22 })).readNat (poolBase 0 + returnArea .a + 4 * (1 - 1)) 4) < 2 ^ 22 ∧
    wellFormed (.loop 2#6 3#6 4#12) = true ∧ wellFormed (.loopA 2#6 1#6 4#12) = true ∧ (base.task 0).await 1 = .none := by decide +kernel

/-- CALL at word 0 pushes 1 and goes to its offset; RET goes back (R78). -/
theorem test_call : ((after (exec (.call 5#24) base)).seq 0 .a).ret = [1#22] ∧ ((after (exec (.call 5#24) base)).seq 0 .a).pc = 5#32 := by
  decide +kernel

/-- LOOP #4 over two words sets the counter (R80, R81). -/
theorem test_loop : ((after (exec (.loop 0#6 3#6 2#12) base)).seq 0 .a).lc[0]? = some ⟨4#32, 1#32, 2#32, true⟩ := by decide +kernel
/-! Tokens and memory. -/

/-- The task's A side stands ready for a memory word through k2. -/
theorem witness_MemReady : MemReady base (.lds 2#4 3#6 0#6 1#8) 2#4 ∧ MemReady base (.ldv 2#4 32#6 0#6 1#8) 2#4 ∧
    MemReady base (.sts 2#4 3#6 0#6 1#8) 2#4 ∧ MemReady (on (oneIn 4)) (.stv 2#4 36#6 0#6 0#8) 2#4 ∧ MemReady base (.spawn 2#4 0#6 0#8) 2#4 ∧
    MemReady base (.aadd 2#4 3#6 0#6 1#1 0#7) 2#4 ∧ MemReady base (.acas 2#4 30#6 0#6 0#1 0#7) 2#4 := by
  refine ⟨?_, ?_, ?_, ?_, ?_, ?_, ?_⟩ <;> exact ⟨by decide +kernel, by decide +kernel, by decide +kernel⟩

/-- Its handle reaches entry 5, for reads and for writes. -/
theorem witness_Reaches (wr : Bool) : Reaches base 0 hdl wr 5 := by
  refine ⟨by decide +kernel, by decide, by decide +kernel, by decide +kernel, by decide +kernel, fun _ => by decide +kernel, by decide +kernel⟩

theorem witness_TokenChecks :
    hdl.toNat % 2 ^ 20 ≠ 0 ∧ base.inTable 1 5 = true ∧ base.inTable 1 16 = false ∧ (base.entry 1 5).gen.toNat = hdl.toNat / 2 ^ 20 ∧
    (base.entry 1 5).gen.toNat ≠ (0x00800005#32).toNat / 2 ^ 20 ∧ (base.entry 1 5).state = .active ∧ (base.entry 1 5).w = true ∧
    ((base.setEntry 1 5 { ent with state := .held }).entry 1 5).state = .held ∧
    ((base.setEntry 1 5 { ent with state := .dead }).entry 1 5).state = .dead ∧
    ((base.setEntry 1 5 { ent with w := false }).entry 1 5).w = false ∧ (base.entry 1 5).len < 8190 + 8 := by decide +kernel

/-- An access over the end sets OOB and takes the bytes inside (R85). -/
theorem test_token_check_end : base.tokenCheck 1 hdl 8188 8 false = .done (some 5) 4 1#6 := by decide +kernel

theorem witness_LoadsGoIntoFlight :
    DestReady base 3#6 ∧ DestReady base 33#6 ∧ (base.task 0).await 0 = .none ∧ handleIndex ((base.task 0).kreg 3#4) = 0 := by
  refine ⟨⟨fun _ => by decide +kernel, fun h => absurd h (by decide)⟩, ⟨fun h => absurd h (by decide), fun _ => by decide +kernel⟩,
    by decide +kernel, by decide +kernel⟩

/-- LDS at the end of the extent goes into flight over the four bytes inside, its register awaiting (R85, R87). -/
theorem test_lds : ((after (exec (.lds 2#4 3#6 1#6 0#8) (on (·.setAreg 1 8184#64)))).task 0).await 3 = .load ∧
    ((after (exec (.lds 2#4 3#6 1#6 0#8) (on (·.setAreg 1 8184#64)))).task 0).loads.length = 1 ∧
    ((after (exec (.lds 3#4 3#6 1#6 0#8) base)).task 0).tks = 8#6 := by decide +kernel

/-- A load of a byte pattern from home: four bytes little-endian (R8). -/
theorem test_load_steps :
    let s := (after (exec (.lds 2#4 3#6 0#6 0#8) { base with mem := [(0x20000000000, 0x34#8), (0x20000000001, 0x12#8)] }))
    ((after (exec (.loadDataArrival 0 0) (after (exec (.loadReadStep 0 0) s)))).task 0).areg 3 = 0x1234#64 := by decide +kernel

theorem witness_StoresEnterThePendingSet :
    (base.readOp 0 .a 3#6).isOk = true ∧ inside base 0 5 0 8 = 8 ∧ base.inWakeWindow 0 5 0 8 = false ∧ base.pieces 1 5 0 8 ≠ [] ∧
    (∀ p ∈ base.pieces 1 5 0 8, (base.task 0).rowBusy 5 p.row base.fresh = false) ∧ (base.logDirty 1 0 1 5 0 8).isOk = true ∧
    ((on (oneIn 4)).popVector 0 4).isOk = true := by decide +kernel

/-- A wake window over the wake registers of host memory (R306). -/
theorem witness_wakeWindow :
    let s := base.setEntry 1 5 { ent with frames := [{ page with wake := true, phys := Config.remoteBase }] }
    s.inWakeWindow 0 5 0 8 = true ∧ ((s.pieces 1 5 0 8).head?.bind (fun p => p.bytes.head?.map (·.2))) = some Config.remoteBase := by decide +kernel

/-- STS enters the pending set; its drain writes home (R174). -/
theorem test_sts_drain :
    let s := after (exec (.sts 2#4 3#6 0#6 1#8) (on (·.setAreg 3 0xABCD#64)))
    (s.task 0).stores.length = 1 ∧ s.mem = [] ∧
    (after (exec (.pendingEntryDrain 0 0) s)).mem = [(0x20000000008, 0xCD#8), (0x20000000009, 0xAB#8)] := by decide +kernel

theorem witness_GatherAndScatter :
    ((on (fun t => oneIn 5 (oneIn 4 t))).popVector 0 4).isOk = true ∧
    (match (on (fun t => oneIn 5 (oneIn 4 t))).popVector 0 4 with
      | .ok (_, t) => (t.popVector 0 5).isOk
      | .error _ => false) = true ∧ wellFormed (.stg 2#4 36#6 37#6) = true ∧ wellFormed (.ldg 2#4 33#6 37#6) = true := by decide +kernel

theorem witness_lanes : takingPart 0#32768 1023 0 := by simp [takingPart]

theorem witness_AtomicsGoIntoFlight :
    (base.task 0).await 30 = .none ∧ inside base 0 5 8 8 = 8 ∧ inside base 0 5 8188 8 < 8 ∧ inside base 0 5 8188 4 = 4 ∧
    wellFormed (.vaadd 2#4 36#6 37#6 1#1) = true := by decide +kernel

/-- AADD adds 5 to 0xFFFFFFFF in 4 bytes and answers the sign-extended old value (R176, R200). -/
theorem test_aadd :
    let m : Memory := [(0x20000000000, 0xFF#8), (0x20000000001, 0xFF#8), (0x20000000002, 0xFF#8), (0x20000000003, 0xFF#8)]
    let s := after (exec (.aadd 2#4 5#6 0#6 1#1 0#7) { base with mem := m })
    let t := after (exec (.atomicStep 0 0) s)
    (s.task 0).await 5 = .load ∧ (t.task 0).areg 5 = 0xFFFFFFFFFFFFFFFF#64 ∧ t.mem = [(0x20000000000, 4#8)] := by decide +kernel

/-- An entry in the pending set of the task. -/
def store : Store := ⟨[(0x20000000000, 0x20000000100)], [(0x20000000000, 7#8)], false, 1, 5, 9, none⟩
/-- A load in flight of one row. -/
def flight : LoadFlight := ⟨9, some 5, [⟨[(0x20000000000, 0x20000000100)], [(0, 0x20000000000)]⟩], 0#32768, .areg 3, false⟩

theorem witness_AccessSteps :
    ((on (fun t => { t with stores := [store] })).task 0).stores[0]? = some store ∧ store.wake = none ∧
    ((on (fun t => { t with loads := [flight] })).task 0).loads[0]? = some flight ∧
    ((on (fun t => { t with loads := [flight] })).task 0).rowBusy 5 [(0x20000000000, 0x20000000100)] 9 = false ∧
    ({ flight with todo := [] } : LoadFlight).dest = .areg 3 ∧ 0x20000000000 < Config.remoteBase ∧
    store.cells.find? (fun c => c.1 == 0x20000000000) = some (0x20000000000, 7#8) := by decide +kernel

/-- A load sees the task's own pending byte (R175). -/
theorem test_forwarding : base.seenByte [store] 0x20000000000 = 7#8 ∧ base.seenByte [store] 0x20000000001 = 0#8 := by decide +kernel

/-- An atomic in flight on eight bytes. -/
def atom : AtomicFlight := ⟨9, 5, [⟨[(0x20000000000, 0x20000000100)], (List.range 8).map (fun i => (i, 0x20000000000 + i))⟩], .cas, 8, 5#64, 0#64, 3, false⟩

theorem witness_AtomicSteps :
    ((on (fun t => { t with atomics := [atom] })).task 0).atomics[0]? = some atom ∧ (atom.bytes = 4 ∨ atom.bytes = 8) ∧
    (∀ p ∈ atom.parts, ((on (fun t => { t with atomics := [atom] })).task 0).rowBusy 5 p.row 9 = false) ∧
    base.homeNat atom.parts < 2 ^ 64 := by decide +kernel

/-- The lanes of a vector atomic in flight, one integer and one FP32. -/
def vflight (fp : Bool) : VatomFlight := ⟨9, 5, [(atom.parts.map (fun p => { p with bytes := p.bytes.take 4 }), 0x3F800000#32)], .add, fp, false⟩

/-- FP32 1.0 added to 0 at home is 1.0; as integers it is the same pattern (R201). -/
theorem test_vector_atomic :
    (after (exec (.vectorAtomicLaneStep 0) (on (fun t => { t with vatom := some (vflight true) })))).mem =
      [(0x20000000002, 0x80#8), (0x20000000003, 0x3F#8)] ∧
    (after (exec (.vectorAtomicLaneStep 0) (on (fun t => { t with vatom := some (vflight false) })))).mem =
      [(0x20000000002, 0x80#8), (0x20000000003, 0x3F#8)] := by decide +kernel

theorem witness_MemoryWordsChangeNothingElse :
    memoryWord (.aadd 2#4 3#6 0#6 0#1 0#7) = some (some 3#6) ∧ memoryWord (.ldv 2#4 32#6 0#6 0#8) = some none ∧
    (match exec (.lds 2#4 3#6 0#6 0#8) base with | .next _ => true | _ => false) = true := by decide +kernel

/-- Page tables in the near tier: a leaf of 64 KiB at virtual address 0 (R158). -/
theorem witness_Translation :
    (base.task 0).awaitsName 3#4 = false ∧ wellFormed (.trans 3#4 1#6 2#6 0#1 1#1) = true ∧
    ((base.task 0).areg 1).toNat / 2 ^ 48 % 2 ^ 15 = 0 ∧ (0x0001000000000000#64).toNat / 2 ^ 48 % 2 ^ 15 ≠ 0 ∧ (base.task 0).areg 0 = 0#64 ∧
    (base.task 0).areg 2 ≠ 0#64 ∧ (base.walk 1 1 1).1 = .miss := by decide +kernel

theorem witness_TokenInstructions :
    wellFormed (.tqry 2#4 3#6 0#8) = true ∧ (base.task 0).awaitsName 2#4 = false ∧ handleIndex ((base.task 0).kreg 2#4) = 5 ∧
    base.inTable 1 5 = true ∧ (base.entry 1 5).gen = handleGen hdl ∧ handleIndex ((base.task 0).kreg 3#4) = 0 ∧
    wellFormed (.kmov 3#4 1#6 0#1) = true ∧ wellFormed (.kmov 0#4 1#6 1#1) = true ∧ (base.task 0).kreg 3#4 = 0#32 ∧
    (base.entry 1 5).origin ≠ .scratchpad ∧
    ((base.setEntry 1 5 { ent with origin := .scratchpad }).entry 1 5).origin = .scratchpad ∧
    (0x00700010#32 : Word32) ≠ 0#32 ∧ base.inTable 1 (handleIndex 0x00700010#32) = false ∧ handleGen 0x00800005#32 ≠ (base.entry 1 5).gen ∧
    (base.entry 1 6).state = .free := by decide +kernel

/-- TQRY of LEN and of a stale handle (R194). -/
theorem test_tqry : ((after (exec (.tqry 2#4 3#6 0#8) base)).task 0).areg 3 = 8192#64 ∧
    ((after (exec (.tqry 4#4 3#6 0#8) base)).task 0).areg 3 = 0xFFFFFFFFFFFFFFFF#64 := by decide +kernel

/-- RELQ frees the entry and raises its generation (R162, R196). -/
theorem test_relq : ((after (exec (.relq 2#4) base)).entry 1 5).state = .freeing ∧ ((after (exec (.relq 2#4) base)).entry 1 5).gen = 8#12 := by
  decide +kernel

theorem witness_NamelessStores :
    wellFormed (.nstQ 3#4 36#6 1#8) = true ∧ 1 * (base.task 0).popNeeds 4 ≤ pwDepth (base.task 0).partw ∧
    ((on (oneIn 4)).popMany 0 4 1).isOk = true ∧ pwDepth (base.task 0).partw < 8 * (base.task 0).popNeeds 4 ∧
    wellFormed (.nst 3#4 2#6 3#8) = true ∧ (∀ i ∈ List.range 3, (base.task 0).granted (2#6 + BitVec.ofNat 6 i) = true) ∧
    (base.task 0).nstX = [] ∧ (base.task 0).nstWaiting 0#32 = false ∧
    ((on (fun t => { t with names := [.nst 3#4 1 0#32] })).task 0).nstWaiting 0#32 = true ∧
    ([⟨3#4, [], 0#32⟩] : List NstHalf).find? (fun x => x.mark == 0#32) = some ⟨3#4, [], 0#32⟩ := by decide +kernel

/-! Engines and records. -/

/-- A stream descriptor of format 1 at the start of the page (R219). -/
def described : State := { base with mem := [(0x2000000002E, 1#8)] }

theorem witness_StreamInstructions :
    wellFormed (.sbind 1#4 2#4 1#6) = true ∧ (base.task 0).awaitsName 2#4 = false ∧ (base.task 0).await 1 = .none ∧ (base.task 0).mq = [] ∧
    (base.task 0).kreg 0#4 = hdl ∧ ((base.task 0).areg 1).toNat / 64 * 64 = 0 ∧ inside base 0 5 0 64 = 64 ∧
    descOk (BitVec.ofNat 512 (described.readNow 0 5 0 64).toNat) 0 = true ∧ descOk (BitVec.ofNat 512 (base.readNow 0 5 0 64).toNat) 0 = false ∧
    ((base.task 0).stream 15).share = none := by decide +kernel

/-- SBIND of a descriptor of zeros traps 0x22; a good one binds (R219, R220). -/
theorem test_sbind : ((after (exec (.sbind 1#4 2#4 1#6) base)).core 0).mode = .stopped ∧
    (((after (exec (.sbind 1#4 2#4 1#6) described)).task 0).stream 1).bound = true ∧
    (((after (exec (.sbind 1#4 2#4 1#6) described)).task 0).stream 1).handle = hdl := by decide +kernel

theorem witness_CopiesCollectivesAndFlags :
    wellFormed (.copy 1#6 2#6) = true ∧ (base.task 0).await 1 = .none ∧ (base.core 0).chains = [] ∧ wellFormed (.collGat 4#4 1#6 2#6) = true ∧
    (base.task 0).cq.length < 4 ∧ ([Scope.q, .t, .d, .p, .x] : List Scope)[(4#4 : BitVec 4).toNat]? = some .x ∧
    ((base.task 0).seq .a).ewait = .idle ∧ ((base.task 0).flag 9#8).claimed = ((base.task 0).flag 9#8).pushed ∧
    (((base.task 0).setFlag 9#8 ⟨1#32, 0#32, 0#32⟩).flag 9#8).claimed ≠ (((base.task 0).setFlag 9#8 ⟨1#32, 0#32, 0#32⟩).flag 9#8).pushed ∧
    0 ≤ ((1#32 : BitVec 32) - 1#32).toInt ∧ ((0#32 : BitVec 32) - 1#32).toInt < 0 ∧ (base.task 0).holder 9#8 = none ∧
    ((on (fun t => { t with seqX := { t.seqX with ewait := .claimed 9#8 1#32 } })).seq 0 .x).ewait = .claimed 9#8 1#32 ∧
    (let s := after (exec (.copy 1#6 2#6) base)
     ∃ h ∈ (s.core 0).chains, h.uid = (s.task 0).uid) := by decide +kernel

/-- COPY appends a chain whose register awaits it (R213); EWAIT then holds (R223). -/
theorem test_copy_ewait :
    let s := after (exec (.copy 1#6 2#6) base)
    (s.core 0).chains.length = 1 ∧ (s.task 0).await 2 = .engine ∧
    ((after (exec (.ewait 9#8) s)).seq 0 .a).ewait = .holding 9#8 [s.fresh - 1] s.fresh := by decide +kernel

/-- ESIG.X with an empty matrix queue, then EWAIT.X, goes on once the setter is done (R223). -/
theorem test_esig_ewait :
    let s := after (exec (.esigX 9#8) baseX)
    (s.task 0).setters = [⟨9#8, []⟩] ∧ ((after (exec (.ewaitX 9#8) s)).seq 0 .x).ewait = .claimed 9#8 1#32 := by decide +kernel

/-- Core 1 of the quad, running another member, holds the array; the task on core 0 waits for it. -/
def twoCores : State :=
  let s := (base.modTask 0 (fun t => { t with lease := .waiting })).setCore 1 { Core.reset with mode := .run, task := { task with uid := 2, lease := .holding } }
  { s with quads := [(0, ⟨some 1, 5⟩)] }

theorem witness_LeaseInstructions :
    (base.task base.cur).lease = .none ∧ (base.quad (quadOf 0)).holder = none ∧ (twoCores.quad (quadOf 0)).holder = some 1 ∧
    (twoCores.task 0).lease = .waiting ∧ (twoCores.task 1).lease = .holding ∧ (twoCores.task 1).mq = [] ∧
    twoCores.nextWaiting (quadOf 1) (quadPos 1) = some 0 ∧ quadOf 0 = quadOf 1 := by decide +kernel

/-- LEASE of a free array takes it with the budget LBUD; UNLEASE passes it on (R224, R225). -/
theorem test_lease : ((after (exec .lease baseX)).quad 0).holder = some 0 ∧
    ((after (exec .unlease { twoCores with cur := 1, side := .x })).quad 0).holder = some 0 ∧
    ((after (exec .unlease { twoCores with cur := 1, side := .x })).task 0).lease = .holding := by decide +kernel

/-- The task with streams 1 and 5 (read, BFP of width 2), 2 (the same, sparse) and 3 (written, FP32), and a lease. -/
def streamed : Task → Task := fun t => { (((t.setStream 5 ⟨true, hdl, BitVec.ofNat 512 (9 * 2 ^ 368 + 2 ^ 372), 0, none⟩).setStream 1 ⟨true, hdl, BitVec.ofNat 512 (9 * 2 ^ 368 + 2 ^ 372), 0, none⟩).setStream 2
  ⟨true, hdl, BitVec.ofNat 512 (9 * 2 ^ 368 + 2 ^ 372 + 2 ^ 379), 0, none⟩).setStream 3
  ⟨true, hdl, BitVec.ofNat 512 (2 ^ 368 + 2 ^ 378), 0, none⟩ with lease := .holding }

theorem witness_MatrixInstructionsQueue :
    wellFormed (.prec 7#3 3#4 3#4) = true ∧ 0 < pwTiles placedPartw ∧ (base.task 0).mq.length < 8 ∧ pwTiles (0#22) ≤ 0 ∧
    (base.readOp 0 .x 1#6).isOk = true ∧ wellFormed (.mmuls 0#3 2#4 1#4 1#6) = true ∧
    (let t := (on streamed).task 0
     let a := StreamDesc.ofBits (t.stream 1).desc
     let b := StreamDesc.ofBits (t.stream 2).desc
     let c := StreamDesc.ofBits (t.stream 3).desc
     (t.stream 1).bound = true ∧ a.dir = false ∧ a.sparse = false ∧ b.sparse = true ∧ b.fmt = 9 ∧ b.dir = false ∧ c.dir = true ∧ c.fmt = 1 ∧
     t.lease = .holding ∧ (t.stream 4).bound = false) ∧
    (64 * 2 ^ 16 + 128 * 2 ^ 8 + 128 : Nat) % 2 ^ 8 ≤ 128 ∧ (64 * 2 ^ 16 + 129 : Nat) % 2 ^ 8 = 129 ∧
    wellFormed (.mst 0#3 3#4 1#4 0#1) = true ∧ wellFormed (.mstQ 0#3 1#4 39#6 1#1) = true ∧ wellFormed (.histRd 36#6) = true := by
  decide +kernel

/-- MMUL of an unbound stream traps, and of bound ones appends its command (R245). -/
theorem test_mmul : ((after (exec (.mmul 0#3 1#4 5#4 1#6) baseX)).core 0).mode = .stopped ∧
    ((after (exec (.mmul 0#3 1#4 5#4 0#6) { on streamed with side := .x })).task 0).mq.length = 1 ∧
    ((after (exec (.mmuls 0#3 2#4 1#4 1#6) { on streamed with side := .x })).task 0).mq.length = 1 := by decide +kernel

/-- The record of a task of kernel 1 at its first word, with no frame. -/
def rec1 : Rec := ⟨BitVec.ofNat 64 (2 ^ 24), 0#64, 0#64, 0#64⟩
/-- The record at the start of the page. -/
def recorded : State := { base with mem := [(0x20000000003, 1#8)] }
/-- A join counter of `n` with the record. -/
def joining (n : Nat) : State := { base with mem := [(0x20000000000, BitVec.ofNat 8 n), (0x20000000023, 1#8)] }
/-- A partition whose rings hold one record each, that of level 0 full. -/
def full (s : State) : State := { s with
  partitions := [(1, { Partition.default with inSlice := true, ringLog := List.replicate 32 0 })],
  records := [⟨7, rec1, 1, 1, 0, 0, 0#40, [], none, .ring, none, [], none⟩] }

theorem witness_SpawnAndJoin :
    wellFormed (.spawn 2#4 0#6 0#8) = true ∧ wellFormed (.join 2#4 0#6 0#8) = true ∧ (base.task 0).push = none ∧ (base.task 0).stores = [] ∧
    inside base 0 5 0 64 = 64 ∧ base.inWakeWindow 0 5 0 64 = false ∧
    (∀ p ∈ base.pieces 1 5 0 64, (base.task 0).rowBusy 5 p.row base.fresh = false) ∧
    recOf (recorded.readNow 0 5 0 32) 0 = rec1 ∧ recorded.recordOk 1 rec1 = true ∧ recorded.pushRoom 0 rec1 = true ∧
    base.recordOk 1 (recOf (base.readNow 0 5 0 32) 0) = false ∧ (full recorded).pushRoom 0 rec1 = false ∧ (full recorded).recordOk 1 rec1 = true ∧
    (((joining 0).readNow 0 5 0 64).setWidth 64 : Word64).toInt ≤ 0 ∧ 1 < (((joining 2).readNow 0 5 0 64).setWidth 64 : Word64).toInt ∧
    (((joining 1).readNow 0 5 0 64).setWidth 64 : Word64) = 1#64 ∧ recOf ((joining 1).readNow 0 5 0 64) 32 = rec1 ∧
    ((joining 1).logDirty 1 0 1 5 0 8).isOk = true ∧ rec1.prio < 4 := by decide +kernel

/-- SPAWN pushes the record to the tail of its ring (R112); into a full ring it is held (R113). -/
theorem test_spawn :
    ((after (exec (.spawn 2#4 0#6 0#8) recorded)).ring 1 0 0).length = 1 ∧
    ((after (exec (.spawn 2#4 0#6 0#8) (full recorded))).task 0).push = some rec1 := by decide +kernel

/-- JOIN of 1 pushes and leaves 0; JOIN of 2 leaves 1 (R144). -/
theorem test_join :
    (after (exec (.join 2#4 0#6 0#8) (joining 1))).mem = [(0x20000000023, 1#8)] ∧
    ((after (exec (.join 2#4 0#6 0#8) (joining 1))).ring 1 0 0).length = 1 ∧
    (after (exec (.join 2#4 0#6 0#8) (joining 2))).mem = [(0x20000000000, 1#8), (0x20000000023, 1#8)] ∧
    (after (exec (.join 2#4 0#6 0#8) (joining 2))).records = [] := by decide +kernel
/-! Vector instructions. -/

theorem isOk_exists {ε α : Type} {e : Except ε α} (h : e.isOk = true) : ∃ a, e = .ok a := by
  cases e with
  | ok a => exact ⟨a, rfl⟩
  | error _ => cases h

theorem witness_Sources2 : ∃ x y s2, Sources2 base (.vadd 3#6 1#6 31#6 0#3) 3#6 1#6 31#6 x y s2 := by
  have h1 : (base.srcV base.cur 1#6).isOk = true := by decide +kernel
  have h2 : (match base.srcV base.cur 1#6 with | .ok (_, s) => (s.srcV s.cur 31#6).isOk && s.cur == base.cur | .error _ => false) = true := by
    decide +kernel
  obtain ⟨⟨x, s1⟩, e1⟩ := isOk_exists h1
  simp only [e1, Bool.and_eq_true, beq_iff_eq] at h2
  obtain ⟨⟨y, s2⟩, e2⟩ := isOk_exists h2.1
  exact ⟨x, y, s2, by decide +kernel, by decide +kernel, by decide +kernel, by decide +kernel, s1, e1, h2.2 ▸ e2⟩

theorem witness_Sources1 : ∃ x s1, Sources1 base (.vabs 3#6 1#6 0#3) 3#6 1#6 x s1 := by
  have h1 : (base.srcV base.cur 1#6).isOk = true := by decide +kernel
  obtain ⟨⟨x, s1⟩, e1⟩ := isOk_exists h1
  exact ⟨x, s1, by decide +kernel, by decide +kernel, by decide +kernel, e1⟩

theorem witness_VectorOperands :
    (let t := (on (oneIn 4)).task 0
     t.qsrc 4 = .raw32 ∧ t.qsink 4 = .raw32 ∧ 1 ≤ (t.queue 4).ready (pwDepth t.partw) ∧ (t.queue 4).p = 0) ∧
    ((base.task 0).queue 1).occ + ((base.task 0).queue 1).freed < pwDepth (base.task 0).partw := by decide +kernel

theorem witness_PackedIntegerResults : (base.addVst 0 .none).dstV 0 3#6 0#3 0#32768 |>.isOk := by decide +kernel

theorem witness_FloatResults : LaneResults 0#1024 (fun _ => (0, ⟨true, true, true⟩)) 0#32768 .none := by
  refine ⟨fun i _ => ?_, ?_, ?_, ?_⟩
  · simp [laneOf]
  all_goals simp [Num.Ev.none]

theorem witness_ArithmeticIsExactThenRounded :
    (0x3F800000 : Nat) < 2 ^ 32 ∧ 0x3F800000 / 2 ^ 23 % 2 ^ 8 ≠ 255 ∧ 0x7F800001 / 2 ^ 23 % 2 ^ 8 = 255 ∧ 0x7F800001 % 2 ^ 23 ≠ 0 ∧
    Num.roundAt 3 (-1) false 0 = 2 ∧ Num.roundAt 5 (-1) false 0 = 2 := by decide +kernel

theorem witness_ComparesAndMasks :
    wellFormed (.vclt 3#6 1#6 2#6 0#3) = true ∧ (base.task 0).granted 31#6 = true ∧ wellFormed (.mand 0#6 1#6 7#6) = true ∧
    wellFormed (.mnot 7#6 0#6) = true ∧ (base.srcV 0 1#6).isOk = true := by decide +kernel

theorem witness_MovementAndReductions :
    wellFormed (.vbcast 3#6 33#6 0#3) = true ∧ ((on (oneIn 1)).readOp 0 .x 33#6).isOk = true ∧ wellFormed (.vlid 36#6 1#3) = true ∧
    wellFormed (.vrotm 3#6 1#6 2#6 4#6) = true ∧ wellFormed (.vcvt 3#6 1#6 2#4 1#4 0#4) = true ∧
    Num.Fmt.ofCode 2 = some .bf16 ∧ Num.Fmt.ofCode 1 = some .fp32 ∧ wellFormed (.vperm 3#6 1#6 2#6 0#3) = true ∧
    wellFormed (.vradd 3#6 1#6 0#3) = true ∧ wellFormed (.vsel 3#6 1#6 2#6 1#3) = true := by decide +kernel

theorem witness_Deferral :
    wellFormed (.defer 1#6 7#6 1#3) = true ∧ wellFormed (.drain 1#6 7#6 9#6) = true ∧ wellFormed (.drainF 1#6 7#6 9#6 1#3) = true ∧
    (base.task 0).granted 8#6 = true ∧ (base.task 0).dqHead.toNat < dqCap placedPartw ∧ (base.task 0).dqCount.toNat < 1024 ∧
    1024 ≤ dqCap placedPartw := by decide +kernel

/-- A core whose s1 holds a pattern; VBCAST, then an operation, under a mask of lane 0 alone in m1. -/
def lanes (x : Word64) : State := after (exec (.vbcast 2#6 1#6 1#3) { on (fun t => (t.setSreg 1 x).setMask 1 1#1024) with side := .x })

/-- VADD of 1.0 and 1.0 in lane 0 is 2.0 (R128), and an inactive lane keeps its bits (R126). -/
theorem test_vadd :
    ((after (exec (.vadd 3#6 2#6 2#6 1#3) (lanes 0x3F800000#64))).vreg 0 3) = 0x40000000#32768 := by decide +kernel

/-- VFMA computes va x vb + vd rounded once (R129): 1.5 x 1.5 + 1.5 = 3.75. -/
theorem test_vfma :
    ((after (exec (.vfma 2#6 2#6 2#6 1#3) (lanes 0x3FC00000#64))).vreg 0 2) = 0x40700000#32768 := by decide +kernel

/-- VRCP of zero is infinity, which sets VST.INF (R101, R130). -/
theorem test_vrcp :
    ((after (exec (.vrcp 3#6 2#6 1#3) (lanes 0#64))).vreg 0 3) = 0x7F800000#32768 ∧
    ((after (exec (.vrcp 3#6 2#6 1#3) (lanes 0#64))).task 0).vst ≠ 0#3 := by decide +kernel

/-- VIADD.B wraps within bytes (R133); VIADD.S saturates (R132). -/
theorem test_viadd :
    ((after (exec (.viaddB 3#6 2#6 2#6 1#3) (lanes 0x80FF017F#64))).vreg 0 3) = 0x00FE02FE#32768 ∧
    ((after (exec (.viaddS 3#6 2#6 2#6 1#3) (lanes 0x7FFFFFFF#64))).vreg 0 3) = 0x7FFFFFFF#32768 := by decide +kernel

/-- VCLT of -1.0 and 0.0 in lane 0 sets the bit; m0 is not written (R21, R136). -/
theorem test_vclt :
    ((after (exec (.vclt 3#6 2#6 1#6 1#3) (lanes 0xBF800000#64))).task 0).mask 3 = 1#1024 ∧
    ((after (exec (.viclt 0#6 1#6 2#6 1#3) (lanes 0xBF800000#64))).task 0).mask 0 = BitVec.allOnes 1024 := by decide +kernel

/-- VROTM by 4 moves lane 1 of va to lane 0, and lane 0 of vb to lane 1023 (R139). -/
theorem test_vrotm :
    ((after (exec (.vrotm 3#6 1#6 2#6 4#6) ((lanes 7#64).modTask 0 (·.setSreg 4 4#64)))).vreg 0 3) = 7#32768 <<< (32 * 1023) := by decide +kernel

/-- VCVT of FP32 1.0 in lane 0 to BF16 (R138). -/
theorem test_vcvt : ((after (exec (.vcvt 3#6 2#6 2#4 1#4 0#4) (lanes 0x3F800000#64))).vreg 0 3) = 0x3F80#32768 := by decide +kernel

/-- DEFER of lane 0 appends one entry and clears its bit (R142); DRAIN then has too few (R143). -/
theorem test_defer :
    let s := after (exec (.defer 2#6 0#6 1#3) (lanes 9#64))
    (s.task 0).dqCount = 1#17 ∧ (s.task 0).mask 1 = 0#1024 ∧ ((after (exec (.drain 3#6 0#6 4#6) s)).task 0).dqCount = 1#17 := by decide +kernel

theorem witness_VectorWordsChangeNothingElse :
    vectorDests (.vadd 36#6 1#6 2#6 0#3) = some (some 36#6, none) ∧ vectorDests (.vceq 1#6 1#6 2#6 0#3) = some (none, some 1#6) ∧
    (match exec (.vmov 3#6 1#6 0#3) baseX with | .next _ => true | _ => false) = true := by decide +kernel
/-! Barriers, endings, starts, saves, records and death. -/

/-- Both sides of core 0 wait at their word. -/
def waiting : State := on (fun t => { t with seqA := { t.seqA with waiting := true }, seqX := { t.seqX with waiting := true } })
/-- The only member has arrived at its first instance of .T, or has been released from it. -/
def arrivedAt (released : Bool) : State := waiting.setMember 1 { waiting.member 1 with
  arrived := some .t, joined := (Vector.replicate 5 0#32).set 1 1#32, released := released }
/-- Another member of the same team that has not arrived. -/
def twoMembers : State := { arrivedAt false with members := (arrivedAt false).members ++ [(2, { (arrivedAt false).member 1 with
    arrived := none, joined := Vector.replicate 5 0#32, tidx := 1 })] }

theorem witness_Barriers :
    wellFormed (.bar 1#3 0#1 0#6) = true ∧ wellFormed (.phase 4#3 1#1 0#6) = true ∧ (base.seq 0 .a).waiting = false ∧
    ((on (fun t => { t with seqX := { t.seqX with waiting := true } })).seq 0 .x).waiting = true ∧ (waiting.seq 0 .a).waiting = true ∧
    ((arrivedAt true).member 1).released = true ∧ ((arrivedAt false).member 1).released = false ∧
    ((arrivedAt false).core 0).mode = .run ∧ ((arrivedAt false).member 1).arrived = some .t ∧ (arrivedAt false).groupKnown 1 .t = true ∧
    (arrivedAt false).expected 1 .t = [1] ∧ ((arrivedAt false).member 1).hasArrived .t 1#32 = true ∧
    (arrivedAt false).conditionsHold 1 = true ∧ 2 ∈ twoMembers.expected 1 .t ∧ (twoMembers.member 2).hasArrived .t 1#32 = false ∧
    base.coreOf 9 = none ∧
    (let s := { base with timers := [⟨base.groupKey 1 .p, 1#32, false, 500000000, false⟩] }
     s.members.find? (fun x => s.groupKey x.1 .p == base.groupKey 1 .p) = s.members.head? ∧ (s.partOf 1).colt.toNat ≤ 500000000) := by
  decide +kernel

/-- The last sequencer to reach BAR joins the instance, and its completion releases both (R146, R148). -/
theorem test_bar :
    let s := after (exec (.bar 1#3 0#1 0#6) (on (fun t => { t with seqX := { t.seqX with waiting := true } })))
    let t := after (exec (.barrierCompletion 0) s)
    (s.member 1).arrived = some .t ∧ (s.member 1).joinedAt .t = 1#32 ∧ (t.seq 0 .a).waiting = false ∧ (t.seq 0 .a).pc = 1#32 ∧
    (t.seq 0 .x).marks = 1#32 := by decide +kernel

theorem witness_EndingWords :
    BothWait waiting ∧ AccessesOver (waiting.task 0) ∧ (waiting.core 0).chains = [] ∧ (waiting.task 0).mq = [] ∧ (waiting.task 0).cq = [] ∧
    wellFormed (.yield 2#4 0#6) = true ∧ (waiting.task 0).push = none ∧ (waiting.task 0).awaitsName 2#4 = false ∧
    handleIndex ((waiting.task 0).kreg 3#4) = 0 ∧ inside waiting 0 5 0 32 = 32 ∧ waiting.recordOk 1 rec1 = true ∧
    waiting.pushRoom 0 rec1 = true ∧ waiting.recordOk 1 (recOf (waiting.readNow 0 5 0 32) 0) = false ∧
    ((on (fun t => { t with mq := [⟨4, .mclr 0, 0#16⟩] })).task 0).mq ≠ [] ∧ (waiting.task 0).tks = 0#6 ∧ (waiting.task 0).stat &&& 0x3A#7 = 0#7 ∧
    ((on (fun t => { t with tks := 1#6 })).task 0).tks ≠ 0#6 ∧ kern.area.length < 2 ^ kern.recLog := by
  refine ⟨by constructor <;> decide +kernel, by refine ⟨?_, ?_, ?_, ?_⟩ <;> decide +kernel, ?_⟩
  decide +kernel

/-- TEND ends the task with a completion record where TKS is set (R145, R258). -/
theorem test_tend :
    ((after (exec .tend waiting)).core 0).mode = .idle ∧
    ((after (exec .tend (waiting.modTask 0 (fun t => { t with tks := 1#6 })))).kernel key).map (fun k => k.area.map (fun r => (r.words.w0.setWidth 16, r.words.w1)))
      = some [(0x4001#16, 1#64)] := by decide +kernel

/-- The partition with every quad of die 0 in its tenancy, a record waiting, and no core at work. -/
def serving (r : RingRec) : State := { base with
  cores := [], records := [r],
  partitions := [(1, { Partition.default with inSlice := true, own := ⟨List.range 16, [], [], [], [], []⟩ })] }
/-- The same with die 1 in the tenancy too. -/
def wide (r : RingRec) : State := { serving r with
  partitions := [(1, { Partition.default with inSlice := true, own := ⟨List.range 32, [], [], [], [], []⟩ })] }
/-- Record 7, of a number of columns. -/
def waits (tw : Nat) : RingRec := ⟨7, { rec1 with w0 := rec1.w0 + BitVec.ofNat 64 (tw * 2 ^ 56) }, 1, 1, 0, 0, 0#40, [], none, .ring, none, [], none⟩

theorem witness_StartsAndSaves :
    (serving (waits 0)).dispatches 0 = true ∧ ((serving (waits 0)).core 3).claim = none ∧ ((serving (waits 0)).core 3).mode = .idle ∧
    ((serving (waits 0)).core 3).shadow = none ∧ (serving (waits 0)).servedLater 0 = false ∧
    ((serving (waits 0)).choose 0 false).map (fun x => (x.1, x.2.1)) = some (waits 0, 0) ∧ (waits 0).record.tasks = 1 ∧
    (let s := (wide { waits 0 with die := 1 }).setCore 0 { Core.reset with idleFor := 2048 }
     s.vacant 0 = true ∧ s.choose 0 false = none ∧ topLevel (fun v => !(((s.ring 1 1 v).take 16).filter (s.eligible true)).isEmpty) = some 0) ∧
    (serving (waits 0)).entriesFree 1 1 = true ∧ base.freeEntry 1 = some 1 ∧
    (let s := on (fun t => { t with yreq := 1#42 })
     let u := { s with cyc := 20000#64 }
     u.deadlineDue 0 = true ∧ u.endIssued 0 = false ∧ (u.task 0).frameOk = true) ∧
    (let s := base.setCore 0 { base.core 0 with mode := .save false }
     (s.core 0).mode = .save false ∧ s.teamCores 1 = [0] ∧ s.accessesSettled 0 = true ∧ s.matrixStops 0 = true) ∧
    (let s := base.setCore 0 { base.core 0 with mode := .restore, restoring := some ⟨task, 0#1536, false, none, false⟩ }
     (s.restoreLines 0 ⟨task, 0#1536, false, none, false⟩).isOk = true) ∧
    (let r := { waits 0 with place := .fault 5#64 1 false }
     (serving r).records.find? (fun x => x.id == 7 && x.part == 1) = some r) := by decide +kernel

/-- A record chosen for an idle core starts there: a1, a2 and the pc from the record (R33, R116). -/
theorem test_launch :
    let s := after (exec (.dispatchChoice 0) (serving { waits 0 with record := ⟨0x1000003#64, 0x9_00000000#64, 0#64, 0#64⟩ }))
    let t := after (exec (.taskLaunch 0) s)
    (s.core 0).shadow.isSome = true ∧ (t.core 0).mode = .run ∧ (t.task 0).areg 1 = 9#64 ∧ (t.seq 0 .a).pc = 3#32 ∧
    (t.task 0).kreg 0#4 = 1#32 := by decide +kernel

theorem witness_RecordsAgeClaimAndMove :
    (let s := { serving (waits 0) with cyc := 1000001#64 }
     s.ringRecord 7 = some (waits 0) ∧ (s.partOf 1).age ≠ 0#40 ∧
     (s.partOf 1).age.toNat < (s.cyc.toNat + 2 ^ 40 - (waits 0).stamp.toNat) % 2 ^ 40 ∧ s.ringRoom 1 0 1 1 = true) ∧
    (waits 1).record.tasks = 2 ∧
    (let r := { waits 1 with headSince := some 0#64 }
     let s := { (serving r) with cyc := 200000#64, cores := (List.range 64).map (fun c => (c, { Core.reset with mode := .run, task := task })) }
     s.ringRecord 7 = some r ∧ s.allocatable r = true ∧ s.atHead r = true ∧ s.dispatches 0 = true ∧ s.placement 0 r = none ∧
     (s.partOf 1).migt.toNat ≤ s.headWait r ∧ s.leastBusy r = some [0, 1]) ∧
    (let r := { waits 1 with claim := [0, 1] }
     r.allCores r.claim (serving r).vacant = true ∧ (serving r).allocatable r = true) ∧
    (let r := { waits 1 with place := .offered 1 }
     Stands (serving r) 7 r ∧ (serving r).dispatches (r.candidate 1) = true ∧ (serving r).placement (r.candidate 1) r = none ∧
     ((wide r).placement 1 r).isSome = true) ∧
    (let r := { waits 1 with place := .moving 8 true }
     Stands (serving r) 7 r) := by
  refine ⟨by decide +kernel, by decide, by decide +kernel, by decide +kernel, ⟨by unfold Stands; decide +kernel, by decide +kernel⟩, by unfold Stands; decide +kernel⟩

/-- A kernel whose death is under way. -/
def dying (swept : Bool) (acks : List Nat) : State := { base with
  cyc := 7000000#64, kernels := [(key, { kern with dying := some ⟨0, 5#8, false, 0, 0, 0, swept, acks, 0#64⟩ })] }

theorem witness_KernelDeath :
    (dying false []).kernel key = some { kern with dying := some ⟨0, 5#8, false, 0, 0, 0, false, [], 0#64⟩ } ∧
    kern.area.length < 2 ^ kern.recLog ∧ NMap.sorted base.cores = true ∧ 1 ∈ ([1] : List Nat) ∧
    10000 * (dying true [1]).device.clock ≤ ((dying true [1]).cyc - 0#64).toNat ∧
    (base.cyc - 0#64).toNat < 10000 * base.device.clock ∧ base.atHome 0x20000000000 8 = true := by decide +kernel

/-- A wake of an unbound register does nothing; of a bound one it counts (R306, R309). -/
theorem witness_wakes :
    let g : Graph := ⟨1, 1, 7#12, false, [], [], [0], 0, [], 0, true⟩
    let s := { base with graphs := [(3, g)], wakeRegs := [(9, 3)] }
    NMap.get s.wakeRegs 9 = some 3 ∧ NMap.get s.graphs 3 = some g ∧ ((0x00700003#64).toNat < 2 ^ 32) ∧
    (0x00700003#64).setWidth 32 = handleOf g.gen 3 ∧ (0x00800003#64).setWidth 32 ≠ handleOf g.gen 3 ∧ 2 ^ 32 ≤ (0x100000000#64).toNat ∧
    s.wakeWrite 1 8 0#64 = s := by decide +kernel

/-- The death of a kernel ends in record 5 with the cause that began it absent, and no core running it (R268). -/
theorem test_death :
    ((after (exec (.kernelDeath key) (dying false []))).kernel key).map (fun k => (k.area.map (·.words.w0.setWidth 8), k.dying)) = some ([5#8], none) ∧
    ((after (exec (.kernelDeath key) (dying false []))).core 0).mode = .idle := by decide +kernel

theorem witness_Drydown :
    (base.entry 1 5).state = .active ∧ (base.setEntry 1 5 { ent with state := .held }).refreshed 1 { ent with state := .held } [] = none ∧
    NMap.get base.contexts 1 = some ctx ∧ base.framesMeet (Place.inStack 3) = false ∧ base.framesMeet (Place.inStack 0) = true ∧
    (NMap.get base.partitions 1).isSome = true ∧ (0x1006#64).toNat % 32 = 6 ∧ 20 < (21#64).toNat % 32 ∧
    0 ≤ ((5#32 : BitVec 32) - 5#32).toInt ∧ ((0#32 : BitVec 32) - 1#32).toInt < 0 ∧ (place base.nstr 0x20000000000).isSome = true ∧
    base.device.locked = false ∧ base.accessHeld 1 5 = false ∧
    ((on (fun t => { t with seqA := { t.seqA with held := some (1, 5) } })).accessHeld 1 5 = true) := by decide +kernel

/-- A free recorded during a revocation waits for the access that A holds: after the refresh the load still finds its handle good, and
only then does the free apply (R164, R165). -/
theorem test_held_access :
    let h := base.setEntry 1 5 { ent with state := .held }
    let s := after (exec (.lds 2#4 3#6 1#6 0#8) h)
    let t := s.setEntry 1 5 { ent with freeLater := true }
    let u := after (exec (.entryFreed 1 5) t)
    let v := after (exec (.lds 2#4 3#6 1#6 0#8) u)
    s.accessHeld 1 5 = true ∧ (s.seq 0 .a).pc = (h.seq 0 .a).pc ∧ (u.entry 1 5).state = .active ∧
    ((v.task 0).loads.length = 1 ∧ (v.task 0).tks = 0#6) ∧ v.accessHeld 1 5 = false ∧
    ((after (exec (.entryFreed 1 5) v)).entry 1 5).state = .freeing := by decide +kernel

/-- A revocation of an entry with nothing in flight, then HELD, then a REFRESH to another page (R164, R165). -/
theorem test_revocation :
    let s := after (exec (.revocationRequest 1 5) base)
    let t := after (exec (.entryHeld 1 5) s)
    (s.entry 1 5).state = .quiescing ∧ (t.entry 1 5).state = .held ∧ ((after (exec (.entryKill 1 5) t)).entry 1 5).state = .dead := by
  decide +kernel
/-! Engines at work, the front end, tenants and the device. -/

/-- A chain of member 1 that has started at entry 0, its descriptor at the start of the page. -/
def chain0 : Chain := ⟨3, 1, key, 1, hdl, 0#64, 2, true, false, 0, [], [], none, none, false, none⟩
/-- Core 0 with the chain at work over a page that begins with 32 bytes of a number. -/
def chained (e : Nat) (h : Chain) : State :=
  let s := base.setCore 0 { base.core 0 with chains := [h] }
  { s with mem := (bytesOf 32 e).zipIdx.filterMap (fun x => if x.1 = 0#8 then none else some (0x20000000000 + x.2, x.1)) }
/-- A COPY entry of 16 bytes from offset 64 to offset 128 of the entry, no dimensions, no receiver. -/
def copyEntry : Nat := 1 + 255 * 2 ^ 8 + hdl.toNat * 2 ^ 32 + 64 * 2 ^ 64 + hdl.toNat * 2 ^ 96 + 128 * 2 ^ 128 + 16 * 2 ^ 160
/-- Whether an entry stands under the chain of core 0. -/
def stands (e : Nat) (h : Chain) : Bool :=
  match (chained e h).chainEntry 0 h 0 with
  | .entry v u => v.toNat == e && ((u.core 0).chains.head?.map (·.id)) == some 3
  | _ => false

theorem witness_ChainSteps :
    stands 0 chain0 = true ∧ stands copyEntry chain0 = true ∧ stands (3 + 1 * 2 ^ 8) chain0 = true ∧
    (copyEntry % 16 = 1 ∧ entryClean (BitVec.ofNat 256 copyEntry) = true ∧ bitsAt copyEntry 4 3 = 0 ∧ bitsAt copyEntry 8 8 = 255 ∧
      bitsAt copyEntry 160 32 = 16) ∧
    (match (chained copyEntry chain0).shapes 0 chain0 0 0 [] with | (.entry _ _, [], none) => true | _ => false) = true ∧
    7 ≤ (BitVec.ofNat 256 9).toNat % 16 ∧ entryClean (BitVec.ofNat 256 (3 + 2 ^ 255)) = false ∧
    (match (chained 0 { chain0 with head := 8160#64 }).chainEntry 0 { chain0 with head := 8160#64 } 1 with | .beyond _ => true | _ => false) = true ∧
    5 < bitsAt (1 + 6 * 2 ^ 4) 4 3 ∧ base.teamSize 1 ≤ bitsAt (1 + 5 * 2 ^ 8) 8 8 ∧ (base.taskOf 1).isSome = true ∧
    (0 : Nat) < 1 ∧ entryClean (BitVec.ofNat 256 (4 + 9 * 2 ^ 8 + 1 * 2 ^ 24)) = true := by decide +kernel

/-- A chain's COPY entry moves its 16 bytes, and END completes the register with zero (R215 to R218). -/
theorem test_chain_copy :
    let s := chained copyEntry chain0
    let s := { s with mem := s.mem ++ [(0x20000000040, 0x77#8)] }
    let t := after (exec (.chainCopy 0) s)
    let step (s : State) := after (exec (.copyTransaction 0) s)
    let u := step (step (step (step t)))
    let v := after (exec (.chainEnd 0) u)
    ((t.core 0).chains.head?.bind (·.run)).isSome = true ∧ u.mem.read 0x20000000080 = 0x77#8 ∧ (v.core 0).chains = [] ∧
    (v.task 0).areg 2 = 0#64 := by decide +kernel

/-- An unassigned kind halts a chain with code 1 at its index (R218). -/
theorem test_chain_error :
    ((after (exec (.chainCopy 0) (chained 9 chain0))).task 0).areg 2 = 0x8000000100010000#64 ∧
    ((after (exec (.chainCopy 0) (chained 9 chain0))).task 0).await 2 = .error := by decide +kernel

/-- A collective command of core 0 not yet read: a reduction of nothing within the team. -/
def collecting : State := on (fun t => { t with cq := [⟨4, .t, 1, hdl, 0#64, 2, none, false, none⟩] })

theorem witness_CollectiveSteps :
    (collecting.task 0).cq.find? (fun k => !k.read) = some ⟨4, .t, 1, hdl, 0#64, 2, none, false, none⟩ ∧ (collecting.core 0).holdsTask = true ∧
    (collecting.engineRead 1 hdl 0 64).isOk = true ∧ (base.task 0).cq.find? (fun k => !k.read) = none ∧
    (let b : Contrib := ⟨1, 1, 1, 1, 0, 4, 1, 2, 0#512, []⟩
     let s := { base with collectives := [⟨base.groupKey 1 .t, 1#32, [b], none, none⟩] }
     s.groupKnown 1 .t = true ∧ (s.expected 1 .t).all (fun v => (s.member v).hasJoined .t 1#32) = false ∧
     (let t := s.setMember 1 { s.member 1 with colls := Vector.replicate 5 1#32 }
      (t.expected 1 .t).all (fun v => (t.member v).hasJoined .t 1#32) = true ∧ (collFailure (t.ranks 1 .t) [b]).isSome = true)) ∧
    (let s := on (fun t => { t with setters := [⟨9#8, []⟩] })
     (s.taskOf 1).map (fun t => t.setters[0]?) = some (some ⟨9#8, []⟩)) ∧
    (let x : ShareGroup := ⟨0, 1, hdl, 0#512, [(0, 1)], false, 0#64, [], none⟩
     NMap.get ({ base with shares := [(5, x)], cyc := 65536#64 } : State).shares 5 = some x ∧ 65536 ≤ (65536#64 - x.since).toNat) := by
  decide +kernel

/-- Two ranks' U32 elements add modulo 2^32 (R231). -/
theorem test_reduce : (reduceElem 4 0 [0xFFFFFFFF, 3]).1 = 2 := by decide +kernel

/-- Core 0 with a matrix command at the head and the lease. -/
def heading (op : MOp) : State := on (fun t => { streamed t with mq := [⟨4, op, 0#16⟩], mstart := false })

theorem witness_MatrixSteps :
    AtHead (heading (.mmul false 0 1 5 (2 ^ 40 + 2 ^ 8 + 1))) 0 (.mmul false 0 1 5 (2 ^ 40 + 2 ^ 8 + 1)) 0#16 ∧
    ((heading .histClr).task 0).lease = .holding ∧ ((heading .histClr).task 0).mstart = false ∧
    ((0#64 : Word64).getLsbD 40 = false) ∧ stepsOf false 0#64 = 0 ∧ 0 < stepsOf false (BitVec.ofNat 64 (32 * 2 ^ 16 + 2 ^ 8 + 1)) ∧
    (heading .histClr).shareReady 0 1 = true ∧ (heading .histClr).qroom 0 4 = true ∧ (((heading .histClr).task 0).queue 4).fresh = 0 ∧
    ((base.quad 0).budget ≤ 0) ∧ base.nextWaiting 0 0 = none := by
  refine ⟨⟨Or.inl (by decide +kernel), 4, [], by decide +kernel⟩, ?_⟩
  decide +kernel

/-- HIST.CLR at the head clears the bins (R250); PREC sets the widths of its tile (R243). -/
theorem test_matrix :
    ((after (exec (.histClrAtHead 0) ((heading .histClr).modTask 0 (fun t => { t with bins := t.bins.set 3 9#32 })))).task 0).bins[3]? = some 0#32 ∧
    ((after (exec (.precAtHead 0) (heading (.prec 1 3#4 5#4)))).task 0).zpwOf 1 = 0x053#9 := by decide +kernel

/-- A command queue of partition 1 with one packet read. -/
def queueOf (packet : Nat) : CmdQueue := ⟨1, 1, 0, 6, 0x1000, [0], 1, 1, [(BitVec.ofNat 512 packet, 0)], [], false, false, 0, [], [], []⟩
/-- The machine with that queue. -/
def queueing (packet : Nat) : State := { base with queues := [(64, queueOf packet)] }

theorem witness_CommandQueues :
    PacketDue (queueing 1) 64 1 0 (queueOf 1) ∧ (queueing 1).takesPackets 1 = true ∧ (queueOf 1).halted = false ∧
    (queueOf 1).fetched.length < 64 ∧ (7 < 9 ∧ (9 : Nat) % 2 ^ 8 = 9) ∧ ((1 + 2 ^ 8) / 2 ^ 8 % 2 ^ 56 ≠ 0) ∧
    (queueing 1).partOfContext 1 = 1 ∧ NMap.get (queueing 1).contexts 1 ≠ none ∧
    (queueing 1).loadStatus ⟨[], 0, 0#64, 6, 1, 0, 0, 0#64, true⟩ = 1 ∧
    (queueing 1).loadStatus ⟨[0#32], 0, placedPartw.setWidth 64, 6, 1, 0x10000000, 0x10010000, 0x1000000000000#64, true⟩ = 0 ∧
    (queueing 1).freeKid 1 3 1 = some 2 ∧ (1 ≤ 4096 ∧ 4096 < 4097) ∧ (queueing 2).recordOk 1 rec1 = true ∧
    (queueing 2).framesUsable 1 rec1 1 0#32 = false ∧ (queueing 3).graphIn 1 7 = false ∧
    (∀ x, NMap.get (queueing 5).groups 9 = some x → x.live = 0) ∧ (queueing 5).inService ((queueing 5).partOfContext 1) = true := by
  refine ⟨⟨by decide +kernel, by decide +kernel, by decide +kernel, BitVec.ofNat 512 1, [], by decide +kernel, by decide +kernel, by decide +kernel⟩,
    by decide +kernel, by decide +kernel, by decide +kernel, by decide, by decide, by decide +kernel, by decide +kernel, by decide +kernel,
    by decide +kernel, by decide +kernel, by decide, by decide +kernel, by decide +kernel, by decide +kernel, ?_, by decide +kernel⟩
  intro x h
  have e : NMap.get (queueing 5).groups 9 = none := by decide +kernel
  rw [e] at h; cases h

/-- A FENCE with no groups completes with status 0; an unknown opcode halts its queue with status 0x10 (R301, R303). -/
theorem test_packets :
    (NMap.get (after (exec (.fence 64) (queueing 5))).queues 64).map (fun q => (q.completions, q.halted)) = some ([⟨0, 0, 0#64⟩], false) ∧
    (NMap.get (after (exec (.unknownCommand 64) (queueing 9))).queues 64).map (fun q => (q.completions, q.halted)) = some ([⟨0, 0x10, 0#64⟩], true) := by
  decide +kernel

/-- A graph of one root node and one after it. -/
def graph0 : Graph := Graph.ofDesc ⟨1, false, [⟨rec1, 1, 0#32, .task⟩, ⟨rec1, 1, 0#32, .task⟩], [⟨0, 1, 2⟩]⟩ 1 7#12 [0]
/-- The machine with it, one wake pending. -/
def graphing : State := { base with graphs := [(3, { graph0 with wakes := 1 })] }

theorem witness_GraphRuns :
    RunDue graphing 3 0 { graph0 with wakes := 1 } ∧ ¬RunDue graphing 3 1 { graph0 with wakes := 1 } ∧
    ((graph0.node 0).desc.kind = .task) ∧ (graph0.runs = false) ∧ handleOf graph0.gen 3 = 0x00700003#32 ∧
    (∀ e ∈ graph0.edges, e.src ≠ e.dst) ∧ base.groupEnded 9 = true ∧ graph0.passOver 0 = true ∧
    (base.engineRead 1 hdl 0 8).isOk = true := by
  refine ⟨⟨by decide +kernel, by decide +kernel, by decide +kernel, by decide +kernel, by decide +kernel, by decide +kernel, by decide +kernel,
    Or.inl ⟨by decide +kernel, by decide +kernel⟩⟩, ?_, by decide +kernel, by decide +kernel, by decide +kernel, by decide +kernel, by decide +kernel,
    by decide +kernel, by decide +kernel⟩
  rintro ⟨-, -, -, -, -, -, -, h | h⟩
  · exact absurd h.1 (by decide +kernel)
  · have e : (∀ e ∈ ({ graph0 with wakes := 1 } : Graph).edges, e.dst = 1 → 1 ≤ e.items) := h.2.1
    revert e
    decide +kernel

/-- A root's run takes its wake and pushes its record (R309). -/
theorem test_run_start :
    let t := after (exec (.runStart 3 0) graphing)
    (NMap.get t.graphs 3).map (fun g => ((g.node 0).run.isSome, g.edges.map (·.free))) = some (true, [1]) ∧
    (t.ring 1 0 0).length = 1 := by decide +kernel

/-- The machine with partition 1 in a state. -/
def tenant (v : VState) : State := base.modPartition 1 (fun p => { p with vstate := v })

theorem witness_VirtualDevices :
    NMap.get base.partitions 1 ≠ none ∧ base.takesPackets 1 = true ∧ (tenant .paused).takesPackets 1 = false ∧
    base.cyc.toNat / (base.partOf 1).pqwin.toNat = (base.partOf 1).window ∧
    (1000000#64).toNat / (base.partOf 1).pqwin.toNat ≠ (base.partOf 1).window ∧
    (base.partOf 1).vstate = .running ∧ ((tenant .descheduled).partOf 1).vstate = .descheduled ∧
    (serving (waits 0)).queues = [] ∧
    ((((serving (waits 0)).modPartition 1 (fun x => { x with closing := true })).closeSlice 1).occupied 1 = false) ∧
    NMap.get base.partitions 2 = none ∧
    ({ tenant .paused with images := [(tenant .paused).migrationImage 1] } : State).images[0]? = some ((tenant .paused).migrationImage 1) := by
  decide +kernel

/-- A deschedule of an idle virtual device; the reset raises its incarnation (R318, R320). -/
theorem test_virtual_device :
    ((after (exec (.deschedule 1) (serving (waits 0)))).partOf 1).vstate = .descheduled ∧
    ((after (exec (.virtualDeviceReset 1) base)).partOf 1).incarnation = 1#16 ∧
    ((after (exec (.virtualDeviceReset 1) base)).core 0).mode = .idle := by decide +kernel

/-- A request for a partition on package 0 with small rings. -/
def request : PartitionRequest := ⟨2, [0], 0, List.replicate 32 10, ⟨[3], [], [], [], [], []⟩, []⟩

theorem witness_PartitionsAndParameters :
    partitionOk request = true ∧ NMap.get base.partitions 2 = none ∧ NMap.get base.partitions 1 ≠ none ∧
    partitionOk { request with ringLog := 5 :: List.replicate 31 10 } = false ∧
    (NMap.get base.contexts 2 = none ∧ (16 : Nat) ≤ 2 ^ 20) ∧ ((tenant .paused).partOf 1).vstate = .paused ∧
    (1 ≤ (16#64).toNat % 2 ^ 5 ∧ (16#64).toNat % 2 ^ 5 ≤ 16 ∧ 16 < (17#64).toNat % 2 ^ 5) ∧ (10000 ≤ (10000#64).toNat % 2 ^ 40) ∧
    ((9999#64).toNat % 2 ^ 40 < 10000) ∧ (85 ≤ (105#64).toNat ∧ (105#64).toNat ≤ 105 ∧ 105 < (106#64).toNat) := by
  refine ⟨by decide, by decide +kernel, by decide +kernel, by decide, ⟨by decide +kernel, by decide⟩, by decide +kernel, ?_, ?_, ?_, ?_⟩ <;> decide

/-- A write of PWGT out of range leaves it (R316). -/
theorem test_pwgt : ((after (exec (.parameterRegisterWrite (.pwgt 1) 16#64) base)).partOf 1).pwgt = 16#5 ∧
    ((after (exec (.parameterRegisterWrite (.pwgt 1) 17#64) base)).partOf 1).pwgt = 1#5 := by decide +kernel

theorem witness_BringUpAndTrust :
    State.reset.device.stage = .verify ∧ State.reset.device.fuses ≤ (1#32).toNat ∧ base.device.stage ≠ .verify ∧
    ({ Device.reset with stage := .recovery } : Device).stage = .recovery ∧ ({ Device.reset with stage := .reduced } : Device).stage = .reduced ∧
    ([3] : List Nat) ≠ [] ∧ ({ Device.reset with reachedFull := true } : Device).image.version.toNat ≤ 64 ∧ Device.reset.reachedFull = false := by
  decide +kernel

/-- Training leads from REDUCED to FULL at the commanded clock, where the image's version may be committed (R324, R331); a failed stack
keeps REDUCED. -/
theorem test_bring_up :
    let s : State := { State.reset with device := { Device.reset with stage := .reduced, image := ⟨1#32, [], [], []⟩ } }
    let t := after (exec (.trainingComplete []) s)
    let u := after (exec (.trainingComplete []) (after (exec (.trainingComplete [3]) s)))
    t.device.stage = .full ∧ t.device.clock = 1000 ∧ (after (exec .commit t)).device.fuses = 1 ∧ u.device.stage = .reduced := by
  decide +kernel

theorem witness_PowerAndClock :
    (∃ x ∈ base.cores, x.1 / 64 = 0 ∧ x.2.mode ≠ .idle) ∧ base.framesMeet (Place.ofDie 0) = true ∧ base.framesMeet (Place.ofDie 5) = false ∧
    (1200 % 25 = 0 ∧ 600 ≤ 1200 ∧ 1200 ≤ 1200 ∧ base.device.locked = false) ∧ base.device.stage = .full ∧ base.taskRuns = true ∧
    (serving (waits 0)).taskRuns = false ∧ ({ base.device with locked := true } : Device).locked = true := by decide +kernel

/-- A clock command out of steps is refused (R327). -/
theorem test_clock : (after (exec (.clockCommand 1200) base)).device.commanded = 1200 ∧
    (after (exec (.clockCommand 1210) base)).device.commanded = 1000 := by decide +kernel

theorem witness_IntegrityAndRecovery :
    (NMap.getD base.device.missed 4 0 + 1 < 8) ∧ (8 ≤ NMap.getD ([(4, 7)] : NMap Nat) 4 0 + 1) ∧ base.device.failed.contains 4 = false ∧
    (∀ x ∈ (serving (waits 0)).cores, x.2.mode = .idle ∨ x.2.task.part ≠ 1) ∧
    (let s := after (exec (.checkpoint 1 []) ((serving (waits 0)).modPartition 1 (fun p => { p with phasedAt := some 0#64 })))
     (s.checkpoints.find? (fun x => x.part == 1)).map (fun k => (k.tasks, k.records)) = some ([], [waits 0])) ∧
    base.checkpoints.find? (fun x => x.part == 1) = none := by decide +kernel

/-- Eight heartbeats missed make a failed package (R298). -/
theorem test_heartbeat :
    (after (exec (.heartbeatTimeout 4) { base with device := { base.device with missed := [(4, 7)] } })).device.failed = [4] := by decide +kernel

theorem witness_MemoryFormKept : Memory.wf base.mem = true ∧ (match step base with | .next _ => true | _ => false) = true := by decide +kernel

/-! Forms and clauses of their own. -/

/-- The bytes of a number at an address, as memory lists them. -/
def placed (a n v : Nat) : Memory := (bytesOf n v).zipIdx.filterMap (fun x => if x.1 = 0#8 then none else some (a + x.2, x.1))
/-- Page tables of four levels at the start of die 0's near tier, whose last level holds the leaf `e` for virtual page 0; the context's
table has room for `n` entries and its frame lists room for `l` words. -/
def mapping (e n l : Nat) : State :=
  let b := 0x010000000000
  { base with
    mem := placed b 8 (b + 0x1001) ++ placed (b + 0x1000) 8 (b + 0x2001) ++ placed (b + 0x2000) 8 (b + 0x3001) ++ placed (b + 0x3000) 8 e
    contexts := [(1, { ctx with hostRoot := b, petSize := n, listCap := l })]
    partitions := [(1, { Partition.default with inSlice := true, own := ⟨[0], [], [], [], [], []⟩ })] }
/-- A leaf of the 64 KiB at the start of pool 0: tier 0, class 1, read only (R158). -/
def leaf : Nat := 1 + 2 + 4 + 2 ^ 5 + poolBase 0

/-- A walk that succeeds, with room and without; a page that may not be written, a reserved bit, and an entry that is not valid. -/
theorem witness_Translation_walks :
    Memory.wf (mapping leaf 16 64).mem = true ∧
    (match (mapping leaf 16 64).translate 1 1 1 2 false with
      | .ok (_, fs, g, u) => g == 2 && u.freeEntry 1 == some 1 && ((NMap.get u.contexts 1).bind (fun x => x.listRoom fs.length)) == some 1
      | .error _ => false) = true ∧
    (match (mapping leaf 1 64).translate 1 1 1 2 false with | .ok (_, _, _, u) => u.freeEntry 1 == none | .error _ => false) = true ∧
    (match (mapping leaf 16 0).translate 1 1 1 2 false with
      | .ok (_, fs, _, u) => ((NMap.get u.contexts 1).bind (fun x => x.listRoom fs.length)) == none
      | .error _ => false) = true ∧
    (match ((mapping leaf 16 64).walk 1 1 1).1 with | .page q => q.r && !q.w | .miss | .malformed => false) = true ∧
    ((mapping (leaf + 2 ^ 15) 16 64).walk 1 1 1).1 = .malformed ∧ ((mapping (leaf - 1) 16 64).walk 1 1 1).1 = .miss := by
  decide +kernel

/-- TRANS of two bytes takes entry 1 and answers its token and the length; without room in the table or for its frames it answers nothing,
with TKS.PETX (R193). -/
theorem test_trans :
    let t := (after (exec (.trans 3#4 1#6 2#6 0#1 0#1) (mapping leaf 16 64))).task 0
    let u := (after (exec (.trans 3#4 1#6 2#6 0#1 0#1) (mapping leaf 1 64))).task 0
    let v := (after (exec (.trans 3#4 1#6 2#6 0#1 0#1) (mapping leaf 16 0))).task 0
    (t.kreg 3 = 1#32 ∧ t.areg 2 = 2#64 ∧ t.tks = 0#6) ∧ (u.kreg 3 = 0#32 ∧ u.areg 2 = 0#64 ∧ u.tks = 32#6) ∧
    (v.kreg 3 = 0#32 ∧ v.areg 2 = 0#64 ∧ v.tks = 32#6) := by decide +kernel

/-- A core stopped in this cycle by a trap of cause 0x20, or by the 0x14 of a suspension. -/
def stoppedNow (weak : Bool) : State :=
  let s := base.setCore 0 { base.core 0 with mode := .stopped }
  { s with kernels := [(key, { kern with dying := some ⟨0, 0x20#8, weak, 0, 0, 0, false, [], 0#64⟩ })] }

theorem witness_TakingATrap_second :
    ((stoppedNow false).core 0).mode = .stopped ∧
    (stoppedNow false).kernel key = some { kern with dying := some ⟨0, 0x20#8, false, 0, 0, 0, false, [], 0#64⟩ } ∧
    (0#64 = (stoppedNow false).cyc ∧ (0x1F#8).toNat < (0x20#8).toNat ∧ ¬((0x21#8).toNat < (0x20#8).toNat)) ∧
    (stoppedNow true).kernel key = some { kern with dying := some ⟨0, 0x20#8, true, 0, 0, 0, false, [], 0#64⟩ } := by decide +kernel

/-- Of two traps in one cycle the lower cause is reported (R32). -/
theorem test_second_trap :
    (((stoppedNow false).takeTrap 0 .x 0x1F#8).kernel key).map (fun k => k.dying.map (·.cause)) = some (some 0x1F#8) ∧
    (((stoppedNow false).takeTrap 0 .x 0x21#8).kernel key).map (fun k => k.dying.map (·.cause)) = some (some 0x20#8) ∧
    (((stoppedNow true).takeTrap 0 .x 0x21#8).kernel key).map (fun k => k.dying.map (·.cause)) = some (some 0x21#8) := by decide +kernel

/-- Three active loops of side A, the innermost first, all ending at word 0. -/
def threeLoops (n : Nat) : State := base.setSeq 0 .a { base.seq 0 .a with
  order := [2, 0, 1]
  lc := #v[⟨3#32, 0#32, 0#32, true⟩, ⟨3#32, 0#32, 0#32, true⟩, ⟨BitVec.ofNat 32 n, 0#32, 0#32, true⟩] }

theorem witness_CompletedWordsAdvance_loops :
    ((threeLoops 3).seq 0 .a).order = [] ++ 2 :: [0, 1] ∧ ((threeLoops 3).seq 0 .a).order.Nodup ∧
    ((threeLoops 3).seq 0 .a).lc[2]? = some ⟨3#32, 0#32, 0#32, true⟩ ∧ ((threeLoops 1).seq 0 .a).lc[2]? = some ⟨1#32, 0#32, 0#32, true⟩ ∧
    0 < (threeLoops 3).ownFrom kern .a (((threeLoops 3).seq 0 .a).pc.toNat + 1) ∧
    (let s := base.setSeq 0 .a { base.seq 0 .a with order := [2, 0], lc := #v[⟨3#32, 0#32, 0#32, true⟩, LoopCtr.reset, ⟨3#32, 0#32, 5#32, true⟩] }
     (s.seq 0 .a).order = [2] ++ 0 :: [] ∧ 0 < s.ownFrom kern .a 1 ∧ s.ownFrom kern .a 1 ≤ 5) := by decide +kernel

/-- The innermost loop goes on first; on its last pass the next outer one does (R30, R82). -/
theorem test_three_loops :
    (((threeLoops 3).retire 0 .a).seq 0 .a).order = [2, 0, 1] ∧ (((threeLoops 3).retire 0 .a).seq 0 .a).lc[2]? = some ⟨2#32, 0#32, 0#32, true⟩ ∧
    (((threeLoops 1).retire 0 .a).seq 0 .a).order = [0, 1] ∧ (((threeLoops 1).retire 0 .a).seq 0 .a).lc[0]? = some ⟨2#32, 0#32, 0#32, true⟩ := by
  decide +kernel

/-- The entry as an image of its table shows it (R161). -/
theorem witness_TokenChecks_table :
    (ent.cls < 4 ∧ ent.tier < 4 ∧ ent.infl < 2 ^ 19 ∧ ent.len ≤ 2 ^ 32 ∧ 0x200000 + 8 * ent.base < 2 ^ 48) ∧
    base.contexts = [(1, ctx)] ∧ 5 < ctx.petSize ∧ ctx.petAt + 32 * ctx.petSize ≤ Config.wakeBase := by decide +kernel

/-- A store of eight bytes under way whose page the ring has just taken, and one whose page it has not. -/
def owes (left : List (Nat × Nat)) : Task → Task := fun t => { t with owed := some ⟨9, 5, left, .stores [store]⟩ }

theorem witness_StoresEnterThePendingSet_owed :
    ((on (owes [])).task 0).owed = some ⟨9, 5, [], .stores [store]⟩ ∧
    (match (on (owes [(0, 8)])).logDirty 1 0 1 5 0 8 with | .ok _ => true | .error _ => false) = true ∧
    (let s := (on (owes [(0, 8)])).modPartition 1 (fun p => { p with dlb := 6#64, dlh := 64#32 })
     let u := s.setEntry 1 5 { ent with frames := [{ page with dte := true, leaf := some 0x20000000800 }] }
     (u.partOf 1).dirtyFull = true ∧ (match u.logDirty 1 0 1 5 0 8 with | .error (.hold 1 0) => true | _ => false) = true) ∧
    timed base 0 5 = 0 ∧ timed (base.setEntry 1 5 { ent with cls := 2 }) 0 5 = 2 ∧
    timed (base.setEntry 1 5 { ent with frames := [{ page with phys := Config.remoteBase + 2 ^ 40 }] }) 0 5 = 3 ∧
    Reaches (base.setEntry 1 5 { ent with cls := 3 }) 0 hdl true 5 := by
  refine ⟨by decide +kernel, by decide +kernel, by decide +kernel, by decide +kernel, by decide +kernel, ?_, ?_⟩
  · unfold timed; decide +kernel
  · refine ⟨by decide +kernel, by decide, by decide +kernel, by decide +kernel, by decide +kernel, fun _ => by decide +kernel, by decide +kernel⟩

theorem witness_AccessSteps_more :
    (let s := on (fun t => { t with stores := [{ store with priv := true }] })
     (s.task 0).stores[0]? = some { store with priv := true } ∧ s.endIssued 0 = false ∧ (s.core 0).mode = .run ∧
     ((s.setCore 0 { s.core 0 with mode := .save false }).core 0).mode = .save false) ∧
    (let w : Store := { store with cells := [], wake := some (3, 0#64) }
     ((on (fun t => { t with stores := [w] })).task 0).busyBefore w.acc = false ∧
     ((on (fun t => { t with stores := [w], loads := [{ flight with acc := 8 }] })).task 0).busyBefore w.acc = true) ∧
    (let q : QState := { QState.reset with occ := 2, arrived := [0] }
     q.arrived.contains ((q.head + 0) % 8) = true ∧ q.ready 8 = 0) ∧
    (∀ x ∈ base.contexts, x.2.tableByte 0x20000000000 = none) ∧
    ({ flight with todo := [], dest := .slot 2 0 } : LoadFlight).dest = .slot 2 0 := by decide +kernel

/-- A load's slot that arrives in a cycle is ready in the next (R87). -/
theorem test_slot_arrival :
    let s := on (fun t => { t.setQueue 2 { t.queue 2 with occ := 1, awaiting := [0] } with loads := [{ flight with todo := [], dest := .slot 2 0 }] })
    let t := after (exec (.loadDataArrival 0 0) s)
    ((s.task 0).queue 2).ready 8 = 0 ∧ ((t.task 0).queue 2).ready 8 = 0 ∧
    ({ (t.task 0).queue 2 with arrived := [] } : QState).ready 8 = 1 := by decide +kernel

theorem witness_AtomicSteps_float :
    (let f : VatomFlight := { vflight true with op := .min }
     ((on (fun t => { t with vatom := some f })).task 0).vatom = some f ∧ f.fp = true ∧ f.lanes ≠ []) ∧
    Num.minF (Num.decodeF Num.binary32 0) (Num.decodeF Num.binary32 0x3F800000) = .fin false 0 (-149) := by decide +kernel

/-- The lane of VAMAX.FP takes 1.0 over 0 (R201). -/
theorem test_vamax_fp :
    (after (exec (.vectorAtomicLaneStep 0) (on (fun t => { t with vatom := some { vflight true with op := .max } })))).mem =
      [(0x20000000002, 0x80#8), (0x20000000003, 0x3F#8)] := by decide +kernel

theorem witness_TokenInstructions_names :
    (let t := (on (fun t => { t with names := [.nst 2#4 1 0#32] })).task 0
     t.awaitsName 2#4 = true ∧ t.awaitsName 3#4 = false ∧ t.names = [.nst 2#4 1 0#32]) ∧ WakesDue base := by
  refine ⟨by decide +kernel, ?_⟩
  unfold WakesDue
  rw [show (base.task base.cur).stores = [] by decide +kernel]
  simp


/-- The partition with two granules of each stack for anonymous extents (R168). -/
def granules : State := base.modPartition 1 (fun p => { p with own := ⟨[0], [], (List.range 8).map (fun i => (i, 0, 2)), [], [], []⟩ })

theorem insertStack_mem (depth : Nat → Nat) (x st : Nat) (l : List Nat) : x ∈ insertStack depth st l ↔ x = st ∨ x ∈ l := by
  induction l with
  | nil => simp [insertStack]
  | cons y l ih => unfold insertStack; split <;> simp [ih]; tauto

theorem witness_NamelessStores_room :
    let s : State := { granules with free := granules.free + 1 }
    base.device.stage ≠ .reduced ∧ s.freeEntry 1 = some 1 ∧
    (({ base with device := { base.device with stage := .reduced } } : State).allocate 0 1).1 = none ∧ (s.chooseRun 1 0 2).isSome = true := by
  refine ⟨by decide +kernel, by decide +kernel, by decide +kernel, ?_⟩
  have runs : ∀ st, st < 8 → ∃ g l, (granules.partOf 1).runsIn granules.nstr st 2 = g :: l := by
    intro st h
    have e : ∀ st : Fin 8, ((granules.partOf 1).runsIn granules.nstr st.val 2).length = 1 := by decide +kernel
    obtain ⟨g, hg⟩ := List.length_eq_one_iff.mp (e ⟨st, h⟩)
    exact ⟨g, [], hg⟩
  have first : ∀ depth : Nat → Nat, ((List.range 8).foldl (fun l st => insertStack depth st l) []).headD 0 < 8 := by
    intro depth
    generalize e : (List.range 8).foldl (fun l st => insertStack depth st l) [] = l
    cases l with
    | nil => decide
    | cons x l =>
      have : x ∈ (List.range 8).foldl (fun l st => insertStack depth st l) [] := by rw [e]; exact List.mem_cons_self
      simp only [List.range, List.range.loop, List.foldl, insertStack_mem, List.not_mem_nil, or_false] at this
      simp only [List.headD_cons]
      omega
  unfold State.chooseRun
  have part : ({ granules with free := granules.free + 1 } : State).partOf 1 = granules.partOf 1 := rfl
  simp only [part]
  generalize hp : (if Config.stackDepth 0 (granules.free + 1) ≤ (granules.partOf 1).anqt.toNat then 0 else _) = pref
  have lt : pref < 8 := by
    rw [← hp]
    split
    · decide
    · exact first _
  obtain ⟨g, l, hg⟩ := runs pref lt
  rw [hg]
  cases (g :: l).find? _ <;> rfl

theorem witness_LeaseInstructions_more :
    ((on (fun t => { t with lease := .holding, mq := [⟨4, .mmul false 0 1 5 0#64, 0#16⟩] })).task 0).mq.any (fun m => m.op.isArray) = true ∧
    (let s := { base with quads := [(0, ⟨some 0, 5⟩)] }
     (s.quad (quadOf 0)).holder = some 0 ∧ s.nextWaiting (quadOf 0) (quadPos 0) = none) ∧
    (twoCores.quad (quadOf 0)).holder ≠ some 0 ∧
    (let s := on (fun t => { t with lease := .holding, mstart := true, mq := [⟨4, .mmul false 0 1 5 0#64, 0#16⟩] })
     AtHead s 0 (.mmul false 0 1 5 0#64) 0#16 ∧ (s.task 0).mstart = true ∧ stepsOf false 0#64 ≤ (s.task 0).mstepsDone) := by
  refine ⟨by decide +kernel, by decide +kernel, by decide +kernel, ⟨Or.inl (by decide +kernel), 4, [], by decide +kernel⟩, by decide +kernel,
    by decide +kernel⟩

theorem witness_MatrixInstructionsQueue_traps :
    (let t := (on streamed).task 0
     let x (n : Nat) := StreamDesc.ofBits (t.stream n).desc
     (t.stream 9).bound = false ∧ (x 3).dir = true ∧ (x 2).dir = false ∧ (x 2).sparse = true ∧ (x 3).fmt ≠ 2) ∧
    pwTiles (0#22) ≤ 0 ∧ wellFormed (.mstQ 0#3 9#4 39#6 1#1) = false := by decide +kernel

/-- MLD of a sparse stream traps 0x25, of a write stream 0x23; MST of a read stream 0x23, of another format 0x25 (R247, R248). -/
theorem test_mld_mst_traps :
    let s : State := { on streamed with side := .x }
    let cause (i : Instr) := ((after (exec i s)).kernel key).map (fun k => k.dying.map (·.cause))
    cause (.mld 0#3 2#4) = some (some 0x25#8) ∧ cause (.mld 0#3 3#4) = some (some 0x23#8) ∧ cause (.mst 0#3 1#4 9#4 0#1) = some (some 0x23#8) ∧
    cause (.mst 0#3 3#4 2#4 0#1) = some (some 0x25#8) := by decide +kernel

/-- The same with a store of the task pending. -/
def joiningBehind (n : Nat) : State := (joining n).modTask 0 (fun t => { t with
  stores := [{ store with row := [(0x20000000100, 0x20000000200)], cells := [(0x20000000100, 7#8)] }] })

theorem witness_SpawnAndJoin_more :
    ((joiningBehind 1).task 0).stores ≠ [] ∧ ((joiningBehind 1).task 0).atomics = [] ∧
    (∀ e ∈ ((joiningBehind 1).task 0).stores, e.wake = none) ∧ ((joiningBehind 1).drainAll 0).inTable 1 5 = true ∧
    (full (joining 1)).pushRoom 0 rec1 = false ∧ ((on (fun t => { t with push := some rec1 })).task 0).push = some rec1 ∧
    (let s := on (fun t => { t with owed := some ⟨9, 5, [(0, 8)], .join 0⟩ })
     (s.task 0).owed = some ⟨9, 5, [(0, 8)], .join 0⟩) := by decide +kernel

/-- JOIN sends the pending set home first (R121); into a full ring its record is held, the counter lowered (R144). -/
theorem test_join_held :
    (after (exec (.join 2#4 0#6 0#8) (joiningBehind 1))).mem.read 0x20000000100 = 7#8 ∧
    ((after (exec (.join 2#4 0#6 0#8) (joiningBehind 1))).task 0).stores = [] ∧
    ((after (exec (.join 2#4 0#6 0#8) (full (joining 1)))).task 0).push = some rec1 ∧
    (after (exec (.join 2#4 0#6 0#8) (full (joining 1)))).mem.read 0x20000000000 = 0#8 := by decide +kernel

/-- A launch group of members 1, which waits at .X here, and 2, which a peer package runs. -/
def spanning : State :=
  let s := arrivedAt false
  let m := { s.member 1 with group := some 4, arrived := some .x, joined := (Vector.replicate 5 0#32).set 4 1#32 }
  let s := { s with members := [(1, m), (2, { m with arrived := none, joined := Vector.replicate 5 0#32, pkg := some 6 })] }
  s.modPartition 1 (fun p => { p with packages := [0, 6] })

theorem witness_Barriers_more :
    (spanning.member 1).told = false ∧ spanning.conditionsHold 1 = true ∧ 1 < (spanning.partOf 1).packages.length ∧
    (spanning.member 2).pkg ≠ none ∧ (NMap.get spanning.members 2).isSome = true ∧
    (let s := { base with kernels := [(key, { kern with textAt := 0x20000001000 })], mem := placed 0x20000001000 4 0x0 }
     (s.taskOf 1).isSome = true) := by decide +kernel

/-- A chain that has used the pool. -/
def pooling : State := waiting.setCore 0 { waiting.core 0 with chains := [{ chain0 with pooled := true }] }

theorem witness_EndingWords_more :
    (∃ h ∈ pooling.chainsOf (pooling.task pooling.cur).uid, h.pooled = true) ∧
    ((MOp.mclr 0).onTile 0 = true) ∧ ¬AccessesOver ((on (fun t => { t with stores := [store] })).task 0) ∧
    (collecting.task 0).cq.any (fun k => !k.read) = true ∧ (waiting.task 0).mwork.atBoundary = true ∧
    ((on (fun t => { t with mwork := { t.mwork with md := [0] } })).task 0).mwork.atBoundary = false ∧
    (waiting.haltChains 0 1).2 = false ∧ (pooling.core 0).chains = [{ chain0 with pooled := true }] := by
  refine ⟨⟨{ chain0 with pooled := true }, by decide +kernel, rfl⟩, by decide +kernel, ?_, by decide +kernel, by decide +kernel, by decide +kernel,
    by decide +kernel, by decide +kernel⟩
  rintro ⟨-, -, -, h⟩
  exact absurd h (by decide +kernel)

/-- The task with a record whose frame is the entry of k1. -/
def framed : Task := { task with record := { rec1 with w1 := BitVec.ofNat 64 hdl.toNat } }
/-- Core 0 saving its task. -/
def saving (t : Task) : State := (base.setCore 0 { base.core 0 with mode := .save false, task := t }).setEntry 1 5 { ent with len := 2 ^ 31 }
/-- The task as saved, its lines in the frame or come by message. -/
def image (lines : Option (List (Nat × Nat))) : SavedTask := ⟨framed, 1#1536, false, lines, false⟩
/-- Its record, in the shadow slot of core 0, idle. -/
def shadowed : State :=
  let r := { waits 0 with record := framed.record, img := [image none] }
  (saving framed).setCore 0 { Core.reset with shadow := some r }

theorem witness_StartsAndSaves_saves :
    FrameTakes (saving framed) 1 framed.record.ftok (framed.record.foff + 1 * 1 * imageSize) ∧
    (∀ c ∈ [0], ((saving framed).core c).mode ≠ .save true) ∧
    (saving framed).teamCores 1 = [0] ∧ ((saving framed).core 0).keptLease = none ∧ ((saving framed).task 0).push = none ∧
    ((saving { framed with push := some rec1 }).task 0).push ≠ none ∧ ((saving { framed with frameOk := false }).task 0).frameOk = false ∧
    (((saving framed).setCore 0 { (saving framed).core 0 with keptLease := some .none }).anyPoolWork 0 1).2 = false := by
  refine ⟨⟨by decide, by decide +kernel, by decide +kernel, by decide +kernel, by decide +kernel, by decide +kernel, by decide +kernel⟩,
    by decide +kernel, by decide +kernel, by decide +kernel, by decide +kernel, by decide +kernel, by decide +kernel, by decide +kernel⟩

theorem witness_StartsAndSaves_layout : InLayout task := by
  refine ⟨fun d => ?_, by decide +kernel, by decide +kernel⟩
  cases d <;> refine ⟨by decide +kernel, by decide +kernel, by decide +kernel, by decide +kernel, by decide +kernel, by decide +kernel, ?_⟩ <;>
  · intro n l h
    have e : ∀ (v : Vector LoopCtr 3), v = Vector.replicate 3 LoopCtr.reset → v[n]? = some l → l.last.toNat < 2 ^ 22 := by
      rintro v rfl h
      simp [Vector.getElem?_replicate] at h
      rw [← h.2]; decide
    exact e _ (by decide +kernel) h

theorem witness_StartsAndSaves_restores :
    (shadowed.core 0).mode = .idle ∧ ((shadowed.core 0).shadow.map (fun r => (r.img, r.claim))) = some ([image none], []) ∧
    shadowed.device.dispatchStopped = false ∧
    (match (shadowed.core 0).shadow with | some r => (shadowed.beginRestore r (image none) 0 0).isOk | none => false) = true ∧
    (let s := shadowed.setEntry 1 5 { ent with len := 2 ^ 31, state := .held }
     match (s.core 0).shadow with | some r => (match s.restoreRecord r [0] with | .error (.held 1 5) => true | _ => false) | none => false) = true ∧
    List.Pairwise (fun (p q : Nat × Nat) => p.1 ≠ q.1) [(3, 7)] ∧ (image (some [(3, 7)])).lines = some [(3, 7)] := by
  refine ⟨by decide +kernel, by decide +kernel, by decide +kernel, by decide +kernel, by decide +kernel, by decide +kernel, rfl⟩

/-- Lines that messages brought stand in the pool, the rest of it zero (R261, R293). -/
theorem test_lines :
    (match ({ base with mem := [(poolBase 0, 9#8)] } : State).restoreLines 0 (image (some [(3, 0x102)])) with
      | .ok u => u.mem
      | .error _ => []) = [(poolBase 0 + 3 * 4096, 2#8), (poolBase 0 + 3 * 4096 + 1, 1#8)] := by decide +kernel

/-- The header of an image read back gives the registers that it holds (R260, R334). -/
theorem test_header :
    let t := (task.setAreg 7 0x1234#64).setQueue 3 { task.queue 3 with occ := 2, head := 5, p := 256 }
    let v := Task.reset.ofHeader (t.header (base.member 1) false 5#1536 (fun _ => 0#8))
    v.areg 7 = 0x1234#64 ∧ (v.queue 3).occ = 2 ∧ (v.queue 3).head = 5 ∧ (v.queue 3).p = 256 ∧
    writtenOf (t.header (base.member 1) false 5#1536 (fun _ => 0#8)) = 5#1536 := by decide +kernel

/-- The tenancy over packages 0 and 6, with a record; die 1 advertises a place for two cores, die 2 of package 6 another. -/
def offering (r : RingRec) : State :=
  let s := (wide r).modPartition 1 (fun p => { p with packages := [0, 6] })
  let s := s.setDie 1 { s.die 1 with adverts := [⟨1, 2, 1, 0, 0⟩] }
  { s with device := { s.device with peerAdverts := [(6, 2, [⟨1, 2, 1, 0, 0⟩])] } }
/-- A peer's record for die 1, with no image, and the offer of it; the state that awaits it. -/
def peerRec : PeerRecord := ⟨9, 1, 1, 1, 0, none, (waits 1).record, [], [], [], []⟩
def peerOff : PeerOffer := ⟨1, 1, 1, 9, 0, (waits 1).record, [], []⟩
def awaiting : State := after (exec (.migrationAccept (.offered 6 peerOff)) (offering (waits 0)))

theorem witness_RecordsAgeClaimAndMove_peers :
    (offering (waits 1)).offerable (waits 1) 1 = true ∧ (offering (waits 1)).offerable (waits 1) 2 = false ∧
    (offering (waits 1)).offerable (waits 1) 10 = true ∧ ((waits 1).fits ⟨1, 2, 1, 0, 0⟩) = true ∧
    ((offering (waits 1)).partOf 1).peers = [6] ∧ (NMap.keys (offering (waits 1)).partitions) = [1] ∧
    (let r := { waits 1 with place := .moving 10 false }
     Stands (offering r) 7 r ∧ (match (offering r).sentImages r with | .ok l => l.isEmpty | .error _ => false) = true) ∧
    (let s := offering (waits 1)
     (s.partOf peerRec.part).packages.contains 6 = true ∧ (NMap.get s.contexts 1).isSome = true ∧ s.partOfContext 1 = 1 ∧
     s.kernel (kernelKey 1 peerRec.record.kid) = some kern ∧ kern.dying = none ∧ kern.deaths = peerOff.deaths ∧
     (s.accepts 1 (awaitedRecord peerOff 6 s.fresh [])).isSome = true) ∧
    ((awaiting.records.find? (fun x => x.place == .awaited 6 9)).map (·.claim)) = some [64, 65] ∧
    ((offering (waits 0)).records.find? (fun x => x.place == .awaited 6 9)) = none := by
  refine ⟨by decide +kernel, by decide +kernel, by decide +kernel, by decide +kernel, by decide +kernel, by decide +kernel,
    ⟨by unfold Stands; decide +kernel, by decide +kernel⟩, by decide +kernel, by decide +kernel, by decide +kernel⟩

/-- A record offered past the dies of its package goes to the die of the peer that advertises, and the images go with it (R292, R293). -/
theorem test_peer_migration :
    let s := offering { waits 1 with headSince := some 0#64 }
    let r := { waits 1 with place := .moving 10 false }
    (s.offerNext { waits 1 with headSince := some 0#64 } 1).records.map (·.place) = [.offered 10] ∧
    ((after (exec (.migration (.own 7)) (offering r))).outbox.map (fun m => match m with | .migration pkg q => (pkg, q.die) | _ => (0, 0))) = [(6, 2)] ∧
    ((after (exec (.migration (.peer 6 peerRec)) awaiting)).records.head?.map (fun q => (q.die, q.place, q.claim.length)))
      = some (1, .ring, 2) := by decide +kernel

theorem witness_KernelDeath_peers :
    (let s := granules
     s.atHome (nearLocal 0) 8 = true ∧ s.owns 1 (nearLocal 0) 8 true = true ∧ s.owns 1 0x20000000000 8 true = false) ∧
    base.atPeer (Config.remoteBase + 2 ^ 40) 4 = true ∧ base.atPeer (nearLocal 0) 4 = false ∧
    (let s := { base with graphs := [(3, ⟨1, 1, 7#12, false, [], [], [0], 0, [], 0, true⟩)], wakeRegs := [(9, 3)] }
     (s.boundGraph 1 9).map (·.1) = some 3 ∧ s.boundGraph 2 9 = none ∧ s.boundGraph 1 8 = none) := by decide +kernel

/-- A peer's write at home here, and what a peer's own change of its memory leaves (R288); a write outside the domain has no effect (R315). -/
theorem test_remote :
    (after (exec (.remoteAccess 1 (.write (nearLocal 0) [7#8])) granules)).mem = [(nearLocal 0, 7#8)] ∧
    (after (exec (.remoteAccess 1 (.write 0x20000000000 [7#8])) granules)).mem = [] ∧
    (after (exec (.remoteAccess 1 (.home (Config.remoteBase + 2 ^ 40) [7#8])) base)).mem = [(Config.remoteBase + 2 ^ 40, 7#8)] := by decide +kernel

theorem witness_Drydown_scrubs :
    base.stackAt (64 * (0x20000000000 / 64)) = some 8 ∧ base.scrubs 8 = true ∧
    ({ base with device := { base.device with locked := true } } : State).scrubs 8 = false ∧ base.stackAt (64 * (poolBase 0 / 64)) = none ∧
    (NMap.get ({ base with scrubbed := [(3, 5#512)] } : State).scrubbed 3) = some 5#512 ∧ (NMap.get base.scrubbed 3) = none := by decide +kernel

/-- A scrub read that corrects an error counts it (R330), and a write of TAIL makes room only from the next cycle (R322). -/
theorem test_scrub :
    ((after (exec (.scrubRead (0x20000000000 / 64) true) base)).counter (checkIndex (.hbm 8))).cor = 1#32 ∧
    (let s := base.modPartition 1 (fun p => { p with dlb := 6#64, dlh := 64#32 })
     let t := after (exec (.dltWrite 1 1#64) s)
     (s.partOf 1).dirtyFull = true ∧ (t.partOf 1).dirtyFull = true ∧ ({ t.partOf 1 with dltSeen := (t.partOf 1).dlt } : Partition).dirtyFull = false) := by
  decide +kernel

/-- A copy of 16 bytes from offset 64 to offset 128 at one of its stages: not begun, begun, read, and written. -/
def copying (tx : Option CopyTx) : CopyRun := ⟨hdl, hdl, 64, 128, 16, 255, [], [], 0, 1, tx⟩

theorem witness_ChainSteps_copy :
    (let s := chained 0 { chain0 with run := some (copying none) }
     (match s.engineCheck 1 hdl 64 16 false, s.engineCheck 1 hdl 128 16 true with
       | .ok (some (5, 0, 16), 0#6), .ok (some (5, 0, 16), 0#6) => true
       | _, _ => false) = true ∧ (s.pagesOf 1 5 128 16).any (·.wake) = false) ∧
    (let x : CopyTx := ⟨some (5, 0, 16), some (5, 0, 16), 16, 0, 0, 0⟩
     let s := chained 0 { chain0 with run := some (copying (some x)) }
     x.got < 16 ∧ (s.logDirty (s.partOfContext 1) 512 1 5 128 16).isOk = true ∧
     (let y := { x with got := 16, put := 16 }; (∀ e n m, y.src = some (e, n, m) → m ≤ y.got) ∧ (16 : Nat) ≤ (copying none).x + y.n)) ∧
    nextTuple (copying none).dims (copying none).idx = none ∧ nextTuple [(2, 1, 1)] [0] = some [1] ∧
    (base.member 1).pkg = none ∧ (spanning.member 2).pkg = some 6 := by
  refine ⟨by decide +kernel, ⟨by decide, by decide +kernel, ?_, by decide⟩, by decide +kernel, by decide +kernel, by decide +kernel, by decide +kernel⟩
  intro e n m h
  cases h
  decide

/-- A collective whose descriptor is read, its source under way or come. -/
def sourcing (r : RowReads) : State := on (fun t => { t with cq := [⟨4, .t, 1, hdl, 0#64, 2, some (0#512, r), false, none⟩] })

theorem witness_CollectiveSteps_more :
    (let r : RowReads := ⟨[(0, 0, 0, 8)], [0], 0#6⟩
     (match r.step (sourcing r) 1 hdl with | .ok w => w.todo == [] && w.got == [0] | .error _ => false) = true ∧
     (match (⟨[(0, 0, 252, 8)], [0], 0#6⟩ : RowReads).step (sourcing r) 1 hdl with | .ok w => w.todo == [(0, 4, 256, 4)] | .error _ => false) = true ∧
     (match (⟨[], [], 0#6⟩ : RowReads).step (sourcing r) 1 hdl with | .ok w => w.todo == [] && w.got == [] | .error _ => false) = true) ∧
    (let s := collecting.setEntry 1 5 { ent with state := .held }
     match s.collStep 0 ⟨4, .t, 1, hdl, 0#64, 2, none, false, none⟩ with | .error (.held 1 5) => true | _ => false) = true ∧
    base.instanceAborted (base.groupKey 1 .t) 1#32 true = false ∧
    (∀ v ∈ base.expected 1 .t, (base.member v).pkg = none) ∧
    (let s := spanning
     (s.member 2).pkg = some 6 ∧ 2 ∈ s.expected 1 .x ∧ s.instanceAborted (s.groupKey 2 .x) 1#32 true = false ∧
     0 < ((1#32 : BitVec 32) - (s.member 2).collsAt .x).toInt) ∧
    (let b : Contrib := ⟨1, 1, 1, 1, 0, 4, 1, 2, 0#512, []⟩
     (match base.payPart ⟨b, [], 0#3⟩ with | .ok (_, none) => true | _ => false) = true ∧
     (match base.engineWrite (1536 + 0) 1 1 hdl 0 8 5 with | .ok (_, _, 8) => true | _ => false) = true) := by decide +kernel

/-- An unread source is read by rows, and the part of a completed instance is written by rows (R182). -/
theorem test_rows :
    (match (⟨[(0, 0, 252, 8)], [0], 0#6⟩ : RowReads).step { base with mem := [(0x200000000FC, 1#8), (0x20000000100, 2#8)] } 1 hdl with
      | .ok w => w.got
      | .error _ => []) = [1] ∧
    (match (⟨[(0, 4, 256, 4)], [1], 0#6⟩ : RowReads).step { base with mem := [(0x200000000FC, 1#8), (0x20000000100, 2#8)] } 1 hdl with
      | .ok w => w.got
      | .error _ => []) = [1 + 2 * 2 ^ 32] := by decide +kernel

/-- A step of one K-block of an MMUL: its A block at hand, its B block to come; and of an MMULS without its metadata. -/
def stepping (sp : Bool) (w : MatrixWork) : State := on (fun t => { (streamed t).setStream 2 ⟨true, hdl, BitVec.ofNat 512
    (9 * 2 ^ 368 + 2 ^ 372 + 2 ^ 379 + 2 ^ 69 + 2 ^ 80 + 2 ^ 96 + 2 ^ 112 + 2 ^ 128 + 2 ^ 144), 0, none⟩ with
  mq := [⟨4, .mmul sp 0 (if sp then 2 else 1) 5 (BitVec.ofNat 64 ((if sp then 64 else 32) * 2 ^ 16 + 2 ^ 8 + 1)), 0#16⟩], mstart := true, mwork := w })

theorem witness_MatrixSteps_more :
    (let b : Block := ⟨List.replicate 32 1, 127, 32⟩
     let s := stepping false { MatrixWork.idle with a := [b] }
     Stepping s 0 false 0 1 5 (BitVec.ofNat 64 (32 * 2 ^ 16 + 2 ^ 8 + 1)) 0#16 ∧ (s.task 0).mwork.reads = none ∧ MayDeliver s 0 5 ∧
     (match s.stepBlock 0 5 1 with | .ok _ => true | .error _ => false) = true ∧ stepBlocksA false (BitVec.ofNat 64 (32 * 2 ^ 16 + 2 ^ 8 + 1)) 0 = 1) ∧
    (let s := stepping true MatrixWork.idle
     Stepping s 0 true 0 2 5 (BitVec.ofNat 64 (64 * 2 ^ 16 + 2 ^ 8 + 1)) 0#16 ∧
     0 < (s.task 0).stepWords 2 (stepBlocksA true (BitVec.ofNat 64 (64 * 2 ^ 16 + 2 ^ 8 + 1)) 0) ∧
     (match s.stepMetadata 0 0 2 1 with | .ok _ => true | .error _ => false) = true) ∧
    illegalGroup 0 = some 0 ∧ illegalGroup 0x4444444444444444 = none ∧ illegalGroup 0x4444444444444404 = some 1 ∧
    (let d : BitVec 512 := BitVec.ofNat 512 (2 ^ 368 + 2 ^ 424)
     let x : ShareGroup := ⟨0, 1, hdl, d, [(0, 1)], true, 0#64, [], none⟩
     let s := { on (fun t => t.setStream 1 ⟨true, hdl, d, 0, some 5⟩) with shares := [(5, x)] }
     ((s.task 0).stream 1).share = some 5 ∧ NMap.get s.shares 5 = some x ∧ s.shareReady 0 1 = true) ∧
    (let s := heading (.mst 0 3 false)
     AtHead s 0 (.mst 0 3 false) 0#16 ∧ (s.task 0).mwork.writes = [] ∧ (s.task 0).mwork.blocks ≠ 512 ∧
     (match s.putRow 0 3 ⟨0, 4, 7, none, false⟩ [] with | .ok u => u.mem == [(0x20000000000, 7#8)] | .error _ => false) = true) := by
  refine ⟨⟨⟨⟨Or.inl (by decide +kernel), 4, [], by decide +kernel⟩, by decide +kernel, by decide +kernel, by decide +kernel⟩, by decide +kernel,
    Or.inr (by decide +kernel), by decide +kernel, by decide +kernel⟩,
    ⟨⟨⟨Or.inl (by decide +kernel), 4, [], by decide +kernel⟩, by decide +kernel, by decide +kernel, by decide +kernel⟩, by decide +kernel,
      by decide +kernel⟩, by decide +kernel, by decide +kernel, by decide +kernel, by decide +kernel,
    ⟨⟨Or.inl (by decide +kernel), 4, [], by decide +kernel⟩, by decide +kernel, by decide +kernel, by decide +kernel⟩⟩

/-- An illegal group of metadata ends the kernel with 0x33, and a K-block of ordinary numbers adds its exact product (R104, R230). -/
theorem test_matrix_steps :
    ((after (exec (.arrayStep 0) (stepping true MatrixWork.idle))).kernel key).map (fun k => k.dying.map (·.cause)) = some (some 0x33#8) ∧
    macBlock 1 1 0 (false, 5) ⟨128, [3, -1]⟩ ⟨126, [2, 4]⟩ = ((false, 7), false, false) := by decide +kernel

/-- The queue with a launch under way: a record of group 9 still waits, or none. -/
def launching (held : Bool) : State :=
  let s := queueing 2
  { s with queues := [(64, { queueOf 2 with launching := [9] })], records := if held then [{ waits 0 with group := some 9, place := .held }] else [] }

theorem witness_CommandQueues_more :
    ((launching true).queues.map (fun q => q.2.launching)) = [[9]] ∧ (launching false).heldOf 9 = [] ∧
    (let s := { launching true with partitions := [(1, { Partition.default with inSlice := true, ringLog := List.replicate 32 0 })] }
     let s := { s with records := s.records ++ [{ waits 0 with id := 8 }] }
     (s.admitGroup 9).heldOf 9 ≠ []) ∧
    (let s := { queueing 3 with graphs := [(7, graph0)] }
     s.graphIn 1 7 = true ∧ (queueing 3).graphIn 1 7 = false) ∧
    (let s := { queueing 5 with queues := [(64, { queueOf 5 with groups := [9] })], groups := [(9, ⟨1, key, 1, 0, 0⟩)] }
     (NMap.get s.groups 9).map (·.live) = some 1) ∧
    ({ graph0 with wakes := 1, sources := [some 64] } : Graph).sources = [some 64] ∧
    (let s : State := { queueing 1 with device := { (queueing 1).device with stage := .reduced } }
     s.loadStatus ⟨[0#32], 0, placedPartw.setWidth 64, 6, 1, 0x10000000, 0x10010000, 0x1000000000000#64, true⟩ = 0) ∧
    (let s := queueing 1
     (s.modKernel key (fun k => { k with area := [⟨rec1, 3#16⟩] })).kernel key = some { kern with area := [⟨rec1, 3#16⟩] } ∧
     (3#16 : BitVec 16) ≠ (s.partOf 1).incarnation ∧ s.inService (s.partOfContext kern.ctx) = true) := by decide +kernel

/-- The completion of a FENCE stands in host memory: sequence 0, status 0x10 for an unknown opcode (R301). -/
theorem test_completion :
    (after (exec (.unknownCommand 64) (queueing 9))).mem = [(Config.hostBase + 0x1004, 0x10#8)] := by decide +kernel

/-- In REDUCED the text of a LOAD waits in the staging memory, and stands in the near tier at FULL (R325). -/
theorem test_staging :
    let s : State := { base with device := { base.device with stage := .reduced }
                                 kernels := [(key, { kern with textAt := 0x10000000000, constAt := 0x10000001000, staged := some ([7#32], [9#8]) })] }
    (s.mem = []) ∧ (after (exec (.trainingComplete []) s)).mem = [(0x10000000000, 7#8), (0x10000001000, 9#8)] := by decide +kernel

theorem witness_GraphRuns_more :
    (let s := { graphing with device := { graphing.device with locked := true } }
     s.taskRuns = true ∧ s.device.locked = true) ∧
    (let g := Graph.ofDesc ⟨1, false, [⟨rec1, 1, 0#32, .loop 2 [1]⟩, ⟨rec1, 1, 0#32, .task⟩], [⟨0, 1, 2⟩]⟩ 1 7#12 [0]
     (g.node 0).desc.kind = .loop 2 [1] ∧ g.passOver 0 = true) ∧
    (let g := Graph.ofDesc ⟨1, false, [⟨rec1, 1, 0#32, .cond hdl 0 1 1⟩, ⟨rec1, 1, 0#32, .task⟩], [⟨0, 1, 2⟩]⟩ 1 7#12 [0]
     (∃ e ∈ (g.finish 0 (fun v => v == 1)).edges, e.src = 0 ∧ e.dst = 1) ∧ ¬∃ e ∈ (g.finish 0 (fun v => v == 1)).edges, e.src = 0 ∧ e.dst = 5) ∧
    (handleOf graph0.gen 3 ≠ 0x00800003#32) := by decide +kernel

theorem witness_VirtualDevices_more :
    (base.core 0).running = true ∧ (base.task 0).yreq.getLsbD 0 = false ∧
    (let s := base.setCore 0 { base.core 0 with shadow := some (waits 0) }
     ((s.core 0).shadow.map (·.part)) = some 1) ∧
    ((tenant .paused).partOf 1).vstate = .paused ∧ NMap.get base.partitions 1 ≠ none ∧
    (∃ q ∈ (launching true).queues, q.2.part = 1 ∧ q.2.launching ≠ []) ∧ base.occupied 1 = true := by
  refine ⟨by decide +kernel, by decide +kernel, by decide +kernel, by decide +kernel, by decide +kernel,
    ⟨(64, { queueOf 2 with launching := [9] }), by decide +kernel, rfl, by decide⟩, by decide +kernel⟩

theorem witness_PartitionsAndParameters_more :
    ownershipOk ⟨[0], [], [(0, 0, 4), (1, 0, 4)], [(31, true)], [], [8191]⟩ = true ∧ ownershipOk ⟨[0], [], [(0, 0, 4), (0, 8, 4)], [], [], []⟩ = false ∧
    ownershipOk ⟨[], [], [], [(32, true)], [], []⟩ = false ∧ base.serves = true ∧
    ({ base with device := { base.device with stage := .verify } } : State).serves = false ∧
    (let s := { graphing with partitions := [(1, { Partition.default with own := ⟨[], [], [], [], [], [9]⟩ })] }
     ((NMap.get s.graphs 3).map (fun g => (s.partOf g.part).own.wakeRegs)) = some [9]) := by decide +kernel

theorem witness_BringUpAndTrust_more :
    (let k : Kernel := { kern with staged := some ([7#32], []) }
     ({ base with kernels := [(key, k)] } : State).kernels = [(key, k)]) ∧
    (let r := { waits 0 with place := .fault 5#64 1 true }
     r ∈ (serving r).records) ∧ (65#32).toNat > 64 := by
  refine ⟨rfl, List.mem_singleton.mpr rfl, by decide⟩

/-- A fault that only REDUCED made ends with FULL; one of a page that is not there waits for the host (R325). -/
theorem test_staged_faults :
    let r (b : Bool) : RingRec := { waits 0 with place := .fault 5#64 1 b }
    ((serving (r true)).completeStaged.records.map (·.place)) = [.ring] ∧ ((serving (r false)).completeStaged.records.map (·.place)) = [.fault 5#64 1 false] := by
  decide +kernel

theorem witness_PowerAndClock_more :
    99 < base.device.trip ∧ base.device.trip ≤ 100 ∧ (List.replicate 8 95).length = 8 ∧ (∀ x ∈ List.replicate 8 95, x + 5 ≤ base.device.trip) ∧
    (∃ x ∈ List.replicate 8 96, base.device.trip < x + 5) := by decide +kernel

/-- A reading below the trip temperature does nothing; at it the clock falls to 600 MHz, and in locked-clock mode what runs ends (R328). -/
theorem test_trip :
    (after (exec (.thermalTrip 2 99) base)).device.clock = base.device.clock ∧ (after (exec (.thermalTrip 2 100) base)).device.clock = 600 ∧
    (let s : State := { base with device := { base.device with locked := true } }
     (after (exec (.thermalTrip 2 100) s)).device.dispatchStopped = true ∧ ((after (exec (.thermalTrip 2 100) s)).core 0).mode ≠ .run) := by
  decide +kernel

theorem witness_IntegrityAndRecovery_more :
    (16 : Nat) ≤ 16 ∧ (16 : Nat) < 17 ∧ 4 ∉ base.ownNumbers ∧ (∃ p, p ∈ base.ownNumbers) ∧
    ((base.modPartition 1 (fun p => { p with phasedAt := some 0#64 })).partOf 1).phasedAt = some base.cyc ∧ base.coresOf 1 = [0] ∧
    (∀ c ∈ (serving (waits 0)).coresOf 1, (serving (waits 0)).still c = true) := by
  refine ⟨by decide, by decide, by decide +kernel, ⟨0, by decide +kernel⟩, by decide +kernel, by decide +kernel, by decide +kernel⟩

/-- Sixteen retries of a beat are counted; the seventeenth failure is an uncorrectable error, which stops the package (R330). -/
theorem test_retries :
    ((after (exec (.uncorrectableError (.retried 2 16)) base)).counter (checkIndex (.dieToDie 2))).cor = 16#32 ∧
    (after (exec (.uncorrectableError (.retried 2 16)) base)).device.halted = false ∧
    (after (exec (.uncorrectableError (.retried 2 17)) base)).device.halted = true := by decide +kernel

/-! Witnesses of the clauses about frames, overflow, logging, walks and conversions. -/

/-- A run answers a next state. -/
def goes (o : Host.Outcome State Fault Refusal) : Bool := match o with | .next _ => true | .fault _ | .refused _ => false

theorem witness_ScalarWordsChangeNothingElse_more :
    controlWord (.b 5#24) = some false ∧ goes (exec (.b 5#24) base) = true ∧ controlWord (.esig 9#8) = some true ∧
    goes (exec (.esig 9#8) base) = true ∧ goes (exec (.wrs .a 1#6 0x20#12) base) = true ∧ goes (exec (.qmov .x 3#6 1#6) baseX) = true ∧
    goes (exec (.qmov .a 32#6 36#6) (on (oneIn 4))) = true ∧ goes (exec (.qflush .a 32#6) base) = true ∧ goes (exec (.call 5#24) base) = true ∧
    ¬logBytes base 1 0x20000000000 := by
  refine ⟨by decide, by decide +kernel, by decide, by decide +kernel, by decide +kernel, by decide +kernel, by decide +kernel, by decide +kernel,
    by decide +kernel, ?_⟩
  rintro (h | ⟨x, hx, e, he, f, hf, l, hl, -⟩)
  · revert h; decide +kernel
  · rw [show base.contexts = [(1, ctx)] from rfl] at hx
    obtain rfl := List.mem_singleton.mp hx
    obtain rfl := List.mem_singleton.mp (show e ∈ [(5, ent)] from he)
    obtain rfl := List.mem_singleton.mp (show f ∈ [page] from hf)
    cases hl

theorem witness_MemoryWordsChangeNothingElse_more :
    engineWord (.copy 1#6 2#6) = some none ∧ goes (exec (.copy 1#6 2#6) base) = true ∧ engineWord (.sdrop 3#4) = some (some 3#4) ∧
    goes (exec (.sdrop 3#4) base) = true ∧ goes (exec .lease baseX) = true ∧ goes (exec .unlease baseX) = true ∧
    (∀ e ∈ (base.task 0).stores, ∀ x ∈ e.cells, x.1 ≠ 7) := by
  refine ⟨by decide, by decide +kernel, by decide, by decide +kernel, by decide +kernel, by decide +kernel, ?_⟩
  rw [show (base.task 0).stores = [] by decide +kernel]
  simp

theorem witness_VectorWordsChangeNothingElse_more :
    deferWord (.defer 2#6 0#6 1#3) = some ([], some 1#3) ∧ goes (exec (.defer 2#6 0#6 1#3) (lanes 9#64)) = true ∧
    deferWord (.drain 3#6 0#6 4#6) = some ([4, 3], none) ∧ goes (exec (.drain 3#6 0#6 4#6) baseX) = true ∧
    goes (exec (.drainF 3#6 0#6 4#6 1#3) baseX) = true := by decide +kernel

theorem witness_OtherTurnsTickOrRunTheirEvent_frames :
    deskEvent (.quotaWindow 1) = true ∧ goes (exec (.quotaWindow 1) base) = true ∧ engineEvent (.pendingEntryDrain 0 0) = true ∧
    (let s := on (fun t => { t with stores := [store] })
     goes (exec (.pendingEntryDrain 0 0) s) = true ∧ (s.task 0).stores = [store]) ∧ (∀ x ∈ store.cells, x.1 ≠ 0x20000000001) ∧
    goes (exec (.loadReadStep 0 0) (on (fun t => { t with loads := [flight] }))) = true := by decide +kernel

/-- Sixteen entries in A's return stack, its oldest to move out through SPK behind SPOV = 64; `e` is the entry that SPK names. -/
def overflowing (e : PetEntry) (spk : Word32) : State := (on (fun t => { t with
  spk := spk, spov := 64#32, seqA := { t.seqA with ret := List.replicate 16 5#22 } })).setEntry 1 5 e
/-- No entry on the stack, one behind SPOV. -/
def refilling (e : PetEntry) (spk : Word32) : State := (on (fun t => { t with
  spk := spk, spov := 64#32, seqA := { t.seqA with spilled := 1 } })).setEntry 1 5 e
/-- The entry over a page whose first write is logged. -/
def logged : PetEntry := { ent with frames := [{ page with dte := true, leaf := some 0x010000000800 }] }
/-- The partition with a dirty log ring of 64 words in the near tier, `n` of them in use and others waiting before core 0. -/
def ringed (s : State) (n : Nat) (line : List Nat) : State :=
  s.modPartition 1 (fun p => { p with dlb := 0x010000010006#64, dlh := BitVec.ofNat 32 n, dirtyHeld := line })

theorem witness_CallsAndLoops_overflow :
    (let s := overflowing ent hdl
     let t := s.task 0
     (s.seq 0 .a).ret = List.replicate 15 5#22 ++ [5#22] ∧ areaHolds t ≤ (s.seq 0 .a).spilled ∧ overflowAt t .a 0 = 64 ∧
     s.tokenCheck 1 hdl 64 4 true = .done (some 5) 4 0#6 ∧ (s.entry 1 5).infl < 2 ^ 19 - 1 ∧ s.inWakeWindow 0 5 64 4 = false ∧
     (s.logDirty 1 0 1 5 64 4).isOk = true) ∧
    (overflowing { ent with frames := [{ page with wake := true, phys := Config.remoteBase }] } hdl).inWakeWindow 0 5 64 4 = true ∧
    (match (ringed (overflowing logged hdl) 64 []).logDirty 1 0 1 5 64 4 with | .error (.hold 1 0) => true | _ => false) = true ∧
    (overflowing { ent with state := .held } hdl).tokenCheck 1 hdl 64 4 true = .held ∧
    (overflowing { ent with infl := 2 ^ 19 - 1 } hdl).tokenCheck 1 hdl 64 4 true = .done (some 5) 4 0#6 ∧
    (overflowing { ent with len := 66 } hdl).tokenCheck 1 hdl 64 4 true = .done (some 5) 2 1#6 ∧
    (overflowing ent 0#32).tokenCheck 1 0#32 64 4 true = .done none 0 8#6 ∧
    (let s := refilling ent hdl
     (s.seq 0 .a).ret = [] ∧ areaHolds (s.task 0) < (s.seq 0 .a).spilled ∧ overflowAt (s.task 0) .a 0 = 64 ∧
     s.tokenCheck 1 hdl 64 4 false = .done (some 5) 4 0#6) := by decide +kernel

/-- CALL with a full stack moves its oldest entry to the word behind SPOV, RET brings it back (R79, R154); a held token stalls the CALL. -/
theorem test_overflow :
    let s := overflowing ent hdl
    (after (exec (.call 5#24) s)).mem = [(0x20000000040, 5#8)] ∧ ((after (exec (.call 5#24) s)).seq 0 .a).spilled = 1 ∧
    ((after (exec .ret { refilling ent hdl with mem := [(0x20000000040, 3#8)] })).seq 0 .a).spilled = 0 ∧
    ((after (exec .ret { refilling ent hdl with mem := [(0x20000000040, 3#8)] })).seq 0 .a).pc = 3#32 ∧
    ((after (exec (.call 5#24) (overflowing { ent with state := .held } hdl))).seq 0 .a).held = some (1, 5) ∧
    ((after (exec (.call 5#24) (overflowing { ent with len := 66 } hdl))).core 0).mode = .stopped := by decide +kernel

theorem storeFree_of_quiet {t : Task} (r : Row) (n : Nat) (h : t.loads = [] ∧ t.atomics = [] ∧ t.vatom = none) : StoreFree t r n := by
  simp [StoreFree, h.1, h.2.1, h.2.2]

theorem storeFree_of_later {t : Task} (r : Row) (n : Nat) (h : (∀ l ∈ t.loads, n ≤ l.acc) ∧ t.atomics = [] ∧ t.vatom = none) : StoreFree t r n :=
  ⟨fun l hl ha => absurd ha (Nat.not_lt.mpr (h.1 l hl)), by simp [h.2.1], by simp [h.2.2]⟩

/-- A row is free with nothing in flight, and with a load in flight that came later. -/
theorem witness_StoreFree : StoreFree (base.task 0) [(0x20000000000, 0x20000000100)] 9 ∧
    StoreFree ((on (fun t => { t with loads := [flight] })).task 0) [(0x20000000000, 0x20000000100)] 9 ∧
    Meet [(0x20000000000, 0x20000000100)] [(0x200000000FF, 0x20000000200)] := by
  refine ⟨storeFree_of_quiet _ _ (by decide +kernel), storeFree_of_later _ _ ⟨?_, by decide +kernel, by decide +kernel⟩,
    ⟨_, List.mem_singleton_self _, _, List.mem_singleton_self _, by decide⟩⟩
  rw [show ((on (fun t => { t with loads := [flight] })).task 0).loads = [flight] by decide +kernel]
  intro l hl
  obtain rfl := List.mem_singleton.mp hl
  decide

/-- The frame of the page whose first write is logged. -/
def dirtyFrame : Frame := { page with dte := true, leaf := some 0x010000000800 }

theorem witness_StoresEnterThePendingSet_logs :
    (match (ringed base 0 []).logRanges 1 0 1 5 [(0, 8)] with | .ok (_, []) => true | _ => false) = true ∧
    (match (ringed (base.setEntry 1 5 logged) 64 []).logRanges 1 0 1 5 [(0, 8)] with | .ok (_, [(0, 8)]) => true | _ => false) = true ∧
    (match (ringed (base.setEntry 1 5 logged) 0 [1]).logRanges 1 0 1 5 [(0, 8)] with | .ok (_, [(0, 8)]) => true | _ => false) = true ∧
    (let p := (ringed base 64 []).partOf 1
     p.dlb.toNat % 2 ^ 5 = 6 ∧ p.dlh.toNat = (p.dltSeen.toNat + 2 ^ 6) % 2 ^ 32) ∧
    (let p := (ringed base 0 [0]).partOf 1
     p.dlh.toNat ≠ (p.dltSeen.toNat + 2 ^ 6) % 2 ^ 32 ∧ p.dirtyHeld = [0] ∧ (place base.nstr (4096 * (p.dlb.toNat / 2 ^ 12 % 2 ^ 36))).isSome = true ∧
     0x010000000800 + 1 < 4096 * (p.dlb.toNat / 2 ^ 12 % 2 ^ 36)) ∧
    (base.partOf 1).dlb.toNat % 2 ^ 5 = 0 ∧ (match base.logPages 1 0 [] with | .ok (u, false) => u == base | _ => false) = true ∧
    (match (ringed base 64 []).logPage 1 0 dirtyFrame with | .error (.hold 1 0) => true | _ => false) = true ∧
    (match (ringed base 0 []).logPage 1 0 dirtyFrame with | .ok _ => true | _ => false) = true := by decide +kernel

/-- The first write of a page takes the next word of the ring and sets DIRTY (R170). -/
theorem test_log_page :
    (match (ringed base 0 []).logPage 1 0 dirtyFrame with
      | .ok t => (t.mem, (t.partOf 1).dlh)
      | .error _ => ([], 0#32)) = ([(0x010000000801, 4#8), (0x010000010005, 2#8)], 1#32) := by decide +kernel

/-- An entry of which the task's store is private. -/
theorem witness_AccessSteps_quiescing :
    (let s := (on (fun t => { t with stores := [{ store with priv := true }] })).setEntry 1 5 { ent with state := .quiescing }
     (s.task 0).stores[0]? = some { store with priv := true } ∧ (s.entry store.ctx store.ent).state = .quiescing) ∧
    (let s := on (fun t => { t with stores := [{ store with priv := true }, store] })
     (s.task 0).stores[1]? = some store ∧ store.priv = false) ∧
    Meet store.row store.row ∧ inPeerWindow 0x20000000000 = false ∧ 0x20000000000 < Config.wakeBase ∧ inPeerWindow (Config.remoteBase + 65536) = true := by
  refine ⟨by decide +kernel, by decide +kernel, ⟨_, List.mem_singleton_self _, _, List.mem_singleton_self _, by decide⟩, by decide +kernel,
    by decide +kernel, by decide +kernel⟩

theorem witness_Translation_levels :
    (let s := mapping leaf 16 64
     s.constPage 1 1 = none ∧ (NMap.get s.contexts 1).isSome = true ∧ s.frameOk 1 0 (poolBase 0) 65536 = true ∧
     (match NMap.get s.contexts 1 with
       | some x => (s.tableEntry x 0x010000000000).1 == BitVec.ofNat 64 (0x010000000000 + 0x1001) && (s.tableEntry x 0x010000003000).1 == BitVec.ofNat 64 leaf
           && (NMap.get x.pwc 0x010000000000).isNone
       | none => false) = true ∧
     (match s.leafAt 1 0x010000003000 (BitVec.ofNat 64 leaf) 4 with | .page _ => true | .miss | .malformed => false) = true ∧
     (match ({ s with device := { s.device with stage := .reduced } } : State).leafAt 1 0 (BitVec.ofNat 64 (1 + 2 + 4 + 2 ^ 5 + 2 ^ 7 + 0x010000000000)) 4 with
       | .page _ | .miss | .malformed => true) = true ∧
     (match s.walk 1 1 0 with | (.page p, u) => p.r && (u.extend 1 1 0 2 p (2 ^ 16 + 2) [] 0).isOk | _ => false) = true) ∧
    (let s := mapping (leaf - 1) 16 64
     (match s.walk 1 1 0 with | (.miss, _) => true | _ => false) = true) ∧
    (let k : Kernel := { kern with constVa := 0x8000000000000000#64, constLen := 64 }
     (({ base with kernels := [(key, k)] } : State).constPage 1 0x8000000000000000).isSome = true) ∧
    (let s := granules
     place s.nstr (poolBase 0) = some (.pool 0 0) ∧ s.frameOk 1 0 (poolBase 0) 65536 = true ∧ s.frameOk 1 1 (nearLocal 0) 4096 = true ∧
     s.frameOk 1 1 (nearLocal 0) 65536 = false) ∧
    (let s := base.modPartition 1 (fun p => { p with own := ⟨[], [(0x20000000000, 65536)], [], [], [], [0]⟩, packages := [0, 6] })
     s.frameOk 1 2 0x20000000000 65536 = true ∧ s.frameOk 1 3 Config.wakeBase 65536 = true ∧ s.frameOk 1 3 (Config.remoteBase + 7 * 65536) 65536 = true ∧
     s.frameOk 1 3 (Config.remoteBase + 6 * 65536) 65536 = false) := by decide +kernel

theorem witness_TokenInstructions_awaits :
    ((on (fun t => t.setAwait 1 .load)).task 0).await 1 = .load ∧ ((on (fun t => t.setAwait 1 .engine)).task 0).await 1 = .engine ∧
    ((on (fun t => t.setAwait 1 .error)).task 0).await 1 = .error ∧ (base.task 0).names = [] ∧ ({ ent with state := .held } : PetEntry).state = .held := by
  decide +kernel

/-- KMOV moves the handle of a held entry out, and stalls on a register that awaits (R195). -/
theorem test_kmov_held :
    ((after (exec (.kmov 2#4 1#6 1#1) (base.setEntry 1 5 { ent with state := .held }))).task 0).areg 1 = 0x00700005#64 ∧
    ((after (exec (.kmov 3#4 1#6 0#1) (on (fun t => t.setAwait 1 .load)))).seq 0 .a).issued = false ∧
    ((after (exec (.kmov 3#4 1#6 0#1) (on (fun t => t.setAwait 1 .error)))).core 0).mode = .stopped := by decide +kernel

theorem witness_LeaseInstructions_ends :
    (let s : State := { twoCores with cur := 1 }
     (s.quad (quadOf 1)).holder = some 1 ∧ s.nextWaiting (quadOf 1) (quadPos 1) = some 0 ∧ ((s.endTask 1).task 1).lease = .none ∧
     ((s.endTask 1).quad 0).holder = some 0 ∧ ((s.stopTask 1).quad 0).holder = some 0) ∧
    NMap.sorted twoCores.cores = true ∧ (twoCores.core 1).ofKernel key = true ∧ ((twoCores.sweep key 1).task 1).lease = .none ∧
    (256 ≤ (256#64).toNat % 2 ^ 32) ∧ ((255#64).toNat % 2 ^ 32 < 256) ∧ base.serves = true := by decide +kernel

/-- LBUD takes values from 256 to 2^31 and keeps its own otherwise (R225). -/
theorem test_lbud : ((after (exec (.parameterRegisterWrite (.lbud 1) 256#64) base)).partOf 1).lbud = 256#32 ∧
    ((after (exec (.parameterRegisterWrite (.lbud 1) 255#64) base)).partOf 1).lbud = 65536#32 := by decide +kernel

/-- Queue 4 with two elements of FP32 that pop as BF16, from a byte of its own; `n` elements stand ready. -/
def converting (n p : Nat) (fmt : BitVec 8) : State := on (fun t => { t.setQueue 4 { t.queue 4 with occ := n, p := p } with qfmt := t.qfmt.set 4 fmt })

theorem witness_VectorOperands_converting :
    (let t := (converting 2 2048 0x21#8).task 0
     (t.qsrc 4).size = 4 ∧ (t.qsink 4).size = 2 ∧ 2 ≤ (t.queue 4).ready (pwDepth t.partw) ∧ (t.queue 4).p = 2048) ∧
    (((converting 1 0 0x21#8).task 0).queue 4).ready (pwDepth placedPartw) < 2 ∧
    (let t := (converting 1 1024 0x12#8).task 0
     (t.qsrc 4).size = 2 ∧ (t.qsink 4).size = 4 ∧ 1 ≤ (t.queue 4).ready (pwDepth t.partw)) := by decide +kernel

/-- BF16 1.0 widens to FP32 1.0; the element stays at its head with P half way on (R27). -/
theorem test_widening_pop :
    let s := { converting 1 0 0x12#8 with mem := [(poolBase 0 + slotOff placedPartw 4 0, 0x80#8), (poolBase 0 + slotOff placedPartw 4 0 + 1, 0x3F#8)] }
    (match s.srcV 0 36#6 with
      | .ok (img, u) => (img.toNat % 2 ^ 64, ((u.task 0).queue 4).p, ((u.task 0).queue 4).occ)
      | .error _ => (0, 0, 0)) = (0x3F800000, 2048, 1) := by decide +kernel

/-- A task whose PARTW grants no deferral entries. -/
def noDefer : State := { on (fun t => { t with partw := 0#22 }) with side := .x }

theorem witness_Deferral_none :
    dqCap (noDefer.task 0).partw = 0 ∧ (noDefer.task 0).dqCount = 0#17 ∧ wellFormed (.defer 1#6 0#6 1#3) = true ∧
    (noDefer.task 0).granted 1#6 = true ∧ (∃ i, i < 1024 ∧ ((noDefer.task 0).mask 0).getLsbD i = true) := by
  refine ⟨by decide +kernel, by decide +kernel, by decide +kernel, by decide +kernel, 0, by decide, by decide +kernel⟩

/-- DEFER without entries sets STAT.DQFULL and appends nothing (R142). -/
theorem test_defer_none : ((after (exec (.defer 1#6 0#6 0#3) noDefer)).task 0).stat = 4#7 ∧ ((after (exec (.defer 1#6 0#6 0#3) noDefer)).task 0).dqCount = 0#17 ∧
    (after (exec (.defer 1#6 0#6 0#3) noDefer)).mem = [] := by decide +kernel

theorem witness_NamelessStores_pops :
    ((converting 1 0 0x12#8).task 0).popNeeds 4 = 1 ∧ ((converting 4 0 0x21#8).task 0).popNeeds 4 = 2 ∧
    ((converting 1 0 0x12#8).popMany 0 4 2).isOk = true ∧ ((converting 1 0 0x12#8).popMany 0 4 3).isOk = false ∧
    ((converting 4 0 0x21#8).popMany 0 4 2).isOk = true := by decide +kernel

/-- The lone member of .T, whose task runs or is saved, with the next instance of .T aborted or not. -/
def abortedAt (a : Bool) : State := { waiting with timers := [⟨waiting.groupKey 1 .t, 1#32, false, 5, a⟩] }
/-- The spanning group with member 2, of the peer, waiting at .X too: `met` once its conditions hold. -/
def spanningBoth (met : Bool) : State :=
  let m := spanning.member 2
  spanning.setMember 2 { m with joined := (Vector.replicate 5 0#32).set 4 1#32, arrived := if met then none else some .x }

theorem witness_Barriers_arrivals :
    (abortedAt true).instanceAborted ((abortedAt true).groupKey 1 .t) 1#32 false = true ∧
    (abortedAt false).instanceAborted ((abortedAt false).groupKey 1 .t) 1#32 false = false ∧
    (spanning.member 1).arrived = some .x ∧ (spanning.member 1).told = false ∧ spanning.conditionsHold 1 = true ∧ (base.member 1).arrived = none ∧
    (1#32 ≠ (spanning.member 2).joinedAt .x ∧ 0 ≤ ((1#32 : BitVec 32) - (spanning.member 2).joinedAt .x).toInt) ∧
    ((spanningBoth false).member 2).joinedAt .x = 1#32 ∧ ((spanningBoth false).member 2).arrived = some .x ∧
    ((0#32 : BitVec 32) - ((spanningBoth true).member 2).joinedAt .x).toInt < 0 ∧
    ((spanningBoth true).member 2).waitsAt .x 1#32 = false ∧ ((spanningBoth false).member 2).waitsAt .x 1#32 = true ∧
    ((arrivedAt false).member 1).waitsAt .t 1#32 = true ∧ (arrivedAt false).coreOf 1 = some 0 ∧ ((arrivedAt false).taskOf 1).isSome = true ∧
    (let s := (arrivedAt false).setCore 0 { (arrivedAt false).core 0 with mode := .save false }
     s.coreOf 1 = some 0 ∧ (s.core 0).mode ≠ .run) := by decide +kernel

/-- A record of launch group 4 stands in a ring, offered, or in a shadow slot. -/
theorem witness_Barriers_placed :
    (let s : State := { spanning with records := [{ waits 0 with group := some 4, img := [image none] }] }
     s.groupKnown 1 .x = true) ∧
    (let s : State := { spanning with records := [{ waits 0 with group := some 4 }] }
     s.groupKnown 1 .x = false ∧ s.groupKnown 1 .t = true) ∧
    (let s : State := { spanning with records := [{ waits 0 with group := some 4, img := [image none], place := .offered 1 }] }
     s.groupKnown 1 .p = false) := by decide +kernel

/-- The two packages: an arrival here is told to the peer, one of the peer completes the instance here (R147, R288). -/
theorem test_spanning :
    ((spanning.tell 1 .x true).outbox.length = 1) ∧ ((spanning.tell 1 .t true).outbox = []) ∧
    ((after (exec (.arrival 4 2 ⟨.x, 1#32, true⟩) spanning)).member 2).joinedAt .x = 1#32 ∧
    ((after (exec (.barrierCompletion 0) (spanningBoth true))).member 1).arrived = none ∧
    ((after (exec (.barrierCompletion 0) (spanningBoth false))).member 1).arrived = some .x := by decide +kernel

theorem witness_EndingWords_halts :
    (let s := pooling
     (s.core 0).chains = [{ chain0 with pooled := true }] ∧ ((chain0.run).bind (·.tx)) = none) ∧
    (∀ k ∈ (waiting.task 0).cq, k.read = true) ∧ (∃ k ∈ (collecting.task 0).cq, k.read = false) ∧
    (let s := waiting.modTask 0 (fun t => { t with mq := [⟨4, .mclr 0, 0#16⟩] })
     (s.task 0).mq ≠ [] ∧ ((s.haltMatrix 0).task 0).mq = []) := by
  refine ⟨by decide +kernel, by rw [show (waiting.task 0).cq = [] by decide +kernel]; simp, ⟨⟨4, .t, 1, hdl, 0#64, 2, none, false, none⟩, by decide +kernel, rfl⟩,
    by decide +kernel⟩

/-- Core 0 saving its task after a miss, one that only REDUCED made or not. -/
def savingMiss (only : Bool) : State := (base.setCore 0 { base.core 0 with mode := .save true, task := framed, missedReduced := only, keptLease := some .none }).setEntry 1 5 { ent with len := 2 ^ 31 }

theorem witness_StartsAndSaves_misses :
    FrameTakes (savingMiss true) 1 framed.record.ftok (framed.record.foff + 1 * 1 * imageSize) ∧ ((savingMiss true).core 0).mode = .save true ∧
    (savingMiss true).device.stage = .full ∧ ((savingMiss false).core 0).missedReduced = false ∧
    ((serving (waits 0)).records.find? (fun x => x.id == 7 && x.part == 1)) = some (waits 0) := by
  refine ⟨⟨by decide, by decide +kernel, by decide +kernel, by decide +kernel, by decide +kernel, by decide +kernel, by decide +kernel⟩,
    by decide +kernel, by decide +kernel, by decide +kernel, by decide +kernel⟩

/-- A team record of core 0's die, claimed or not, its partition in slice or not. -/
def waitingTeam (claim : List Nat) (slice : Bool) : State :=
  let r := { waits 1 with headSince := some 0#64, claim := claim }
  { ((offering r).modPartition 1 (fun p => { p with inSlice := slice })) with cyc := 400000#64 }

theorem witness_RecordsAgeClaimAndMove_offers :
    (let r := { waits 1 with headSince := some 0#64, claim := [0, 1] }
     let s := waitingTeam [0, 1] false
     Stands s 7 r ∧ 1 < r.record.tasks ∧ (s.partOf 1).migt.toNat ≤ s.headWait r ∧ (s.partOf 1).inSlice = false) ∧
    (let r := { waits 1 with headSince := some 0#64 }
     let s := waitingTeam [] true
     Stands s 7 r ∧ s.atHead r = true ∧ (s.partOf 1).migt.toNat ≤ s.headWait r ∧ (s.partOf 1).inSlice = true) ∧
    (⟨1, 2, 1, 0, 0⟩ : Advert) ∈ ((offering (waits 1)).die 1).adverts ∧
    (6, 2, [(⟨1, 2, 1, 0, 0⟩ : Advert)]) ∈ (offering (waits 1)).device.peerAdverts := by
  refine ⟨⟨by unfold Stands; decide +kernel, by decide, by decide +kernel, by decide +kernel⟩,
    ⟨by unfold Stands; decide +kernel, by decide +kernel, by decide +kernel, by decide +kernel⟩, by decide +kernel, by decide +kernel⟩

/-- At MIGT the claim of a record still unplaced is released, in slice and out of it (R118). -/
theorem test_claim_released :
    (after (exec (.migrationOffer 7) (waitingTeam [0, 1] false))).records.map (fun r => (r.claim, r.place)) = [([], .ring)] ∧
    (after (exec (.migrationOffer 7) (waitingTeam [0, 1] true))).records.map (fun r => (r.claim, r.place)) = [([], .offered 1)] := by decide +kernel

/-- An entry of a peer's record for a free index. -/
def peerEnt : PeerEntry := ⟨6, 3#12, 1, 0, 1, true, true, false, false, 0, 2, 65536, 0#64, [⟨65536, 0x20000000000, false, 0, none, false, false⟩], 0, none, false⟩

theorem witness_RecordsAgeClaimAndMove_entries :
    NMap.get base.contexts 1 = some ctx ∧ base.holdsEntry 1 peerEnt = false ∧ peerEnt.index < ctx.petSize ∧ (ctx.entry 6).state = .free ∧
    ctx.listRoom 1 ≠ none ∧ (base.installEntry 1 [] peerEnt).isSome = true ∧ base.installEntry 1 [] { peerEnt with index := 5 } = none ∧
    (spanning.member 2).pkg ≠ none ∧ (spanning.member 2).ended = false ∧
    (image none) ∈ ({ waits 0 with img := [image none] } : RingRec).img ∧ (image none).ended = false := by decide +kernel

/-- With dispatch stopped no die takes a peer's record. -/
theorem witness_RecordsAgeClaimAndMove_declined :
    let s : State := { offering (waits 1) with device := { base.device with dispatchStopped := true } }
    ∀ id : Nat, s.accepts 1 { awaitedRecord peerOff 6 id [] with img := offeredMembers peerOff } = none := by
  intro s id
  unfold State.accepts
  rw [show s.dispatches 1 = false by decide +kernel]
  rfl

/-- What a peer tells of a member that it runs: saved, then ended (R148, R296). -/
theorem test_peer_member :
    ((after (exec (.migration (.away 2 true)) spanning)).member 2).away = true ∧
    ((after (exec (.migration (.ended 2)) spanning)).member 2).ended = true := by decide +kernel

/-- The partition owns a page of the far tier. -/
def ownsFar : State := base.modPartition 1 (fun p => { p with own := ⟨[], [(0x20000000000, 65536)], [], [], [], []⟩ })

theorem witness_KernelDeath_far :
    ownsFar.atHome 0x20000000000 8 = true ∧ ownsFar.owns 1 0x20000000000 8 false = true ∧ ownsFar.owns 1 0x20000000000 8 true = false ∧
    (match place 0 0x20000000000 with | some (.far _ _) => true | _ => false) = true ∧ base.atPeer 0x20000000000 8 = false := by decide +kernel

/-- The far tier is read, never written, from another package (R6). -/
theorem test_far :
    (after (exec (.remoteAccess 1 (.write 0x20000000000 [7#8])) ownsFar)).mem = [] ∧
    (after (exec (.remoteAccess 1 (.read 0x20000000000 1)) ownsFar)).outbox = [.readData [0#8]] := by decide +kernel

/-- A saved record whose image owes what came while its frame was held, or owes nothing. -/
def oweing (b : Bool) : State :=
  { (saving framed) with cores := [], records := [{ waits 0 with record := framed.record, img := [{ image none with owes := b }] }] }

theorem witness_Drydown_states :
    ((base.setEntry 1 5 { ent with state := .quiescing }).entry 1 5).state = .quiescing ∧ ({ ent with state := .quiescing } : PetEntry).infl = 0 ∧
    ((base.setEntry 1 5 { ent with state := .freeing, infl := 1 }).entry 1 5).infl ≠ 0 ∧ (base.entry 1 6).state = .free ∧
    ((base.setEntry 1 5 { ent with state := .held }).refreshed 1 { ent with state := .held } [0]).isNone = true ∧
    (∀ r ∈ (serving (waits 0)).records, ∀ x ∈ r.img, x.owes = false) ∧
    (∃ r ∈ ((oweing false).payFrames 1 5).records, r.ctx = 1 ∧ handleIndex r.record.ftok = 5 ∧ r.img ≠ []) ∧
    (base.modPartition 1 (fun p => { p with dlb := 6#64, dlh := 64#32 }) |>.partOf 1).dirtyFull = true := by
  refine ⟨by decide +kernel, by decide, by decide +kernel, by decide +kernel, by decide +kernel, ?_, ?_, by decide +kernel⟩
  · rw [show (serving (waits 0)).records = [waits 0] by decide +kernel]
    simp [waits]
  · have e : (((oweing false).payFrames 1 5).records.map (fun r => (r.ctx, handleIndex r.record.ftok, r.img.length))) = [(1, 5, 1)] := by decide +kernel
    have : (1, 5, 1) ∈ ((oweing false).payFrames 1 5).records.map (fun r => (r.ctx, handleIndex r.record.ftok, r.img.length)) := by rw [e]; simp
    obtain ⟨r, hr, h⟩ := List.mem_map.mp this
    simp only [Prod.mk.injEq] at h
    exact ⟨r, hr, h.1, h.2.1, fun z => by simp [z] at h⟩

/-- A WAIT entry on flag 9 with no setter, and with one to claim. -/
def waitEntry : Nat := 6 + 9 * 2 ^ 8
/-- Two transactions' sides through one entry, one of them with no bytes inside. -/
theorem witness_ChainSteps_more :
    (let s := chained 0 { chain0 with run := some (copying none) }
     let a := s.openSide 1 (some (5, 0, 16))
     (a.1.entry 1 5).infl = 1 ∧ a.2 = some (5, 0, 16) ∧ s.openSide 1 (some (5, 0, 0)) = (s, none) ∧
     (match a.1.engineCheck 1 hdl 128 16 true with | .ok (some (5, 0, 16), 0#6) => true | _ => false) = true ∧
     ((a.1.openSide 1 (some (5, 0, 16))).1.entry 1 5).infl = 2) ∧
    stands waitEntry chain0 = true ∧ stands waitEntry { chain0 with wait := some (9#8, 1#32) } = true ∧ waitEntry % 16 = 6 ∧
    entryClean (BitVec.ofNat 256 waitEntry) = true ∧ (base.flagOf 1 9#8).claimed = (base.flagOf 1 9#8).pushed ∧
    ((0 : BitVec 32) - 1#32).toInt < 0 ∧
    (let s := on (fun t => t.setFlag 9#8 ⟨1#32, 0#32, 0#32⟩)
     (s.flagOf 1 9#8).claimed ≠ (s.flagOf 1 9#8).pushed) ∧
    (NMap.get ({ base with members := [(1, { base.member 1 with flags := [(9, ⟨1#32, 0#32, 0#32⟩)] })], cores := [] } : State).members 1).isSome = true ∧
    ({ base with cores := [] } : State).taskOf 1 = none := by decide +kernel

/-- A forward WAIT kills the kernel with 0x21, and the chain is there for the kernel's death to end (R218, R223). -/
theorem test_forward_wait :
    let s := after (exec (.chainWait 0) (chained waitEntry chain0))
    (s.core 0).mode = .stopped ∧ (s.core 0).chains.length = 1 ∧ (s.kernel key).map (fun k => k.dying.map (·.cause)) = some (some 0x21#8) := by
  decide +kernel

theorem witness_CollectiveSteps_rows :
    (let r : RowReads := ⟨[(0, 0, 0, 8), (1, 0, 8, 4), (2, 0, 256, 4)], [0, 0, 0], 0#6⟩
     base.rowOf 1 hdl 0 = base.rowOf 1 hdl 8 ∧ base.rowOf 1 hdl 0 ≠ base.rowOf 1 hdl 256 ∧
     (match r.step base 1 hdl with | .ok w => w.todo == [(2, 0, 256, 4)] | .error _ => false) = true ∧
     (base.engineRead 1 hdl 0 (base.rowPart 1 hdl 0 8)).isOk = true) ∧
    (let b : Contrib := ⟨1, 1, 1, 1, 0, 4, 1, 2, 0#512, []⟩
     base.discards 1 1 hdl 0 = false ∧ (base.payPart ⟨b, [(0, [7#8])], 0#3⟩).isOk = true) ∧
    (let s := (base.setMember 1 { base.member 1 with halted := some 0 }).setEntry 1 5 { ent with frames := [{ page with phys := poolBase 0 }] }
     s.discards 1 1 hdl 0 = true ∧ (s.setMember 1 { s.member 1 with halted := some 1 }).discards 1 1 hdl 0 = false) ∧
    (let b : Contrib := ⟨1, 1, 1, 1, 3, 4, 2, 2, 0#512, [7#8]⟩
     received 2 (CollDesc.ofBits 0#512) [b] b = ([], .none) ∨ (received 2 (CollDesc.ofBits 0#512) [{ b with rank := 0 }] { b with rank := 0 }).1 = [(0, [7#8])]) ∧
    (let s : State := { base with cores := [], members := [(1, { base.member 1 with ended := true, setters := [⟨9#8, [4]⟩] })],
                                  collectives := [⟨base.groupKey 1 .t, 1#32, [⟨1, 1, 1, 1, 0, 4, 1, 2, 0#512, []⟩], none, none⟩] }
     (s.flagTask 1).setters[0]? = some ⟨9#8, [4]⟩ ∧ (after (exec (.setterTakesEffect 1 0) s)).members = s.members) := by decide +kernel

/-- A stream of FP32 shared with member 2, the group started, each member at a position of its own; WIN 1. -/
def sharing (pos other : Nat) (kept : NMap Block) : State :=
  let d : BitVec 512 := BitVec.ofNat 512 (2 ^ 368 + 2 ^ 377 + 2 ^ 424)
  let x : ShareGroup := ⟨0, 1, hdl, d, [(0, 1), (1, 1)], true, 0#64, kept, none⟩
  let s := (on (fun t => t.setStream 1 ⟨true, hdl, d, pos, some 5⟩)).setCore 1 { Core.reset with mode := .run, task := task.setStream 1 ⟨true, hdl, d, other, some 5⟩ }
  { s with shares := [(5, x)] }

theorem witness_MatrixSteps_shares :
    (sharing 1024 0 []).shareRoom 0 1 1 = 0 ∧ (sharing 992 0 []).shareRoom 0 1 4 = 1 ∧ (sharing 1024 0 []).shareReady 0 1 = false ∧
    (sharing 0 0 []).shareReady 0 1 = true ∧
    (let b : Block := ⟨List.replicate 32 0, 0, 32⟩
     let s := sharing 0 0 [(0, b)]
     s.sharedBlock ((s.task 0).stream 1) 0 = some b ∧ (s.stepBlock 0 1 1).isOk = true ∧ (sharing 0 0 []).sharedBlock (((sharing 0 0 []).task 0).stream 1) 0 = none) ∧
    (let y : BlockReads := ⟨0, 1, ⟨[], [5], 0#6⟩⟩
     let x := StreamDesc.ofBits (BitVec.ofNat 512 (2 ^ 368))
     (y.block x 0).isSome = true ∧ (y.block x 1) = none ∧ x.fmt ≠ 9) ∧
    (let s := heading (.mst 0 3 false)
     let w : RowWrite := ⟨252, 8, 7, none, false⟩
     s.rowPart 1 hdl 252 8 < 8 ∧ (match s.putPart 0 3 w with | .ok (_, some r) => r.off == 256 && r.n == 4 | _ => false) = true ∧
     (match s.putRow 0 3 w [⟨0, 4, 1, none, false⟩] with | .ok u => (u.task 0).mwork.writes.length == 1 | .error _ => false) = true ∧
     s.rowOf 1 hdl 252 = s.rowOf 1 hdl 0) := by decide +kernel

/-- A LOAD packet of one word of text at host offset 0x3000, and a LAUNCH packet of the record. -/
def loadPacket : Nat := 1 + 0x3000 * 2 ^ 64 + 4 * 2 ^ 128 + placedPartw.toNat * 2 ^ 192 + 6 * 2 ^ 256
def launchPacket : Nat := 2 + rec1.w0.toNat * 2 ^ 64 + 1 * 2 ^ 320
/-- The request that it makes. -/
def loadAsked : LoadRequest := ⟨[0#32], 0, placedPartw.setWidth 64, 6, 1, 0x10000010000, 0x10000020000, 0x8000000000010000#64, true⟩

theorem witness_CommandQueues_operands :
    Named (queueOf loadPacket) 0 0x3000 ∧ Named (queueOf loadPacket) 1 4 ∧ Named (queueOf loadPacket) 3 6 ∧
    (queueing loadPacket).loadNamed 64 loadAsked = true ∧ (queueing loadPacket).loadStatus loadAsked = 0 ∧
    (queueing loadPacket).loadNamed 64 { loadAsked with recLog := 7 } = false ∧
    (queueing launchPacket).launchNamed 64 ⟨rec1, 1, 0#32, 1⟩ = true ∧ (queueing launchPacket).launchNamed 64 ⟨rec1, 2, 0#32, 1⟩ = false ∧
    (let s := queueing (3 + 0x00700003 * 2 ^ 64)
     let s : State := { s with graphs := [(3, graph0)] }
     BitVec.ofNat 32 (s.operand 64 0) = handleOf graph0.gen 3 ∧ s.graphIn 1 3 = true) ∧
    (queueing 4).operand 64 0 = 0 ∧ Named (queueOf 4) 0 0 ∧ Named (queueOf 4) 1 0 := by
  refine ⟨⟨BitVec.ofNat 512 loadPacket, 0, [], rfl, by decide +kernel⟩, ⟨BitVec.ofNat 512 loadPacket, 0, [], rfl, by decide +kernel⟩,
    ⟨BitVec.ofNat 512 loadPacket, 0, [], rfl, by decide +kernel⟩, by decide +kernel, by decide +kernel, by decide +kernel, by decide +kernel, by decide +kernel,
    by decide +kernel, by decide +kernel, ⟨BitVec.ofNat 512 4, 0, [], rfl, by decide +kernel⟩, ⟨BitVec.ofNat 512 4, 0, [], rfl, by decide +kernel⟩⟩

/-- A LAUNCH whose operands are not those of its packet has no effect; one that is its packet's answers that its frame is not usable (R301, R303). -/
theorem test_named :
    (NMap.get (after (exec (.launch 64 ⟨rec1, 2, 0#32, 1⟩) (queueing launchPacket))).queues 64).map (·.completions) = some [] ∧
    (NMap.get (after (exec (.launch 64 ⟨rec1, 1, 0#32, 1⟩) (queueing launchPacket))).queues 64).map (·.completions) = some [⟨0, 0x21, 0#64⟩] := by decide +kernel

/-- A graph whose node 1 follows node 0's edge and has to be enabled by the conditional node 2 besides. -/
def choosing (enabled : Bool) : Graph :=
  let g := Graph.ofDesc ⟨1, true, [⟨rec1, 1, 0#32, .task⟩, ⟨rec1, 1, 0#32, .task⟩, ⟨rec1, 1, 0#32, .cond hdl 0 1 1⟩], [⟨0, 1, 2⟩]⟩ 1 7#12 [0]
  { g with edges := [⟨0, 1, 2, 2, 1⟩], nodes := modifyAt g.nodes 1 (fun n => { n with enabled := enabled }) }

theorem witness_GraphRuns_enabling :
    (choosing false).awaitsEnabling 1 = true ∧ (choosing false).awaitsEnabling 0 = false ∧ (choosing false).isRoot 1 = false ∧
    (let s := { graphing with graphs := [(3, choosing true)] }
     RunDue s 3 1 (choosing true)) ∧
    (let s := { graphing with graphs := [(3, choosing false)] }
     ¬RunDue s 3 1 (choosing false)) ∧
    base.freeGraph 1 1 = some 1 ∧ (graphing.freeGraph 2 1) = some 1 ∧
    (let g : GraphDesc := ⟨1, true, [⟨rec1, 1, 0#32, .cond hdl 0 0 0⟩], []⟩
     base.registerStatus 1 g = 4) ∧
    (let s := queueing 6
     s.operand 64 0 = 0 ∧ s.graphAt 1 0 = ⟨1, false, [], []⟩) := by
  refine ⟨by decide +kernel, by decide +kernel, by decide +kernel, ⟨by decide +kernel, by decide +kernel, by decide +kernel, by decide +kernel,
    by decide +kernel, by decide +kernel, by decide +kernel, Or.inr ⟨by decide +kernel, by decide +kernel, by decide +kernel⟩⟩, ?_, by decide +kernel,
    by decide +kernel, by decide +kernel, by decide +kernel⟩
  show ¬RunDue { graphing with graphs := [(3, choosing false)] } 3 1 (choosing false)
  rintro ⟨-, -, -, -, -, -, -, h | h⟩
  · exact absurd h.1 (by decide +kernel)
  · exact absurd h.2.2 (by decide +kernel)

/-- A loop node with an empty body ends after its passes (R310). -/
theorem test_empty_loop :
    let g := Graph.ofDesc ⟨1, true, [⟨rec1, 1, 0#32, .loop 2 []⟩], []⟩ 1 7#12 [0]
    let s : State := { graphing with graphs := [(3, { g with wakes := 1 })] }
    let s := after (exec (.runStart 3 0) s)
    let s := after (exec (.loopNodePass 3 0) s)
    let s := after (exec (.runEnd 3 0) s)
    (NMap.get s.graphs 3).map (fun g => (g.node 0).busy) = some false := by decide +kernel

theorem witness_VirtualDevices_restore :
    (let s := { tenant .paused with images := [(tenant .paused).migrationImage 1] }
     s.serves = true ∧ (s.partOf 1).vstate = .paused) ∧
    (let s : State := { tenant .paused with images := [(tenant .paused).migrationImage 1], partitions := [] }
     let x := (tenant .paused).migrationImage 1
     NMap.get s.partitions 1 = none ∧ s.numberTaken x = false ∧ (s.restoreImage x).staged ≤ 2 ^ 20 ∧ (s.restoreImage x).ringsFit 1 = true ∧
     ({ s with contexts := [(1, { ctx with part := 2 })] } : State).numberTaken x = true) ∧
    (let s : State := { base with images := [base.migrationImage 1] }
     (s.partOf 1).vstate ≠ .paused ∧ NMap.get s.partitions 1 ≠ none) ∧
    ({ base with device := { base.device with stage := .verify } } : State).serves = false ∧
    (({ base with device := { base.device with stage := .reduced } } : State).device.stage = .reduced ∧ kern.staged = none) ∧
    ((mapping leaf 16 64).mem.read (0x010000000000 + 8 * 0)).getLsbD 0 = true ∧ ((mapping leaf 16 64).mem.read (0x010000000000 + 8 * 0)).getLsbD 1 = false ∧
    (∀ k ∈ base.kernels, k.2.staged = none) := by
  refine ⟨by decide +kernel, by decide +kernel, by decide +kernel, by decide +kernel, by decide +kernel, by decide +kernel, by decide +kernel, ?_⟩
  rw [show base.kernels = [(key, kern)] from rfl]
  simp [kern, placedKernel]

/-- A changed ownership stays over a restore; an image is turned away in VERIFY (R313, R324). -/
theorem test_restore :
    (let s := { tenant .paused with images := [(tenant .paused).migrationImage 1] }
     let t := after (exec (.ownershipChange 1 ⟨[5], [], [], [], [], []⟩) s)
     ((after (exec (.migrationImageRestore 0) t)).partOf 1).own.quads = [5]) ∧
    (let s : State := { tenant .paused with images := [(tenant .paused).migrationImage 1], device := { base.device with stage := .verify }, partitions := [] }
     (after (exec (.migrationImageRestore 0) s)).partitions = []) := by decide +kernel

theorem witness_PartitionsAndParameters_points :
    pointHere (.dieToDie 8) = true ∧ pointHere (.ethernet 31) = true ∧ pointHere (.ethernet 32) = false ∧ pointHere (.mesh 8) = false ∧
    ownershipOk ⟨[], [], [], [(3, true), (3, false)], [], []⟩ = false ∧ ownershipOk ⟨[], [], [], [(3, true), (4, false)], [], []⟩ = true ∧
    checkIndex (.ethernet 31) = 95 ∧ (∀ d, d < 32 → checkIndex (.ethernet d) ≠ 96) := by decide +kernel

/-- A check point that the package has not counts nothing (R1, R330). -/
theorem test_points :
    ((after (exec (.uncorrectableError (.corrected (.ethernet 32))) base)).device = base.device) ∧
    ((after (exec (.parameterRegisterWrite (.counter 95) 5#64) base)).counter 95).cor = 5#32 ∧
    ((after (exec (.parameterRegisterWrite (.counter 4000) 5#64) base)).counter 4000).cor = 0#32 := by decide +kernel

theorem witness_PowerAndClock_hub :
    (8 : Nat) < 9 ∧ (List.replicate 9 95).length = 9 ∧ (∀ x ∈ List.replicate 9 95, x + 5 ≤ base.device.trip) ∧
    (∃ x ∈ List.replicate 8 95 ++ [96], base.device.trip < x + 5) := by decide +kernel

/-- The hub die's sensor holds dispatch back as the others do (R328). -/
theorem test_hub :
    let s : State := { base with device := { base.device with locked := true } }
    let t := after (exec (.thermalTrip 8 100) s)
    t.device.hubTemp = 100 ∧ t.device.dispatchStopped = true ∧
    (after (exec (.thermalRecovery (List.replicate 8 60 ++ [96])) t)).device.dispatchStopped = true ∧
    (after (exec (.thermalRecovery (List.replicate 9 60)) t)).device.dispatchStopped = false := by decide +kernel

/-- A checkpoint due, over a partition whose record is saved in a frame. -/
def phased (s : State) : State := s.modPartition 1 (fun p => { p with phasedAt := some s.cyc })

theorem witness_IntegrityAndRecovery_checkpoints :
    (match (phased (serving (waits 0))).heldRecords 1 with | .ok l => l == [waits 0] | .error _ => false) = true ∧
    (match ((oweing false).setEntry 1 5 { ent with state := .held }).sentImages { waits 0 with record := framed.record, img := [image none] } with
      | .error (.held 1 5) => true
      | _ => false) = true ∧
    (let k := (phased (serving (waits 0))).checkpointOf 1 [] [waits 0]
     k.size = 0 ∧ k.tasks = [] ∧ k.ranges = []) ∧
    (let s : State := { phased (serving (waits 0)) with device := { base.device with failed := [4] } }
     let s : State := { s with checkpoints := [s.checkpointOf 1 [] [waits 0]] }
     (s.checkpoints.find? (fun x => x.part == 1)).isSome = true ∧ 4 ∈ s.device.failed ∧ s.serves = true) ∧
    (kern.hostRing <+: kern.hostRing) ∧ ¬([rec1] <+: kern.hostRing) := by decide +kernel

/-- A record offered to die 2 of package 6, of a launch group or of none. -/
def offered6 (g : Option Nat) : RingRec := { waits 1 with place := .offered 10, offer := some 12, group := g }
/-- The state with it, and with the launch group. -/
def offeredAt (r : RingRec) : State := { offering r with groups := [(4, ⟨1, key, 2, 1, 1⟩)] }

theorem witness_RecordsAgeClaimAndMove_numbers :
    Numbered (offeredAt (offered6 none)) 12 (offered6 none) ∧ Numbered (offeredAt (offered6 none)) 7 (offered6 none) ∧
    (offered6 none).offer = some 12 ∧ (offered6 none).offer ≠ some 7 ∧
    (let r := { waits 1 with place := .offered 1 }
     Numbered (offeredAt r) 7 r ∧ ((offeredAt r).accepts ((r.die + 1) % 8) r).isSome = true ∧
     ({ offeredAt r with device := { base.device with dispatchStopped := true } } : State).accepts ((r.die + 1) % 8) r = none) ∧
    (let r := { waits 1 with place := .moving 1 true }
     Numbered (offeredAt r) 7 r) ∧
    (let r := { waits 1 with place := .moving 10 true, offer := some 12, group := some 4 }
     Numbered (offeredAt r) 7 r ∧ r.img = [] ∧ 1 < ((offeredAt r).partOf r.part).packages.length) ∧
    (offered6 (some 4)).group = some 4 ∧ (NMap.get (offeredAt (offered6 none)).groups 4).isSome = true ∧
    (let s := { offering (waits 0) with kernels := [(key, { kern with deaths := 1 })] }
     ∃ k, s.kernel (kernelKey 1 peerOff.record.kid) = some k ∧ k.deaths ≠ peerOff.deaths) ∧
    (tenant .paused |>.partOf 1).vstate ≠ .running ∧
    ([peerEnt].foldlM (fun u x => State.installEntry u 1 [] x) base).isSome = true ∧
    ([{ peerEnt with index := 5 }].foldlM (fun u x => State.installEntry u 1 [] x) base) = none := by
  refine ⟨by unfold Numbered; decide +kernel, by unfold Numbered; decide +kernel, by decide, by decide,
    ⟨by unfold Numbered; decide +kernel, by decide +kernel, by decide +kernel⟩, by unfold Numbered; decide +kernel,
    ⟨by unfold Numbered; decide +kernel, by decide, by decide +kernel⟩, by decide, by decide +kernel,
    ⟨_, rfl, by decide⟩, by decide +kernel, by decide +kernel, by decide +kernel⟩

/-- A decline of offer 12 lets the record wait; its peers hear of a migration that begins and ends (R292, R296). -/
theorem test_offer_over :
    (after (exec (.migrationOffer 12) (offeredAt (offered6 none)))).records.map (fun r => (r.place, r.offer)) = [(.ring, none)] ∧
    ((offeredAt (offered6 none)).closeSlice 1).outbox = [.migrationWithdraw 1 6 12] ∧
    (after (exec (.migration (.migrating 4 true true)) (offeredAt (offered6 none)))).groups = [(4, ⟨1, key, 2, 1, 2⟩)] := by decide +kernel

/-- A peer's task that starts is a member of its group, which is whole once no record of it is unplaced (R147). -/
theorem test_started :
    let s := after (exec (.migration (.started 4 6 [(1, 3)])) (offeredAt (offered6 none)))
    (NMap.get s.groups 4).map (·.open_) = some 0 ∧ (s.members.map (fun x => (x.2.group, x.2.pkg))).contains (some 4, some 6) = true := by decide +kernel

/-- Core 0 with an atomic in flight whose kernel dies. -/
def dyingAtom : State := on (fun t => { t with atomics := [{ atom with op := .add }] })

theorem witness_KernelDeath_completes :
    (dyingAtom.task 0).atomics = [{ atom with op := .add }] ∧ (dyingAtom.task 0).vatom = none ∧ (dyingAtom.task 0).push = none ∧
    (dyingAtom.task 0).seqA.flushing = none ∧ (dyingAtom.task 0).seqX.flushing = none ∧
    base.kernel key = some kern ∧ NMap.get (offeredAt (offered6 none)).groups 4 = some ⟨1, key, 2, 1, 1⟩ ∧
    (let s := base.modPartition 1 (fun p => { p with own := ⟨[], [], [], [], [], [9]⟩ })
     (s.partOf 1).own.wakeRegs ≠ [] ∧ Config.wakeBase + 65536 * 1 ≤ Config.wakeBase + 65536 + 72 ∧
       Config.wakeBase + 65536 + 72 + 8 ≤ Config.wakeBase + 65536 * (1 + 1)) ∧
    (0 : Nat) < 8 ∧ base.atHome 0x20000000000 8 = true ∧ base.owns 1 0x20000000000 8 false = false := by decide +kernel

/-- A peer's load of this package's wake window finds the graph's pending wakes (R306). -/
theorem test_peer_window :
    let s := base.modPartition 1 (fun p => { p with own := ⟨[], [], [], [], [], [9]⟩ })
    let s := { s with graphs := [(3, { graph0 with wakes := 2 })], wakeRegs := [(9, 3)] }
    (after (exec (.remoteAccess 1 (.read (Config.wakeBase + 65536 + 72) 2)) s)).outbox = [.readData [2#8, 0#8]] := by decide +kernel

/-- The partition owns a page of the near tier, for a ring of 64 pages and for none of 2^20. -/
def nearRing : State := base.modPartition 1 (fun p => { p with own := ⟨[], [(nearLocal 0, 65536)], [], [], [], []⟩ })

theorem witness_Drydown_near :
    nearRing.frameOk 1 1 (nearLocal 0) (8 * 2 ^ 6) = true ∧ nearRing.frameOk 1 1 (nearLocal 0) (8 * 2 ^ 20) = false ∧
    nearRing.frameOk 1 1 0x20000000000 (8 * 2 ^ 6) = false := by decide +kernel

/-- Core 0 stopped by a trap, a flag of its task counted. -/
def trapped : State :=
  let t := { task with flags := NMap.set task.flags 9 ⟨1#32, 0#32, 0#32⟩ }
  base.setCore 0 { base.core 0 with mode := .stopped, task := t }

theorem witness_ChainSteps_first :
    First (chained 0 chain0) 0 chain0 ∧ trapped.taskOf 1 = none ∧
    (trapped.cores.find? (fun x => x.2.mode == .stopped && x.2.task.uid == 1)).isSome = true ∧
    (let h : Chain := { chain0 with head := 8160#64 }
     NMap.get h.kept 1 = none ∧ (match (chained 0 h).engineCheck h.ctx h.k0 ((h.head.toNat + 32 * 1 : Nat) : Int) 32 false with
       | .ok (some (_, _, m), _) => m != 32
       | .ok (none, _) => true
       | .error _ => false) = true) ∧
    (let s := (chained 0 chain0).modPartition 1 (fun p => { p with vstate := .paused })
     ¬First s 0 chain0) := by
  refine ⟨by unfold First; decide +kernel, by decide +kernel, by decide +kernel, by decide +kernel, ?_⟩
  unfold First
  decide +kernel

/-- COND of a trapped task reads the flags that it has left (R217). -/
theorem test_trapped_flag : (trapped.flagOf 1 9#8) = ⟨1#32, 0#32, 0#32⟩ := by decide +kernel

/-- The group of `spanning`, its timer at COLT. -/
def spanningLate (coll : Bool) : State :=
  { spanning with groups := [(4, ⟨1, key, 2, 0, 0⟩)], timers := [⟨spanning.groupKey 1 .x, 1#32, coll, 500000000, false⟩] }

theorem witness_Barriers_aborts :
    (let s := spanningLate false
     let k := s.groupKey 1 .x
     k.scope = .x ∧ k.id = 4 ∧ (s.members.filter (fun x => s.groupKey x.1 .x == k)).map (·.1) = [1, 2] ∧
     (s.partOf 1).colt.toNat ≤ 500000000 ∧ 1 < (s.partOf 1).packages.length ∧
     (∃ t, s.timerOf k 1#32 false = some t ∧ t.aborted = false) ∧ NMap.get s.groups 4 = some ⟨1, key, 2, 0, 0⟩) ∧
    (∀ t ∈ base.timers, t.aborted = true ∨ t.key.scope ≠ .p ∨ t.key.id ≠ 1) ∧
    (let s := { spanningLate false with timers := [] }
     s.timerOf (s.groupKey 1 .x) 1#32 false = none ∧ (s.member 2).hasArrived .x 1#32 = false) := by
  refine ⟨⟨by decide +kernel, by decide +kernel, by decide +kernel, by decide +kernel, by decide +kernel, ⟨_, rfl, rfl⟩, by decide +kernel⟩,
    by simp [base, State.reset], by decide +kernel⟩

/-- An abort at COLT is told to the peers; a peer's abort completes the word of the member that waits, PB as it was (R148, R296). -/
theorem test_abort :
    (after (exec (.collectiveTimerAbort 4 .x (.own 1)) (spanningLate false))).outbox = [.aborted 1 4 .x 1 1 false] ∧
    (let s := after (exec (.collectiveTimerAbort 4 .x (.peer 0 1 false)) { spanningLate false with timers := [] })
     (s.seq 0 .a).waiting = false ∧ (s.timers.map (·.aborted)) = [true] ∧ (s.task 0).pb = (spanning.task 0).pb) := by decide +kernel

/-- The task with an element left in queue 2. -/
def leaving : State := waiting.modTask 0 (oneIn 2)

theorem witness_EndingWords_left :
    (∃ (n : Nat) (q : QState), (leaving.task 0).q[n]? = some q ∧ q.occ ≠ 0) ∧ (∀ q ∈ (waiting.task 0).q.toList, q.occ = 0) ∧
    leaving.kernel (leaving.task 0).kid = some kern ∧ kern.area.length < 2 ^ kern.recLog := by
  refine ⟨⟨2, (leaving.task 0).queue 2, ?_, by decide +kernel⟩, by decide +kernel, by decide +kernel, by decide +kernel⟩
  decide +kernel

/-- An element left sets STAT.QDROP (R31). -/
theorem test_left : ((leaving.endTask 0).task 0).stat = 2#7 := by decide +kernel

theorem witness_StartsAndSaves_deaths :
    (let s := dying false []
     (s.kernel (s.task 0).kid).map (·.dying.isSome) = some true) ∧
    (∀ k, base.kernel (base.task 0).kid = some k → k.dying = none) ∧
    (let r := { waits 0 with group := some 4 }
     let s := offeredAt r
     s.kernel r.key = some kern ∧
       1 < (((s.startTask r kern s.fresh 0 0).leaveCores r.id).partOf r.part).packages.length) ∧
    (let s := base.setCore 0 { base.core 0 with chains := [{ chain0 with ending := true }] }
     (s.chainsOn 0 1).length = 1 ∧ (s.endPoolWork 0 1).2 = true) ∧
    (pooling.chainsOn 0 1) = [{ chain0 with pooled := true }] := by
  refine ⟨by decide +kernel, ?_, by decide +kernel, by decide +kernel, by decide +kernel⟩
  intro k h
  have : base.kernel (base.task 0).kid = some kern := by decide +kernel
  rw [this] at h
  cases h
  rfl

/-- A kernel's death abandons the save: no image, no record (R270). -/
theorem test_save_abandoned :
    let s := (dying false []).setCore 0 { (dying false []).core 0 with mode := .save false }
    (after (exec (.saveComplete 0) s)).records = [] ∧ ((after (exec (.saveComplete 0) s)).core 0).mode = .save false := by decide +kernel

theorem witness_LeaseInstructions_waiting :
    (let s := (heading (.mmul false 0 1 5 1#64)).modTask 0 (fun t => { t with lease := .waiting })
     AtHead s 0 (.mmul false 0 1 5 1#64) 0#16 ∧ (s.task 0).lease ≠ .holding) ∧
    (heading (.mmul false 0 1 5 1#64) |>.task 0).lease = .holding := by
  exact ⟨⟨⟨.inl (by decide +kernel), 4, [], by decide +kernel⟩, by decide +kernel⟩, by decide +kernel⟩

/-- Host memory that a partition owns is mapped by a leaf of tier 3 (R156). -/
theorem witness_Translation_host :
    (let s := base.modPartition 1 (fun p => { p with own := ⟨[], [(Config.hostBase, 2 ^ 20)], [], [], [], []⟩ })
     (match place s.nstr Config.hostBase with | some (.host _) => true | _ => false) = true ∧
     (match place s.nstr (Config.hostBase + 65535) with | some (.host _) => true | _ => false) = true ∧
     s.frameOk 1 3 Config.hostBase 65536 = true ∧ base.frameOk 1 3 Config.hostBase 65536 = false) ∧
    windowAt 1 (2 ^ 47) = Config.hostBase ∧ windowAt 1 0 = Config.wakeBase + 65536 := by decide +kernel

/-- Another sequencer holds an access at the entry. -/
def heldAt : State := base.setCore 1 { Core.reset with mode := .run, task := { task with uid := 2, seqA := { task.seqA with held := some (1, 5) } } }

theorem witness_TokenInstructions_held :
    heldAt.accessHeld 1 5 = true ∧ base.accessHeld 1 5 = false ∧ (heldAt.entry 1 5).state = .active ∧ WakesDue heldAt := by
  refine ⟨by decide +kernel, by decide +kernel, by decide +kernel, ?_⟩
  unfold WakesDue
  rw [show (heldAt.task heldAt.cur).stores = [] by decide +kernel]
  simp

/-- A free is recorded while another sequencer's access waits to resume (R164, R165). -/
theorem test_relq_held : ((after (exec (.relq 2#4) heldAt)).entry 1 5).freeLater = true ∧
    ((after (exec (.relq 2#4) heldAt)).entry 1 5).gen = 7#12 ∧ ((after (exec (.relq 2#4) base)).entry 1 5).gen = 8#12 := by decide +kernel

/-- An open collective of the task, its timer at COLT. -/
def lateColl : State := { collecting with
  timers := [⟨collecting.groupKey 1 .t, 1#32, true, 500000000, false⟩]
  collectives := [⟨collecting.groupKey 1 .t, 1#32, [⟨1, key, 1, 1, 0, 4, 1, 2, 0#512, []⟩], none, none⟩] }

theorem witness_CollectiveSteps_aborts :
    (let k := lateColl.groupKey 1 .t
     k.scope = .t ∧ k.id = 1 ∧ (lateColl.members.filter (fun x => lateColl.groupKey x.1 .t == k)).map (·.1) = [1] ∧
     (lateColl.partOf 1).colt.toNat ≤ 500000000 ∧ (lateColl.partOf 1).packages.length ≤ 1) ∧
    (let s := on (fun t => { t with cq := [⟨4, .t, 3, hdl, 0#64, 2, none, false, none⟩] })
     s.groupKnown 1 .t = true ∧ (s.task 0).cq.find? (fun k => !k.read) = some ⟨4, .t, 3, hdl, 0#64, 2, none, false, none⟩) ∧
    (let r := { waits 1 with group := some 4 }
     let s := { spanning with records := [r] }
     s.groupKnown 1 .x = false) ∧
    (let b : Contrib := ⟨1, 1, 1, 1, 0, 4, 1, 2, 0#512, []⟩
     let s := { tenant .paused with collectives := [⟨base.groupKey 1 .t, 1#32, [b], some [⟨b, [], 0#3⟩], none⟩] }
     (s.partOf 1).vstate = .paused ∧ (s.collectives[0]?).isSome = true) ∧
    (∀ code : Nat, code = 0x0102 → code < 2 ^ 16) := by
  refine ⟨by decide +kernel, by decide +kernel, by decide +kernel, by decide +kernel, by omega⟩

/-- The abort of a collective completes its register with code 0x0102 and posts event 0x52 (R232, R296). -/
theorem test_coll_abort :
    let s := after (exec (.collectiveTimerAbort 1 .t (.own 1)) lateColl)
    (s.task 0).cq = [] ∧ (s.task 0).areg 2 = 0x8000000201020000#64 ∧ s.collectives = [] ∧
    (s.kernel key).map (fun k => k.area.map (fun r => (r.words.w0.toNat / 2 ^ 8 % 256))) = some [0x52] := by decide +kernel

theorem witness_GraphRuns_ends :
    (let g := { graph0 with wakes := 0 }
     ∀ u, u < g.nodes.length → (g.node u).run = none ∧ (g.node u).busy = false ∧ ¬((g.isRoot u = true ∧ (g.node u).taken < g.wakes) ∨
       (g.isRoot u = false ∧ (∀ e ∈ g.edges, e.dst = u → 1 ≤ e.items) ∧ ((g.node u).enabled = true ∨ g.awaitsEnabling u = false)))) ∧
    ((graph0.node 0).taken < ({ graph0 with wakes := 1 } : Graph).wakes ∧ graph0.isRoot 0 = true) := by
  refine ⟨?_, by decide +kernel⟩
  intro g u h
  have : u < 2 := h
  obtain rfl | rfl : u = 0 ∨ u = 1 := by omega
  · refine ⟨by decide +kernel, by decide +kernel, ?_⟩
    rintro (h | h)
    · exact absurd h.2 (by decide +kernel)
    · exact absurd h.1 (by decide +kernel)
  · refine ⟨by decide +kernel, by decide +kernel, ?_⟩
    rintro (h | h)
    · exact absurd h.1 (by decide +kernel)
    · exact absurd h.2.1 (by decide +kernel)

/-- UNREGISTER waits for the run that an accepted wake will start (R308). -/
theorem test_unregister_waits :
    let p := 7 + (handleOf 7#12 3).toNat * 2 ^ 64
    let s (w : Nat) := { queueing p with graphs := [(3, { graph0 with wakes := w })] }
    (NMap.get (after (exec (.unregister 64 (handleOf 7#12 3)) (s 1))).graphs 3).map (·.registered) = some true ∧
    (NMap.get (after (exec (.unregister 64 (handleOf 7#12 3)) (s 0))).graphs 3).map (·.registered) = some false := by decide +kernel

theorem witness_VirtualDevices_moves :
    (∀ x ∈ (offeredAt (offered6 none)).cores, x.2.shadow = none) ∧ (offeredAt (offered6 none)).records = [offered6 none] ∧
    (let s := { tenant .descheduled with records := [{ waits 1 with place := .moving 10 true }] }
     ∃ r ∈ s.records, r.part = 1 ∧ ((∃ k b, r.place = .moving k b) ∨ ∃ k n, r.place = .awaited k n)) ∧
    (tenant .descheduled).records = [] ∧
    (let s := base.setCore 0 { base.core 0 with chains := [chain0] }
     ((s.migrationImage 1).chains.map (fun x => (x.1, x.2.map (·.id)))) = [(0, [3])]) := by
  refine ⟨by decide +kernel, by decide +kernel, ⟨_, List.mem_cons_self, rfl, .inl ⟨10, true, rfl⟩⟩, by decide +kernel, by decide +kernel⟩

/-- A parameter written while the device is PAUSED stands after the restore (R316, R318). -/
theorem test_paused_write :
    let s := { tenant .paused with images := [(tenant .paused).migrationImage 1] }
    let s := after (exec (.parameterRegisterWrite (.pwgt 1) 5#64) s)
    ((after (exec (.migrationImageRestore 0) s)).partOf 1).pwgt = 5#5 ∧ ((after (exec (.migrationImageRestore 0) s)).partOf 1).vstate = .descheduled := by
  decide +kernel

theorem witness_IntegrityAndRecovery_moves :
    (let s := phased { serving { waits 1 with place := .moving 10 true } with cores := [] }
     ∃ r ∈ s.records, r.part = 1 ∧ ((∃ k, 8 ≤ k ∧ r.place = .moving k true) ∨ ∃ k n, r.place = .awaited k n)) ∧
    (let s := phased (serving { waits 1 with place := .moving 10 false })
     match s.heldRecords 1 with | .ok l => l.map (·.place) == [.offered 10] | .error _ => false) = true ∧
    (let s := { offering (waits 1) with device := { base.device with failed := [6] } }
     ∀ k : Checkpoint, k.records = [] → k.part = 1 → ((s.recoverTables k 6).ring 1 0 0).length ≤ 1024) ∧
    (offered6 none).part = 1 ∧ (offered6 none).place = .offered 10 ∧ base.device.failed.contains 6 = false := by
  refine ⟨⟨_, List.mem_cons_self, rfl, .inl ⟨10, by decide, rfl⟩⟩, by decide +kernel, ?_, by decide, by decide, by decide +kernel⟩
  intro s k hr hp
  have e : (s.recoverTables k 6).records = [] := by
    unfold State.recoverTables State.modPartition
    simp only [hr, hp]
    split <;> exact (by decide +kernel : s.records.filter (fun r => r.part != 1) = [])
  simp [State.ring, e]

/-- A package's failure is told to the others that share a partition with it (R298). -/
theorem test_failure_told :
    ((offering (waits 1)).packageFails 6).outbox = [] ∧
    (((offering (waits 1)).modPartition 1 (fun p => { p with packages := [0, 6, 9] })).packageFails 6).outbox = [.packageFailed 9 6] := by decide +kernel

/-- A stack beyond the sixteen is none: training ends at FULL (R1, R324). -/
theorem test_training :
    let s : State := { base with device := { base.device with stage := .reduced } }
    (after (exec (.trainingComplete [16]) s)).device.stage = .full ∧ (after (exec (.trainingComplete [15]) s)).device.stage = .reduced := by decide +kernel

end Sys2Proof.Tests
end

section
/-! SUPPORT. What completing a word leaves of its sequencer (R15, R17, R30), the scalar operand 0 (R21), and the words of NOP and B
(R73, R76). -/
namespace Sys2Proof.Machine

/-! The sequencer of a completed word. -/

/-- Processing loop ends moves the counter and the loop state alone. -/
theorem Seq.runEnds_eq (q : Seq) (lo hi fuel : Nat) :
    ∃ pc lc order, q.runEnds lo hi fuel = { q with pc := pc, lc := lc, order := order } := by
  induction fuel generalizing q with
  | zero => exact ⟨_, q.lc, q.order, rfl⟩
  | succ fuel ih =>
    unfold Seq.runEnds
    split
    next => exact ⟨_, q.lc, q.order, rfl⟩
    next n _ =>
      dsimp only
      split
      next =>
        obtain ⟨pc, lc, order, h⟩ := ih (q.dropLoops [n])
        exact ⟨pc, lc, order, h⟩
      next => exact ⟨_, _, _, rfl⟩

/-- Falling through moves the counter and the loop state of one sequencer alone. -/
theorem State.fallFrom_eq (s : State) (c : Nat) (d : Side) (w : Nat) :
    ∃ pc lc order, s.fallFrom c d w = s.setSeq c d { s.seq c d with pc := pc, lc := lc, order := order } := by
  unfold State.fallFrom
  split
  next k _ =>
    obtain ⟨pc, lc, order, h⟩ := (s.seq c d).runEnds_eq w (s.ownFrom k d (w + 1)) 4
    exact ⟨pc, lc, order, by rw [h]⟩
  next => exact ⟨_, _, _, rfl⟩

/-- A retired word leaves its sequencer as its completion made it, but for the counter and the loop state. -/
theorem State.seq_retire (s : State) (c : Nat) (d : Side) (m : Bool) :
    ∃ pc lc order, (s.retire c d m).seq c d = { (s.completed c d m).seq c d with pc := pc, lc := lc, order := order } := by
  obtain ⟨pc, lc, order, h⟩ := (s.completed c d m).fallFrom_eq c d (s.seq c d).pc.toNat
  exact ⟨pc, lc, order, by rw [State.retire, h, State.seq_setSeq]⟩

theorem State.retire_eq_setSeq (s : State) (c : Nat) (d : Side) (m : Bool) :
    s.retire c d m = s.setSeq c d ((s.retire c d m).seq c d) := by
  obtain ⟨q, h⟩ := s.retire_eq c d m
  rw [h, State.seq_setSeq]

@[simp] theorem State.pc_retireTo (s : State) (c : Nat) (d : Side) (n : Nat) (m : Bool) :
    ((s.retireTo c d n m).seq c d).pc = BitVec.ofNat 32 n := by simp [State.retireTo]

@[simp] theorem State.seq_setSeq_otherSide (s : State) (c : Nat) (d : Side) (q : Seq) :
    (s.setSeq c d q).seq c d.other = s.seq c d.other := by
  cases d <;> simp [State.seq, Side.other]

@[simp] theorem State.seq_retireTo_otherSide (s : State) (c : Nat) (d : Side) (n : Nat) (m : Bool) :
    (s.retireTo c d n m).seq c d.other = s.seq c d.other := by
  obtain ⟨q, h⟩ := s.retireTo_eq c d n m
  rw [h, State.seq_setSeq_otherSide]

/-! Register 0 as a scalar operand (R21, R65). A discarded write still lists its core, with the task it already has; the word's
completion then lists the same core, so nothing is left of it. -/

@[simp] theorem State.readOp_zero (s : State) (c : Nat) (d : Side) : s.readOp c d 0#6 = .ok (0#64, s) := by
  cases d <;> rfl

@[simp] theorem State.writeOp_zero (s : State) (c : Nat) (d : Side) (x : Word64) :
    s.writeOp c d 0#6 x = .ok (s.setTask c (s.task c)) := by
  cases d <;> rfl

theorem State.completed_setTask_self (s : State) (c : Nat) (d : Side) (m : Bool) :
    (s.setTask c (s.task c)).completed c d m = s.completed c d m := by
  simp [State.completed, State.setSeq, State.seq, State.setTask_setTask]

@[simp] theorem State.retire_setTask_self (s : State) (c : Nat) (d : Side) (m : Bool) :
    (s.setTask c (s.task c)).retire c d m = s.retire c d m := by
  simp [State.retire, State.completed_setTask_self, State.seq]

/-! The two instructions. -/

@[simp] theorem ofNat_branchTarget {n : Nat} (pc : BitVec 32) (off : BitVec n) :
    BitVec.ofNat 32 (branchTarget pc off) = pc + off.signExtend 32 := by
  rw [branchTarget, BitVec.ofNat_toNat, BitVec.setWidth_eq]

theorem wellFormed_add_zero (d : Side) : wellFormed (.add d 0#6 0#6 0#6) = true := by cases d <;> rfl

/-- NOP and NOP.X complete and do nothing else (R73). -/
theorem exec_add_zero (s : State) (d : Side) : exec (.add d 0#6 0#6 0#6) s = .next (s.retire s.cur d) := by
  show execAdd d 0#6 0#6 0#6 s = _
  simp [execAdd, scalarRR, legal_ok (wellFormed_add_zero d)]

/-- B completes as a mark and transfers (R76). -/
theorem exec_b (s : State) (off : BitVec 24) :
    exec (.b off) s = .next (s.retireTo s.cur s.side (branchTarget (s.seq s.cur s.side).pc off) true) := by
  show execB off s = _
  simp [execB, legal_ok (i := .b off) rfl]

theorem cat_or_cat {m n : Nat} (a a' : BitVec m) (b b' : BitVec n) : cat a b ||| cat a' b' = cat (a ||| a') (b ||| b') :=
  BitVec.or_append

/-- The word of B, cut into its tag, opcode and offset (R35, R46). -/
theorem wordB_eq_cat (off : BitVec 24) : 0x80000000#32 ||| off.setWidth 32 = cat 1#1 (cat 0#1 (cat 0#6 off)) := by
  have hoff : off.setWidth 32 = cat 0#1 (cat 0#1 (cat 0#6 off)) := by
    apply BitVec.eq_of_toNat_eq
    simp only [cat, BitVec.toNat_append, BitVec.toNat_setWidth, BitVec.toNat_ofNat, Nat.zero_mod, Nat.zero_shiftLeft, Nat.zero_or]
    omega
  calc 0x80000000#32 ||| off.setWidth 32
      = cat 1#1 (cat 0#1 (cat 0#6 0#24)) ||| cat 0#1 (cat 0#1 (cat 0#6 off)) := by rw [hoff]; rfl
    _ = cat 1#1 (cat 0#1 (cat 0#6 off)) := by simp only [cat_or_cat, BitVec.or_zero, BitVec.zero_or]

theorem decode_wordB (off : BitVec 24) : decode (0x80000000#32 ||| off.setWidth 32) = .ok (.b off) := by
  rw [wordB_eq_cat]
  simp [decode, decodeB]

end Sys2Proof.Machine
end

section
namespace Sys2Proof.Proofs.ScalarAndControl
open Sys2Proof Sys2Proof.Machine Sys2Proof.Claims

/-- Settles O59: operands 0 are read and written without a wait, so that ADD of registers 0 is its completion alone, which moves its
sequencer's counter and loops. -/
theorem nopChangesNothing : Obligations.NopChangesNothing := by
  refine ⟨rfl, rfl, fun s d => ?_⟩
  obtain ⟨pc, lc, order, hseq⟩ := s.seq_retire s.cur d false
  refine ⟨exec_add_zero s d, s.retire_eq_setSeq s.cur d false, ?_⟩
  simp [hseq, State.completed]

/-- Settles O60: B transfers without a condition, and a transfer writes one sequencer alone. -/
theorem branchBSetsTheCounter : Obligations.BranchBSetsTheCounter :=
  ⟨fun s off => ⟨_, exec_b s off, by simp, State.seq_retireTo_otherSide ..⟩, decode_wordB⟩

end Sys2Proof.Proofs.ScalarAndControl
end
